-- ==== Sys2Proof/Word.lean ====
section
/-! DEFINITION. The words of the machine (00 R4, R8): widths, and sparse tables as sorted lists. -/

namespace Sys2Proof

/-- A general register of a SEQ (06 R127). -/
abbrev Word := BitVec 64
/-- A 32-bit pattern: a sequencer word, a stage word, the DATA of a token. -/
abbrev W32 := BitVec 32
/-- A byte. -/
abbrev Byte := BitVec 8
/-- A capability (04 R103, Table K-34). -/
abbrev Cap := BitVec 128
/-- A sparse table: keys rise strictly; a key that is not listed holds the default its reader names. -/
abbrev Table (α : Type) := List (Nat × α)
/-- A memory: address and byte, addresses rising strictly, no byte listed that an unlisted address reads as. -/
abbrev Memory := List Host.Cell

end Sys2Proof
end

