-- ==== Sys2Proof/Config.lean ====
section
/-! DEFINITION. What an implementation fixes and the spec does not give: free constants. None has a body, so that
nothing can be proved of the value of one (the assumption log names each). -/

namespace Sys2Proof.Config

/-- How far TIMEBASE moves in one step of the machine, by the number of the step (log 6). -/
opaque stepNs : Nat → Nat

/-- The correctly rounded value and conditions of a function of 09 R225 where 700 bits of precision do not separate it
from a rounding boundary: stage OP number, mode code, operands (log 31; no operand that does this is known). -/
opaque hardCase : Nat → BitVec 2 → BitVec 32 → BitVec 32 → BitVec 32 × BitVec 5

/-- The key hash fused in the part (19 R362 step 3, log 22). -/
opaque keyHash : BitVec 256

/-- SVN.MIN, the lowest security version the ROM accepts (19 Table D-29: reset "fuse", log 22). -/
opaque svnMin : BitVec 32

/-- The device serial (19 R365, log 22). -/
opaque serial : BitVec 64

/-- The identity public key (19 R365, log 22). -/
opaque identityKey : List Byte

/-- SLH-DSA-SHAKE-256s verification (FIPS 205): public key, message, signature (19 R362, R364, log 23). -/
opaque slhVerify : List Byte → List Byte → List Byte → Bool

/-- The 29,792-byte SLH-DSA-SHAKE-256s signature of a message with the identity key, at the n-th use (19 R364, log 23). -/
opaque slhSign : Nat → List Byte → List Byte

/-- Which of the pages that the pager may reclaim it takes, at a step (17 R336, log 60). -/
opaque reclaimPick : Nat → Nat

/-- Which of the STATUS codes that apply to a query a selection engine writes, at a step (10 R247, log 63). -/
opaque statusPick : Nat → Nat

/-- What Birgil decides about a grist (15 R285): the element number of each grist element in record order, the padding
elements by the edge that they lengthen (in order along it), what Birgil itself writes into plane images (plane, element
number, 64 page + field, value), and the link virtual channel of each cut edge by its number. -/
structure Mash where
  place : List Nat
  pads : List (Nat × Nat)
  own : List (Nat × Nat × Nat × BitVec 32)
  lvcs : List (Nat × Nat)
  deriving DecidableEq, Repr, Inhabited

/-- Birgil: a function of the grist bytes, the REQUEST bytes and the granted districts (15 R288), asked with true for a
placement with P_V1 within 340 ns in every plane (15 R301), and with false for any; none where the grist allows none
(log 80). -/
opaque birgil : List Byte → List Byte → List Nat → Bool → Option Mash

/-- The order in which the scheduler prefers districts when it grants some to a load, at a step: lower first (log 81). -/
opaque grantRank : Nat → Nat → Nat

/-- Whether, at a step, a PORT's count is written back between the read and the swap of a starting migration (18 R348,
log 127). -/
opaque migrationRace : Nat → Bool

/-- A die group's power over the last 100 us at a boost boundary that no input brings, in W (19 R359, log 137): the step and
the group. -/
opaque groupPower : Nat → Nat → BitVec 16

/-- Whether, at a step, the link fails a read of host memory that loads a file (16 R306, log 118). -/
opaque linkFails : Nat → Bool

/-- How many mashes Birgil's cache holds (15 R289, log 80). -/
opaque cacheSize : Nat

end Sys2Proof.Config
end

