-- ==== Sys2Proof/Machine/Num.lean ====
section
/-! DEFINITION. Exact values and the one rounding of 03 R60-R66: floating-point formats, integer rounding,
conditions. A finite value is a signed ratio of naturals, so that every sum, product and quotient is exact until it
is rounded once (03 R62). -/

namespace Sys2Proof.Machine

/-- Rounding modes with their 2-bit codes (03 R62). -/
inductive RM where
  | rne
  | rz
  | ru
  | rd
  deriving DecidableEq, Repr, Inhabited

/-- The mode of a 2-bit field (03 R62). -/
def RM.ofBits (b : BitVec 2) : RM :=
  match b.toNat with
  | 0 => .rne
  | 1 => .rz
  | 2 => .ru
  | _ => .rd

/-- The five conditions as a set: bit 4 V, 3 Z, 2 O, 1 U, 0 X (03 R63, 07 R155). -/
abbrev Conds := BitVec 5

abbrev condV : Conds := 0b10000
abbrev condZ : Conds := 0b01000
abbrev condO : Conds := 0b00100
abbrev condU : Conds := 0b00010
abbrev condX : Conds := 0b00001

/-- One condition set if `b`. -/
def condIf (b : Bool) (c : Conds) : Conds := if b then c else 0

/-- An exact value: NaN (signalling or quiet), an infinity, or (-1)^neg * num / den with den > 0 (03 R60, R61). -/
inductive Val where
  | nan (signalling : Bool)
  | inf (neg : Bool)
  | fin (neg : Bool) (num den : Nat)
  deriving DecidableEq, Repr, Inhabited

/-- The exact value of an integer; zero is +0. -/
def Val.ofInt (i : Int) : Val := .fin (i < 0) i.natAbs 1

/-- Whether a value is a NaN. -/
def Val.isNaN : Val → Bool
  | .nan _ => true
  | _ => false

/-- Whether a value is a signalling NaN. -/
def Val.isSNaN : Val → Bool
  | .nan b => b
  | _ => false

/-- Whether a value is a finite number. -/
def Val.isFinite : Val → Bool
  | .fin _ _ _ => true
  | _ => false

/-- Whether a value is a zero of either sign. -/
def Val.isZero : Val → Bool
  | .fin _ n _ => n == 0
  | _ => false

/-- The sign of a value; a NaN has sign 0 (03 R61). -/
def Val.neg? : Val → Bool
  | .nan _ => false
  | .inf b => b
  | .fin b _ _ => b

/-- The value with its sign inverted. -/
def Val.negate : Val → Val
  | .nan b => .nan b
  | .inf b => .inf (!b)
  | .fin b n d => .fin (!b) n d

/-- The numerator of a finite value with its sign, over its denominator. -/
def signedNum (neg : Bool) (n : Nat) : Int := if neg then -(n : Int) else n

/-- Exact sum of two finite nonopposed values is formed over the least common denominator. The sign of an exact zero
sum follows 03 R64: the common sign of two zeros of one sign, otherwise +0, and -0 in mode RD. -/
def Val.add (rm : RM) : Val → Val → Val
  | .nan a, .nan b => .nan (a || b)
  | .nan a, _ => .nan a
  | _, .nan b => .nan b
  | .inf a, .inf b => if a == b then .inf a else .nan true
  | .inf a, .fin _ _ _ => .inf a
  | .fin _ _ _, .inf b => .inf b
  | .fin a n d, .fin b m e =>
    let l := Nat.lcm d e
    let s : Int := signedNum a (n * (l / d)) + signedNum b (m * (l / e))
    if s = 0 then
      if n = 0 ∧ m = 0 ∧ a = b then .fin a 0 1 else .fin (rm == .rd) 0 1
    else .fin (s < 0) s.natAbs l

/-- Exact product; zero times infinity is an invalid NaN (03 R64). -/
def Val.mul : Val → Val → Val
  | .nan a, .nan b => .nan (a || b)
  | .nan a, _ => .nan a
  | _, .nan b => .nan b
  | .inf a, .inf b => .inf (a != b)
  | .inf a, .fin b n _ => if n = 0 then .nan true else .inf (a != b)
  | .fin a n _, .inf b => if n = 0 then .nan true else .inf (a != b)
  | .fin a n d, .fin b m e => .fin (a != b) (n * m) (d * e)

/-- Exact quotient with its division condition: finite nonzero over zero is an infinity with Z; 0/0 and inf/inf are
invalid (07 R156, Table K-60 div). -/
def Val.div : Val → Val → Val × Conds
  | .nan a, .nan b => (.nan (a || b), 0)
  | .nan a, _ => (.nan a, 0)
  | _, .nan b => (.nan b, 0)
  | .inf _, .inf _ => (.nan true, 0)
  | .inf a, .fin b _ _ => (.inf (a != b), 0)
  | .fin a _ _, .inf b => (.fin (a != b) 0 1, 0)
  | .fin a n d, .fin b m e =>
    if m = 0 then (if n = 0 then (.nan true, 0) else (.inf (a != b), condZ))
    else (.fin (a != b) (n * e) (d * m), 0)

/-- The value times 2^n, exactly (09 R220 fscl). -/
def Val.scale2 (n : Int) : Val → Val
  | .fin a k d => if 0 ≤ n then .fin a (k * 2 ^ n.toNat) d else .fin a k (d * 2 ^ (-n).toNat)
  | v => v

/-- Exact order of two values that are not NaN; -0 equals +0. -/
def Val.lt : Val → Val → Bool
  | .inf a, .inf b => a && !b
  | .inf a, .fin _ _ _ => a
  | .fin _ _ _, .inf b => !b
  | .fin a n d, .fin b m e => decide (signedNum a (n * e) < signedNum b (m * d))
  | _, _ => false

/-- Equality of two values that are not NaN; -0 equals +0. -/
def Val.eqv (x y : Val) : Bool := !x.isNaN && !y.isNaN && !x.lt y && !y.lt x

/-- The exact sum of a list of terms (03 R75, R64). -/
def Val.sum (rm : RM) : List Val → Val
  | [] => .fin false 0 1
  | [x] => x
  | x :: xs => Val.add rm x (Val.sum rm xs)

/-- Quotient rounded to an integer in a mode, and whether it was inexact (03 R62). -/
def roundDiv (rm : RM) (neg : Bool) (num den : Nat) : Nat × Bool :=
  let q := num / den
  let r := num % den
  let up := match rm with
    | .rne => decide (den < 2 * r) || (decide (2 * r = den) && decide (q % 2 = 1))
    | .rz => false
    | .ru => !neg && decide (r ≠ 0)
    | .rd => neg && decide (r ≠ 0)
  (if up then q + 1 else q, decide (r ≠ 0))

/-- num/den times 2^(-q) rounded to an integer. -/
def roundAt (rm : RM) (neg : Bool) (num den : Nat) (q : Int) : Nat × Bool :=
  if 0 ≤ q then roundDiv rm neg num (den * 2 ^ q.toNat) else roundDiv rm neg (num * 2 ^ (-q).toNat) den

/-- floor(log2(num/den)) for num, den > 0. -/
def floorLog2 (num den : Nat) : Int :=
  let e : Int := (num.log2 : Int) - (den.log2 : Int)
  let below := if 0 ≤ e then decide (num < den * 2 ^ e.toNat) else decide (num * 2 ^ (-e).toNat < den)
  if below then e - 1 else e

/-- A floating-point format (03 R60, Table K-19). -/
structure FloatFmt where
  /-- exponent bits -/
  ebits : Nat
  /-- fraction bits -/
  fbits : Nat
  /-- bias -/
  bias : Nat
  /-- E4M3: no infinities, and 15 with fractions 0-6 an ordinary binade -/
  e4m3 : Bool := false
  deriving DecidableEq, Repr, Inhabited

def fp32 : FloatFmt := { ebits := 8, fbits := 23, bias := 127 }
def bf16 : FloatFmt := { ebits := 8, fbits := 7, bias := 127 }
def fp16 : FloatFmt := { ebits := 5, fbits := 10, bias := 15 }
def fmtE4m3 : FloatFmt := { ebits := 4, fbits := 3, bias := 7, e4m3 := true }
def fmtE5m2 : FloatFmt := { ebits := 5, fbits := 2, bias := 15 }

/-- The bits of a format above its sign bit. -/
def FloatFmt.magBits (f : FloatFmt) : Nat := f.ebits + f.fbits

/-- The largest finite magnitude code (03 Table K-19). -/
def FloatFmt.maxCode (f : FloatFmt) : Nat :=
  if f.e4m3 then 0x7E else (2 ^ f.ebits - 1) * 2 ^ f.fbits - 1

/-- The magnitude code of infinity; E4M3 has none. -/
def FloatFmt.infCode (f : FloatFmt) : Nat := (2 ^ f.ebits - 1) * 2 ^ f.fbits

/-- The canonical NaN (03 R61, Table K-19). -/
def FloatFmt.nanCode (f : FloatFmt) : Nat :=
  if f.e4m3 then 0x7F else f.infCode + 2 ^ (f.fbits - 1)

/-- The sign bit placed above a magnitude code. -/
def FloatFmt.withSign (f : FloatFmt) (neg : Bool) (m : Nat) : Nat := if neg then m + 2 ^ f.magBits else m

/-- The exact value of a pattern (03 R60, R61); bits above the format are ignored. -/
def FloatFmt.val (f : FloatFmt) (x : Nat) : Val :=
  let neg := x.testBit f.magBits
  let m := x % 2 ^ f.magBits
  let e := m / 2 ^ f.fbits
  let fr := m % 2 ^ f.fbits
  if f.e4m3 && m == 0x7F then .nan false
  else if !f.e4m3 && e == 2 ^ f.ebits - 1 then
    (if fr = 0 then .inf neg else .nan (!(fr.testBit (f.fbits - 1))))
  else
    let sig := if e = 0 then fr else fr + 2 ^ f.fbits
    let ex : Int := (if e = 0 then 1 else (e : Int)) - f.bias - f.fbits
    if 0 ≤ ex then .fin neg (sig * 2 ^ ex.toNat) 1 else .fin neg sig (2 ^ (-ex).toNat)

/-- The result of an overflow (03 R64): the IEEE value of the mode, or the largest finite under SAT; where that would
be an infinity in E4M3, the canonical NaN. -/
def FloatFmt.overflow (f : FloatFmt) (rm : RM) (sat neg : Bool) : Nat :=
  let toInf := match rm with
    | .rne => true
    | .rz => false
    | .ru => !neg
    | .rd => neg
  if sat || !toInf then f.withSign neg f.maxCode
  else if f.e4m3 then f.nanCode
  else f.withSign neg f.infCode

/-- A finite nonzero ratio rounded once into a format, with O, U and X (03 R62-R64; tininess after rounding). -/
def FloatFmt.roundPos (f : FloatFmt) (rm : RM) (sat neg : Bool) (num den : Nat) : Nat × Conds :=
  let e := floorLog2 num den
  let emin : Int := 1 - f.bias
  let e' := if e < emin then emin else e
  let (m, inx) := roundAt rm neg num den (e' - f.fbits)
  let code := m + (e' - emin).toNat * 2 ^ f.fbits
  if f.maxCode < code then (f.overflow rm sat neg, condO ||| condX)
  else
    let (m2, _) := roundAt rm neg num den (e - f.fbits)
    let tiny := decide (e < emin) && !(decide (e = emin - 1) && decide (m2 = 2 ^ (f.fbits + 1)))
    (f.withSign neg code, condIf (tiny && inx) condU ||| condIf inx condX)

/-- A value rounded once into a floating-point format, with its conditions (03 R62-R65, Table K-20). -/
def FloatFmt.rnd (f : FloatFmt) (rm : RM) (sat : Bool) : Val → Nat × Conds
  | .nan s => (f.nanCode, condIf s condV)
  | .inf neg =>
    if f.e4m3 then
      (if sat then (f.withSign neg f.maxCode, condO ||| condX) else (f.nanCode, condV))
    else (f.withSign neg f.infCode, 0)
  | .fin neg num den =>
    if num = 0 then (f.withSign neg 0, 0) else f.roundPos rm sat neg num den

/-- A value rounded to an integer and held to lo..hi (03 R66, Table K-20): V where it leaves the range, X where it was
rounded; NaN gives `nanTo`. (DEDUCED, log 30: a result that is both rounded and out of range raises V and X.) -/
def rndRange (rm : RM) (off lo hi nanTo : Int) : Val → Int × Conds
  | .nan _ => (nanTo, condV)
  | .inf neg => (if neg then lo else hi, condV)
  | .fin neg num den =>
    let (q, inx) := roundDiv rm neg num den
    let n : Int := signedNum neg q + off
    let x := condIf inx condX
    if n < lo then (lo, x ||| condV) else if hi < n then (hi, x ||| condV) else (n, x)

/-- Rounding to INT32 (03 R66). -/
def rndInt32 (rm : RM) (v : Val) : BitVec 32 × Conds :=
  let (n, c) := rndRange rm 0 (-2147483648) 2147483647 0 v
  (BitVec.ofInt 32 n, c)

/-- Rounding to an offset-binary integer of `bits` bits with zero point `z` (03 R66, R70). -/
def rndOffset (bits : Nat) (z : Nat) (rm : RM) (v : Val) : Nat × Conds :=
  let (n, c) := rndRange rm z 0 (2 ^ bits - 1 : Nat) z v
  (n.toNat, c)

/-- The floating-point format of a format code (03 R58): codes 0 to 4. -/
def floatOf (code : BitVec 4) : Option FloatFmt :=
  match code.toNat with
  | 0 => some fp32
  | 1 => some bf16
  | 2 => some fp16
  | 3 => some fmtE4m3
  | 4 => some fmtE5m2
  | _ => none

/-- val(x, f) for format codes 0-4 and 10 (06 R147). -/
def valOf (code : BitVec 4) (x : Nat) : Val :=
  match floatOf code with
  | some f => f.val x
  | none => .ofInt (BitVec.ofNat 32 x).toInt

/-- rnd(v, f, rm, sat) for format codes 0-4 and 10 (06 R147). -/
def rndTo (code : BitVec 4) (rm : RM) (sat : Bool) (v : Val) : BitVec 32 × Conds :=
  match floatOf code with
  | some f => let (n, c) := f.rnd rm sat v; (BitVec.ofNat 32 n, c)
  | none => rndInt32 rm v

/-- The exact value of an FP32 pattern. -/
abbrev val32 (x : BitVec 32) : Val := fp32.val x.toNat

/-- A value rounded once into FP32. -/
def rnd32 (rm : RM) (v : Val) : BitVec 32 × Conds :=
  let (n, c) := fp32.rnd rm false v
  (BitVec.ofNat 32 n, c)

/-- The canonical FP32 NaN. -/
abbrev nan32 : BitVec 32 := 0x7FC00000

/-- Integer square root by bits, from bit `b` down (structural, so that the kernel evaluates it). -/
def isqrtGo (n : Nat) : Nat → Nat → Nat
  | 0, r => r
  | b + 1, r => let r' := r + 2 ^ b; if r' * r' ≤ n then isqrtGo n b r' else isqrtGo n b r

/-- The integer square root. -/
def isqrt (n : Nat) : Nat := isqrtGo n (n.log2 / 2 + 1) 0

/-- The square root of num/den as a ratio that rounds as the exact root does: the root itself where it is a ratio of
den * 2^200, else the midpoint of the two neighbouring ratios, between which no FP32 value and no midpoint of two lies. -/
def sqrtRatio (num den : Nat) : Nat × Nat :=
  let t := num * den * 4 ^ 200
  let r := isqrt t
  if r * r = t then (r, den * 2 ^ 200) else (2 * r + 1, 2 * (den * 2 ^ 200))

/-- The square root as a value (07 R156 sqrt): sqrt(-0) = -0, negative operands invalid. -/
def Val.sqrt : Val → Val
  | .nan b => .nan b
  | .inf neg => if neg then .nan true else .inf false
  | .fin neg n d =>
    if n = 0 then .fin neg 0 1
    else if neg then .nan true
    else let (p, q) := sqrtRatio n d; .fin false p q

/-- The smaller (or larger) of two FP32 patterns under fpu.min and fpu.max (07 R156): -0 below +0, one NaN gives the
other operand, two NaNs the canonical NaN, V only for a signalling NaN. -/
def minMax32 (max : Bool) (a b : BitVec 32) : BitVec 32 × Conds :=
  let x := val32 a
  let y := val32 b
  let c := condIf (x.isSNaN || y.isSNaN) condV
  let r :=
    if x.isNaN && y.isNaN then nan32
    else if x.isNaN then b
    else if y.isNaN then a
    else
      let aLess := x.lt y || (!y.lt x && x.neg? && !y.neg?)
      if max then (if aLess then b else a) else (if aLess then a else b)
  (r, c)

/-- The AMAX rule of 04 Table K-29: NaN gives the canonical NaN; else the larger magnitude. -/
def amax32 (w v : BitVec 32) : BitVec 32 :=
  if (val32 w).isNaN || (val32 v).isNaN then nan32
  else
    let a := w &&& 0x7FFFFFFF
    let b := v &&& 0x7FFFFFFF
    if a.toNat < b.toNat then b else a

end Sys2Proof.Machine
end

