-- ==== Sys2Proof/Machine/Func.lean ====
section
/-! DEFINITION. The correctly rounded functions of 09 R225 and R226: each value is enclosed in a ball of fixed-point
numbers, and rounded once both ends round alike. -/

namespace Sys2Proof.Machine

/-- A real number within `e` of `c`, both in units of 2^-p. -/
structure Ball where
  c : Int
  e : Nat
  deriving DecidableEq, Repr, Inhabited

/-- A ratio as a ball. -/
def Ball.ofRatio (p : Nat) (num : Int) (den : Nat) : Ball := ⟨num * 2 ^ p / (den : Int), 1⟩

/-- Sum of balls. -/
def Ball.add (x y : Ball) : Ball := ⟨x.c + y.c, x.e + y.e⟩

/-- Difference of balls. -/
def Ball.sub (x y : Ball) : Ball := ⟨x.c - y.c, x.e + y.e⟩

/-- Product of balls. -/
def Ball.mul (p : Nat) (x y : Ball) : Ball :=
  ⟨x.c * y.c / 2 ^ p, (x.c.natAbs * y.e + y.c.natAbs * x.e + x.e * y.e) / 2 ^ p + 2⟩

/-- A ball over a natural. -/
def Ball.divNat (x : Ball) (k : Nat) : Ball := ⟨x.c / (k : Int), x.e / k + 2⟩

/-- A ball times an integer. -/
def Ball.mulInt (x : Ball) (k : Int) : Ball := ⟨x.c * k, x.e * k.natAbs⟩

/-- Quotient of balls, the divisor bounded away from zero. -/
def Ball.div (p : Nat) (x y : Ball) : Ball :=
  let q := x.c * 2 ^ p / y.c
  ⟨q, (x.e * 2 ^ p + (q.natAbs + 1) * y.e) / (y.c.natAbs - y.e) + 2⟩

/-- Sum of x^k / k! from the term `t` of index `k` on. -/
def Ball.expGo (p : Nat) (x : Ball) : Nat → Nat → Ball → Ball → Ball
  | 0, _, _, s => ⟨s.c, s.e + 1⟩
  | n + 1, k, t, s =>
    let t' := (Ball.mul p t x).divNat (k + 1)
    expGo p x n (k + 1) t' (s.add t')

/-- e^x for |x| < 2. -/
def Ball.expSmall (p : Nat) (x : Ball) : Ball :=
  let one : Ball := ⟨2 ^ p, 0⟩
  Ball.expGo p x (p / 2 + 24) 0 one one

/-- Sum of s^k y^(2k+1) / (2k+1), s = 1 (artanh) or -1 (arctan), |y| at most 1/3. -/
def Ball.atGo (p : Nat) (s : Int) (y2 : Ball) : Nat → Nat → Ball → Ball → Ball
  | 0, _, _, acc => ⟨acc.c, acc.e + 1⟩
  | n + 1, k, t, acc =>
    let t' := (Ball.mul p t y2).mulInt s
    atGo p s y2 n (k + 1) t' (acc.add (t'.divNat (2 * k + 3)))

/-- artanh y (s = 1) or arctan y (s = -1) for |y| at most 1/3. -/
def Ball.atSeries (p : Nat) (s : Int) (y : Ball) : Ball := Ball.atGo p s (Ball.mul p y y) (p / 3 + 12) 0 y y

/-- ln 2 = 2 artanh(1/3). -/
def Ball.ln2 (p : Nat) : Ball := (Ball.atSeries p 1 (Ball.ofRatio p 1 3)).mulInt 2

/-- pi = 16 arctan(1/5) - 4 arctan(1/239). -/
def Ball.pi (p : Nat) : Ball :=
  ((Ball.atSeries p (-1) (Ball.ofRatio p 1 5)).mulInt 16).sub ((Ball.atSeries p (-1) (Ball.ofRatio p 1 239)).mulInt 4)

/-- Sums of the sine (`k` = 1) or cosine (`k` = 0) series after the term `t` of power `k`. -/
def Ball.trigGo (p : Nat) (x2 : Ball) : Nat → Nat → Ball → Ball → Ball
  | 0, _, _, s => ⟨s.c, s.e + 1⟩
  | n + 1, k, t, s =>
    let t' := ((Ball.mul p t x2).divNat ((k + 1) * (k + 2))).mulInt (-1)
    trigGo p x2 n (k + 2) t' (s.add t')

/-- sin x for |x| < 2. -/
def Ball.sinSmall (p : Nat) (x : Ball) : Ball := Ball.trigGo p (Ball.mul p x x) (p / 4 + 16) 1 x x

/-- cos x for |x| < 2. -/
def Ball.cosSmall (p : Nat) (x : Ball) : Ball :=
  Ball.trigGo p (Ball.mul p x x) (p / 4 + 16) 0 ⟨2 ^ p, 0⟩ ⟨2 ^ p, 0⟩

/-- A ball times 2^k, at precision p, as the exact values of its two ends; none when it holds zero. -/
def Ball.ends (p : Nat) (k : Int) (x : Ball) : Option (Val × Val) :=
  let lo := x.c - (x.e : Int)
  let hi := x.c + (x.e : Int)
  let v (n : Int) : Val := Val.scale2 k (.fin (n < 0) n.natAbs (2 ^ p))
  if 0 < lo ∨ hi < 0 then some (v lo, v hi) else none

/-- Two bounds between which the value lies. -/
def tinyEnds : Option (Val × Val) := some (.fin false 1 (2 ^ 400), .fin false 1 (2 ^ 250))

/-- Two bounds of a value beyond every FP32 value. -/
def hugeEnds : Option (Val × Val) := some (.fin false (2 ^ 250) 1, .fin false (2 ^ 251) 1)

/-- Two bounds of a value just below 1. -/
def nearOneEnds : Option (Val × Val) := some (.fin false (2 ^ 60 - 1) (2 ^ 60), .fin false (2 ^ 500 - 1) (2 ^ 500))

/-- e^(num/den) as 2^k times a ball at working precision p, for |num/den| below 2^9. -/
def expBall (p : Nat) (num : Int) (den : Nat) : Int × Ball :=
  let x := Ball.ofRatio p num den
  let l := Ball.ln2 p
  let k : Int := x.c / l.c - 1
  (k, Ball.expSmall p (x.sub (l.mulInt k)))

/-- Bounds of e^(num/den). -/
def expEnds (p : Nat) (num : Int) (den : Nat) : Option (Val × Val) :=
  if 200 * (den : Int) < num then hugeEnds
  else if num < -200 * (den : Int) then tinyEnds
  else let (k, b) := expBall p num den; b.ends p k

/-- Bounds of 2^(num/den). -/
def exp2Ends (p : Nat) (num : Int) (den : Nat) : Option (Val × Val) :=
  if 300 * (den : Int) < num then hugeEnds
  else if num < -300 * (den : Int) then tinyEnds
  else
    let k := num / (den : Int)
    let b := Ball.expSmall p (Ball.mul p (Ball.ofRatio p (num - k * den) den) (Ball.ln2 p))
    b.ends p k

/-- ln(num/den) for positive num/den, as a ball. -/
def lnBall (p : Nat) (num den : Nat) : Ball :=
  let k := floorLog2 num den
  let n := if 0 ≤ k then num else num * 2 ^ (-k).toNat
  let d := if 0 ≤ k then den * 2 ^ k.toNat else den
  let y := Ball.ofRatio p ((n : Int) - d) (n + d)
  ((Ball.atSeries p 1 y).mulInt 2).add ((Ball.ln2 p).mulInt k)

/-- Quadrant and remainder of num/den modulo pi/2. -/
def trigReduce (p : Nat) (num : Int) (den : Nat) : Int × Ball :=
  let w := p + 140
  let half := (Ball.pi w).divNat 2
  let x := Ball.ofRatio w num den
  let n := x.c / half.c
  let r := x.sub (half.mulInt n)
  (n % 4, ⟨r.c / 2 ^ 140, r.e / 2 ^ 140 + 2⟩)

/-- Bounds of sin(num/den + q pi/2). -/
def sinEnds (p : Nat) (q : Int) (num : Int) (den : Nat) : Option (Val × Val) :=
  let (n, r) := trigReduce p num den
  let m := (n + q) % 4
  let b := if m % 2 = 0 then Ball.sinSmall p r else Ball.cosSmall p r
  (if m < 2 then b else b.mulInt (-1)).ends p 0

/-- Bounds of tanh(num/den) for positive num/den. -/
def tanhEnds (p : Nat) (num : Int) (den : Nat) : Option (Val × Val) :=
  if 30 * (den : Int) < num then nearOneEnds
  else
    let (k, b) := expBall p (2 * num) den
    let e : Ball := ⟨b.c * 2 ^ k.toNat / 2 ^ (-k).toNat, b.e * 2 ^ k.toNat / 2 ^ (-k).toNat + 1⟩
    let one : Ball := ⟨2 ^ p, 0⟩
    (Ball.div p (e.sub one) (e.add one)).ends p 0

/-- Bounds of 1/(1 + e^-(num/den)). -/
def sigmoidEnds (p : Nat) (num : Int) (den : Nat) : Option (Val × Val) :=
  if 100 * (den : Int) < num then nearOneEnds
  else if num < -200 * (den : Int) then tinyEnds
  else
    let (k, b) := expBall p num den
    let e : Ball := ⟨b.c * 2 ^ k.toNat / 2 ^ (-k).toNat, b.e * 2 ^ k.toNat / 2 ^ (-k).toNat + 1⟩
    let one : Ball := ⟨2 ^ p, 0⟩
    (Ball.div p e (e.add one)).ends p 0

/-- Rounds an irrational value from its bounds at rising precision; X is always raised. `hard` is the answer where
even the last precision does not decide. -/
def zivGo (rm : RM) (hard : BitVec 32 × Conds) (bounds : Nat → Option (Val × Val)) :
    List Nat → BitVec 32 × Conds
  | [] => hard
  | p :: ps =>
    match bounds p with
    | none => zivGo rm hard bounds ps
    | some (lo, hi) =>
      let (a, ca) := rnd32 rm lo
      let (b, cb) := rnd32 rm hi
      if a = b then (a, ca ||| cb ||| condX) else zivGo rm hard bounds ps

/-- The precisions tried, in bits. -/
def zivBits : List Nat := [96, 320, 720]

/-- A value that needs no rounding bounds. -/
def exact32 (rm : RM) (v : Val) (c : Conds := 0) : BitVec 32 × Conds :=
  let (r, d) := rnd32 rm v
  (r, c ||| d)

/-- A unary function of 09 Table K-111 on a finite nonzero operand with no special case. -/
def ziv1 (op : Nat) (rm : RM) (rmBits : BitVec 2) (a : BitVec 32) (f : Nat → Int → Nat → Option (Val × Val)) :
    BitVec 32 × Conds :=
  match val32 a with
  | .fin neg n d => zivGo rm (Config.hardCase op rmBits a 0) (fun p => f p (signedNum neg n) d) zivBits
  | _ => (nan32, 0)

/-- Ends with the sign of the operand put back (for odd functions computed on the magnitude). -/
def oddEnds (f : Nat → Int → Nat → Option (Val × Val)) (p : Nat) (num : Int) (den : Nat) : Option (Val × Val) :=
  if num < 0 then (f p (-num) den).map (fun (lo, hi) => (hi.negate, lo.negate)) else f p num den

/-- The functions of 09 Table K-111 that take one operand, by OP value (16 sin to 30 log; fabs, fneg, texp and fdiv
apart), with their special cases. -/
def func1 (op : Nat) (rmBits : BitVec 2) (a : BitVec 32) : BitVec 32 × Conds :=
  let rm := RM.ofBits rmBits
  let zero : Val := .fin false 0 1
  let one : Val := .fin false 1 1
  match val32 a with
  | .nan s => (nan32, condIf s condV)
  | .inf neg =>
    match op with
    | 18 | 29 | 23 => if neg then exact32 rm zero else if op = 23 then exact32 rm one else exact32 rm (.inf false)
    | 19 | 30 | 27 => if neg then (nan32, condV) else exact32 rm (.inf false)
    | 20 => exact32 rm (.fin neg 0 1)
    | 21 => if neg then (nan32, condV) else exact32 rm zero
    | 22 => exact32 rm (.fin neg 1 1)
    | _ => (nan32, condV)
  | .fin neg n d =>
    if n = 0 then
      match op with
      | 17 | 18 | 29 => exact32 rm one
      | 19 | 30 => exact32 rm (.inf true) condZ
      | 20 | 21 => exact32 rm (.inf neg) condZ
      | 23 => exact32 rm (.fin false 1 2)
      | _ => exact32 rm (.fin neg 0 1)
    else
      match op with
      | 16 => ziv1 op rm rmBits a (fun p => sinEnds p 0)
      | 17 => ziv1 op rm rmBits a (fun p => sinEnds p 1)
      | 18 =>
        if n % d = 0 then
          (if 2000 * d < n then exact32 rm (Val.scale2 (if neg then -2000 else 2000) one)
           else exact32 rm (Val.scale2 (signedNum neg (n / d)) one))
        else ziv1 op rm rmBits a exp2Ends
      | 19 =>
        if neg then (nan32, condV)
        else
          let k := floorLog2 n d
          if (if 0 ≤ k then n = d * 2 ^ k.toNat else n * 2 ^ (-k).toNat = d) then exact32 rm (.ofInt k)
          else ziv1 op rm rmBits a (fun p m e => (Ball.div p (lnBall p m.toNat e) (Ball.ln2 p)).ends p 0)
      | 20 => exact32 rm (.fin neg d n)
      | 21 => if neg then (nan32, condV) else exact32 rm (Val.sqrt (.fin false d n))
      | 22 => ziv1 op rm rmBits a (oddEnds tanhEnds)
      | 23 => ziv1 op rm rmBits a sigmoidEnds
      | 27 => exact32 rm (Val.sqrt (.fin neg n d))
      | 29 => ziv1 op rm rmBits a expEnds
      | 30 =>
        if neg then (nan32, condV)
        else if n = d then exact32 rm zero
        else ziv1 op rm rmBits a (fun p m e => (lnBall p m.toNat e).ends p 0)
      | _ => (nan32, 0)

/-- The quotient of fdiv and fpu.div (07 Table K-60). -/
def fdiv32 (rm : RM) (a b : BitVec 32) : BitVec 32 × Conds :=
  let (v, c) := Val.div (val32 a) (val32 b)
  exact32 rm v c

/-- What texp (09 R226) does: a value, or V and error end-of-stream; with the one-hot flag afterwards. -/
inductive TexpResult where
  | value (r : BitVec 32) (c : Conds) (flag : Bool)
  | error
  deriving DecidableEq, Repr, Inhabited

/-- The temperature-scaled exponential of 09 R226 with the one-hot flag as it stands. A NaN d with T zero or subnormal
gives +0 with V; with T = +infinity or positive normal it gives NaN with V. -/
def texp32 (rmBits : BitVec 2) (a b : BitVec 32) (flag : Bool) : TexpResult :=
  let rm := RM.ofBits rmBits
  let d := val32 a
  let one : BitVec 32 := 0x3F800000
  let sub := decide ((b &&& 0x7F800000#32) = 0#32)
  match val32 b with
  | .nan _ => .error
  | .inf neg => if neg then .error else if d.isNaN then .value nan32 condV flag else .value one 0 flag
  | .fin neg tn td =>
    if sub then
      (if d.isNaN then .value 0 condV flag
       else if d.isZero && !flag then .value one 0 true
       else .value 0 0 flag)
    else if neg then .error
    else
      match d with
      | .nan _ => .value nan32 condV flag
      | .inf dn => let (r, c) := exact32 rm (if dn then .fin false 0 1 else .inf false); .value r c flag
      | .fin dn n m =>
        if n = 0 then .value one 0 flag
        else
          let (r, c) := zivGo rm (Config.hardCase 24 rmBits a b)
            (fun p => expEnds p (signedNum dn (n * td)) (m * tn)) zivBits
          .value r c flag

end Sys2Proof.Machine
end

