-- ==== Sys2Proof/Syntax.lean ====
section
/-! DEFINITION. The instructions and device steps of the SM-160: one constructor per row of the opcode table. -/

namespace Sys2Proof

/-- One constructor per row of the opcode table. Rows 0-165 are sequencer instructions with the fields of their
words (06 R121, R122). The others are whole steps of the device (95): an element is named by its module element
number 520 x district + element index (00 R7, 06 R132), a link by N 0, E 1, S 2, W 3 and 4 for what the element
itself has formed and not yet emitted, a district by its module district number (1023: the management core), a
loaded region by its LOADID, and what the outside world brings by the value it brings. The single register writes stand
late, and the rows without operands last: the compiler builds no value of a constructor with fields beyond the 244th. -/
inductive Instr where
  /-- ALU_ADD (R150): Writes the 64-bit wrapping sum of g[ga] and g[gb] to g[gd]. -/
  | aluAdd (d : BitVec 5) (a : BitVec 5) (b : BitVec 5)
  /-- ALU_SUB (R150): Writes the 64-bit wrapping difference g[ga] minus g[gb] to g[gd]. -/
  | aluSub (d : BitVec 5) (a : BitVec 5) (b : BitVec 5)
  /-- ALU_MUL (R150): Writes the low 64 bits of the product to g[gd]. -/
  | aluMul (d : BitVec 5) (a : BitVec 5) (b : BitVec 5)
  /-- ALU_MULHS (R150): Writes bits 127:64 of the signed 128-bit product to g[gd]. -/
  | aluMulhs (d : BitVec 5) (a : BitVec 5) (b : BitVec 5)
  /-- ALU_MULHU (R150): Writes bits 127:64 of the unsigned 128-bit product to g[gd]. -/
  | aluMulhu (d : BitVec 5) (a : BitVec 5) (b : BitVec 5)
  /-- ALU_DIVS (R150): Writes the signed quotient truncated toward zero, with the stated border cases. -/
  | aluDivs (d : BitVec 5) (a : BitVec 5) (b : BitVec 5)
  /-- ALU_DIVU (R150): Writes the unsigned quotient, all ones on division by zero. -/
  | aluDivu (d : BitVec 5) (a : BitVec 5) (b : BitVec 5)
  /-- ALU_REMS (R150): Writes the signed remainder with the sign of the dividend. -/
  | aluRems (d : BitVec 5) (a : BitVec 5) (b : BitVec 5)
  /-- ALU_REMU (R150): Writes the unsigned remainder. -/
  | aluRemu (d : BitVec 5) (a : BitVec 5) (b : BitVec 5)
  /-- ALU_AND (R150): Writes the bitwise AND of g[ga] and g[gb]. -/
  | aluAnd (d : BitVec 5) (a : BitVec 5) (b : BitVec 5)
  /-- ALU_OR (R150): Writes the bitwise OR of g[ga] and g[gb]. -/
  | aluOr (d : BitVec 5) (a : BitVec 5) (b : BitVec 5)
  /-- ALU_XOR (R150): Writes the bitwise XOR of g[ga] and g[gb]. -/
  | aluXor (d : BitVec 5) (a : BitVec 5) (b : BitVec 5)
  /-- ALU_ANDN (R150): Writes g[ga] AND NOT g[gb]. -/
  | aluAndn (d : BitVec 5) (a : BitVec 5) (b : BitVec 5)
  /-- ALU_MIN (R150): Writes the signed minimum. -/
  | aluMin (d : BitVec 5) (a : BitVec 5) (b : BitVec 5)
  /-- ALU_MAX (R150): Writes the signed maximum. -/
  | aluMax (d : BitVec 5) (a : BitVec 5) (b : BitVec 5)
  /-- ALU_MINU (R150): Writes the unsigned minimum. -/
  | aluMinu (d : BitVec 5) (a : BitVec 5) (b : BitVec 5)
  /-- ALU_MAXU (R150): Writes the unsigned maximum. -/
  | aluMaxu (d : BitVec 5) (a : BitVec 5) (b : BitVec 5)
  /-- ADDI (R151): Adds the sign-extended 15-bit immediate to g[ga]. -/
  | addi (d : BitVec 5) (a : BitVec 5) (i : BitVec 15)
  /-- ANDI (R151): ANDs g[ga] with the zero-extended immediate. -/
  | andi (d : BitVec 5) (a : BitVec 5) (i : BitVec 15)
  /-- ORI (R151): ORs g[ga] with the zero-extended immediate. -/
  | ori (d : BitVec 5) (a : BitVec 5) (i : BitVec 15)
  /-- XORI (R151): XORs g[ga] with the zero-extended immediate. -/
  | xori (d : BitVec 5) (a : BitVec 5) (i : BitVec 15)
  /-- SHLI (R151): Shifts g[ga] left by the immediate count. -/
  | shli (d : BitVec 5) (a : BitVec 5) (n : BitVec 6)
  /-- SHRI (R151): Shifts g[ga] right logically by the immediate count. -/
  | shri (d : BitVec 5) (a : BitVec 5) (n : BitVec 6)
  /-- SARI (R151): Shifts g[ga] right arithmetically by the immediate count. -/
  | sari (d : BitVec 5) (a : BitVec 5) (n : BitVec 6)
  /-- LI_SX (R152): Two-word load of a sign-extended 32-bit immediate into g[gd]. -/
  | liSx (d : BitVec 5) (imm : BitVec 32)
  /-- LI_ZX (R152): Two-word load of a zero-extended 32-bit immediate into g[gd]. -/
  | liZx (d : BitVec 5) (imm : BitVec 32)
  /-- LI_HI (R152): Two-word write of the immediate into bits 63:32 of g[gd]. -/
  | liHi (d : BitVec 5) (imm : BitVec 32)
  /-- CMP_EQ (R153): Sets condition bit cd when the 64-bit values are equal. -/
  | cmpEq (c : BitVec 3) (a : BitVec 5) (b : BitVec 5)
  /-- CMP_NE (R153): Sets cd when the values differ. -/
  | cmpNe (c : BitVec 3) (a : BitVec 5) (b : BitVec 5)
  /-- CMP_LT (R153): Sets cd on signed less-than. -/
  | cmpLt (c : BitVec 3) (a : BitVec 5) (b : BitVec 5)
  /-- CMP_LTU (R153): Sets cd on unsigned less-than. -/
  | cmpLtu (c : BitVec 3) (a : BitVec 5) (b : BitVec 5)
  /-- CMP_LE (R153): Sets cd on signed less-or-equal. -/
  | cmpLe (c : BitVec 3) (a : BitVec 5) (b : BitVec 5)
  /-- CMP_LEU (R153): Sets cd on unsigned less-or-equal. -/
  | cmpLeu (c : BitVec 3) (a : BitVec 5) (b : BitVec 5)
  /-- CMP_FEQ (R153): Sets cd on FP32 equality, quiet for quiet NaNs. -/
  | cmpFeq (c : BitVec 3) (a : BitVec 5) (b : BitVec 5)
  /-- CMP_FLT (R153): Sets cd on FP32 less-than, raising V for any NaN. -/
  | cmpFlt (c : BitVec 3) (a : BitVec 5) (b : BitVec 5)
  /-- CMP_FLE (R153): Sets cd on FP32 less-or-equal, raising V for any NaN. -/
  | cmpFle (c : BitVec 3) (a : BitVec 5) (b : BitVec 5)
  /-- CMP_FUN (R153): Sets cd when either FP32 operand is a NaN. -/
  | cmpFun (c : BitVec 3) (a : BitVec 5) (b : BitVec 5)
  /-- CND_AND (R154): c[cd] := c[ca] AND c[cb]. -/
  | cndAnd (c : BitVec 3) (a : BitVec 3) (b : BitVec 3)
  /-- CND_OR (R154): c[cd] := c[ca] OR c[cb]. -/
  | cndOr (c : BitVec 3) (a : BitVec 3) (b : BitVec 3)
  /-- CND_XOR (R154): c[cd] := c[ca] XOR c[cb]. -/
  | cndXor (c : BitVec 3) (a : BitVec 3) (b : BitVec 3)
  /-- CND_ANDN (R154): c[cd] := c[ca] AND NOT c[cb]. -/
  | cndAndn (c : BitVec 3) (a : BitVec 3) (b : BitVec 3)
  /-- CND_SETG (R154): Writes condition bit ca zero-extended into g[gd]. -/
  | cndSetg (d : BitVec 5) (a : BitVec 3)
  /-- CND_FROMG (R154): Sets c[cd] when g[ga] is nonzero. -/
  | cndFromg (c : BitVec 3) (a : BitVec 5)
  /-- CND_SEL (R154): Selects g[ga] or g[gb] into g[gd] by condition bit n. -/
  | cndSel (d : BitVec 5) (a : BitVec 5) (b : BitVec 5) (n : BitVec 3)
  /-- FPU_ADD (R156): FP32 addition rounded once in mode RM. -/
  | fpuAdd (d : BitVec 5) (a : BitVec 5) (b : BitVec 5) (r : BitVec 2)
  /-- FPU_SUB (R156): FP32 subtraction rounded once in mode RM. -/
  | fpuSub (d : BitVec 5) (a : BitVec 5) (b : BitVec 5) (r : BitVec 2)
  /-- FPU_MUL (R156): FP32 multiplication rounded once in mode RM. -/
  | fpuMul (d : BitVec 5) (a : BitVec 5) (b : BitVec 5) (r : BitVec 2)
  /-- FPU_DIV (R156): FP32 division with the stated border cases. -/
  | fpuDiv (d : BitVec 5) (a : BitVec 5) (b : BitVec 5) (r : BitVec 2)
  /-- FPU_SQRT (R156): FP32 square root of g[ga]. -/
  | fpuSqrt (d : BitVec 5) (a : BitVec 5) (r : BitVec 2)
  /-- FPU_FMA (R156): FP32 fused a times b plus g[gd], one rounding. -/
  | fpuFma (d : BitVec 5) (a : BitVec 5) (b : BitVec 5) (r : BitVec 2)
  /-- FPU_MIN (R156): FP32 minimum with NaN and signed-zero rules. -/
  | fpuMin (d : BitVec 5) (a : BitVec 5) (b : BitVec 5)
  /-- FPU_MAX (R156): FP32 maximum with NaN and signed-zero rules. -/
  | fpuMax (d : BitVec 5) (a : BitVec 5) (b : BitVec 5)
  /-- FPU_ABS (R156): Clears bit 31 of the FP32 operand. -/
  | fpuAbs (d : BitVec 5) (a : BitVec 5)
  /-- FPU_NEG (R156): Inverts bit 31 of the FP32 operand. -/
  | fpuNeg (d : BitVec 5) (a : BitVec 5)
  /-- FPU_CVTO (R156): Converts FP32 to the format coded in gb, with SAT for FP8 targets. -/
  | fpuCvto (d : BitVec 5) (a : BitVec 5) (f : BitVec 5) (r : BitVec 2) (s : BitVec 1)
  /-- FPU_CVFROM (R156): Converts a pattern from the format coded in gb to FP32. -/
  | fpuCvfrom (d : BitVec 5) (a : BitVec 5) (f : BitVec 5) (r : BitVec 2)
  /-- FPU_FLAGS (R155): Reads FLAGS into g[gd] and clears FLAGS in the same act. -/
  | fpuFlags (d : BitVec 5)
  /-- BIT_SHL (R157): Shifts g[ga] left by g[gb][5:0]. -/
  | bitShl (d : BitVec 5) (a : BitVec 5) (b : BitVec 5)
  /-- BIT_SHR (R157): Shifts g[ga] right logically by g[gb][5:0]. -/
  | bitShr (d : BitVec 5) (a : BitVec 5) (b : BitVec 5)
  /-- BIT_SAR (R157): Shifts g[ga] right arithmetically. -/
  | bitSar (d : BitVec 5) (a : BitVec 5) (b : BitVec 5)
  /-- BIT_ROL (R157): Rotates g[ga] left. -/
  | bitRol (d : BitVec 5) (a : BitVec 5) (b : BitVec 5)
  /-- BIT_ROR (R157): Rotates g[ga] right. -/
  | bitRor (d : BitVec 5) (a : BitVec 5) (b : BitVec 5)
  /-- BIT_CLZ (R157): Counts leading zeros of g[ga]. -/
  | bitClz (d : BitVec 5) (a : BitVec 5)
  /-- BIT_CTZ (R157): Counts trailing zeros of g[ga]. -/
  | bitCtz (d : BitVec 5) (a : BitVec 5)
  /-- BIT_POPC (R157): Counts the ones in g[ga]. -/
  | bitPopc (d : BitVec 5) (a : BitVec 5)
  /-- BIT_BSWAP (R157): Reverses the bytes of g[ga]. -/
  | bitBswap (d : BitVec 5) (a : BitVec 5)
  /-- BIT_EXTU (R157): Extracts a zero-extended bit field. -/
  | bitExtu (d : BitVec 5) (a : BitVec 5) (b : BitVec 5)
  /-- BIT_EXTS (R157): Extracts a sign-extended bit field. -/
  | bitExts (d : BitVec 5) (a : BitVec 5) (b : BitVec 5)
  /-- BIT_INS (R157): Inserts a bit field of g[ga] into g[gd]. -/
  | bitIns (d : BitVec 5) (a : BitVec 5) (b : BitVec 5)
  /-- BR (R158): Conditional PC-relative branch on c[cr] = sense. -/
  | br (c : BitVec 3) (s : BitVec 1) (o : BitVec 21)
  /-- CALL (R158): Conditional PC-relative call linking in g31. -/
  | call (c : BitVec 3) (s : BitVec 1) (o : BitVec 21)
  /-- JMP_JR (R159): Jumps to the address in g[ga]. -/
  | jmpJr (a : BitVec 5)
  /-- JMP_JALR (R159): Jumps to g[ga] and links PC+4 in g[gd]. -/
  | jmpJalr (d : BitVec 5) (a : BitVec 5)
  /-- REP (R160): Runs the next word n1+1 times with stepped register fields, resumable via REMAIN. -/
  | rep (n : BitVec 6) (d : BitVec 6) (a : BitVec 6) (b : BitVec 6)
  /-- CAP_MOV (R162): Copies capability k[ka] to k[kd]. -/
  | capMov (d : BitVec 4) (k : BitVec 4)
  /-- CAP_NULL (R162): Sets k[kd] to the null capability. -/
  | capNull (d : BitVec 4)
  /-- CAP_BASE (R162): Derives a capability with BASE raised by g[ga]. -/
  | capBase (d : BitVec 4) (k : BitVec 4) (a : BitVec 5)
  /-- CAP_LEN (R162): Derives a capability with LIMIT set to BASE plus g[ga]. -/
  | capLen (d : BitVec 4) (k : BitVec 4) (a : BitVec 5)
  /-- CAP_AND (R162): Derives a capability with rights ANDed with the mask. -/
  | capAnd (d : BitVec 4) (k : BitVec 4) (r : BitVec 8)
  /-- CAP_TEST (R162): Sets a condition bit if a 1-byte capchk would pass. -/
  | capTest (c : BitVec 3) (k : BitVec 4) (a : BitVec 5) (r : BitVec 8)
  /-- CAP_GBASE (R162): Reads BASE of k[ka] into g[ga]. -/
  | capGbase (k : BitVec 4) (a : BitVec 5)
  /-- CAP_GLIMIT (R162): Reads LIMIT of k[ka] into g[ga]. -/
  | capGlimit (k : BitVec 4) (a : BitVec 5)
  /-- CAP_GMETA (R162): Reads rights and OBJ of k[ka] into g[ga]. -/
  | capGmeta (k : BitVec 4) (a : BitVec 5)
  /-- CAP_LD (R164): Loads a 16-byte capability from memory into k[kd]. -/
  | capLd (d : BitVec 4) (k : BitVec 4) (a : BitVec 5)
  /-- CAP_ST (R164): Stores k[kd] as 16 bytes, requiring its K right. -/
  | capSt (d : BitVec 4) (k : BitVec 4) (a : BitVec 5)
  /-- STEP_BEGIN (R165): Begins a configuration step for a leaf from STEPCFG, raising ECSN. -/
  | stepBegin (a : BitVec 5)
  /-- STEP_NEXT (R165): Advances the iteration counter, ending the step when ITER3 wraps. -/
  | stepNext (c : BitVec 3)
  /-- STEP_DONE (R165): Waits for and removes a DONE token for the named leaf. -/
  | stepDone (a : BitVec 5)
  /-- STEP_SIG (R165): Sends a 32-bit signal to another SEQ of the region, waiting on a full queue. -/
  | stepSig (a : BitVec 5) (b : BitVec 5)
  /-- STEP_RCV (R165): Waits for a signal and writes sender and value to g[gd]. -/
  | stepRcv (d : BitVec 5)
  /-- SYS_RD (R168): Reads a system register into g[gd] with privilege checks. -/
  | sysRd (d : BitVec 5) (s : BitVec 12)
  /-- SYS_WR (R168): Writes g[gd] to a system register with privilege checks. -/
  | sysWr (d : BitVec 5) (s : BitVec 12)
  /-- MEM_LD_H (R172): Loads a zero-extended half from tile space or a page. -/
  | memLdH (d : BitVec 5) (a : BitVec 5) (k : BitVec 4) (f : BitVec 2) (o : BitVec 4)
  /-- MEM_LD_HS (R172): Loads a sign-extended half. -/
  | memLdHs (d : BitVec 5) (a : BitVec 5) (k : BitVec 4) (f : BitVec 2) (o : BitVec 4)
  /-- MEM_LD_W (R172): Loads a zero-extended word. -/
  | memLdW (d : BitVec 5) (a : BitVec 5) (k : BitVec 4) (f : BitVec 2) (o : BitVec 4)
  /-- MEM_LD_WS (R172): Loads a sign-extended word. -/
  | memLdWs (d : BitVec 5) (a : BitVec 5) (k : BitVec 4) (f : BitVec 2) (o : BitVec 4)
  /-- MEM_LD_D (R172): Loads a doubleword from a page. -/
  | memLdD (d : BitVec 5) (a : BitVec 5) (k : BitVec 4) (f : BitVec 2) (o : BitVec 4)
  /-- MEM_LD_Q (R172): Loads 16 bytes into an even register pair. -/
  | memLdQ (d : BitVec 5) (a : BitVec 5) (k : BitVec 4) (f : BitVec 2) (o : BitVec 4)
  /-- MEM_ST_H (R172): Stores a half. -/
  | memStH (d : BitVec 5) (a : BitVec 5) (k : BitVec 4) (f : BitVec 2) (o : BitVec 4)
  /-- MEM_ST_W (R172): Stores a word. -/
  | memStW (d : BitVec 5) (a : BitVec 5) (k : BitVec 4) (f : BitVec 2) (o : BitVec 4)
  /-- MEM_ST_D (R172): Stores a doubleword to a page. -/
  | memStD (d : BitVec 5) (a : BitVec 5) (k : BitVec 4) (f : BitVec 2) (o : BitVec 4)
  /-- MEM_ST_Q (R172): Stores 16 bytes from an even register pair. -/
  | memStQ (d : BitVec 5) (a : BitVec 5) (k : BitVec 4) (f : BitVec 2) (o : BitVec 4)
  /-- RMEM_LD_H (R174): Remote tile load of a zero-extended half. -/
  | rmemLdH (d : BitVec 5) (a : BitVec 5) (k : BitVec 4) (f : BitVec 2) (o : BitVec 4)
  /-- RMEM_LD_HS (R174): Remote tile load of a sign-extended half. -/
  | rmemLdHs (d : BitVec 5) (a : BitVec 5) (k : BitVec 4) (f : BitVec 2) (o : BitVec 4)
  /-- RMEM_LD_W (R174): Remote tile load of a zero-extended word. -/
  | rmemLdW (d : BitVec 5) (a : BitVec 5) (k : BitVec 4) (f : BitVec 2) (o : BitVec 4)
  /-- RMEM_LD_WS (R174): Remote tile load of a sign-extended word. -/
  | rmemLdWs (d : BitVec 5) (a : BitVec 5) (k : BitVec 4) (f : BitVec 2) (o : BitVec 4)
  /-- RMEM_LD_D (R173): Remote doubleword load, which always traps MEM_FORM. -/
  | rmemLdD (d : BitVec 5) (a : BitVec 5) (k : BitVec 4) (f : BitVec 2) (o : BitVec 4)
  /-- RMEM_LD_Q (R174): Remote tile load of 16 bytes. -/
  | rmemLdQ (d : BitVec 5) (a : BitVec 5) (k : BitVec 4) (f : BitVec 2) (o : BitVec 4)
  /-- RMEM_ST_H (R174): Remote tile store of a half. -/
  | rmemStH (d : BitVec 5) (a : BitVec 5) (k : BitVec 4) (f : BitVec 2) (o : BitVec 4)
  /-- RMEM_ST_W (R174): Remote tile store of a word. -/
  | rmemStW (d : BitVec 5) (a : BitVec 5) (k : BitVec 4) (f : BitVec 2) (o : BitVec 4)
  /-- RMEM_ST_D (R173): Remote doubleword store, which always traps MEM_FORM. -/
  | rmemStD (d : BitVec 5) (a : BitVec 5) (k : BitVec 4) (f : BitVec 2) (o : BitVec 4)
  /-- RMEM_ST_Q (R174): Remote tile store of 16 bytes. -/
  | rmemStQ (d : BitVec 5) (a : BitVec 5) (k : BitVec 4) (f : BitVec 2) (o : BitVec 4)
  /-- AMO_ADD (R176): Tile ADD update returning the old word. -/
  | amoAdd (d : BitVec 5) (a : BitVec 5) (k : BitVec 4) (f : BitVec 2) (o : BitVec 4)
  /-- AMO_MIN (R176): Tile signed MIN update returning the old word. -/
  | amoMin (d : BitVec 5) (a : BitVec 5) (k : BitVec 4) (f : BitVec 2) (o : BitVec 4)
  /-- AMO_MAX (R176): Tile signed MAX update returning the old word. -/
  | amoMax (d : BitVec 5) (a : BitVec 5) (k : BitVec 4) (f : BitVec 2) (o : BitVec 4)
  /-- AMO_AMAX (R176): Tile absolute-max update returning the old word. -/
  | amoAmax (d : BitVec 5) (a : BitVec 5) (k : BitVec 4) (f : BitVec 2) (o : BitVec 4)
  /-- AMO_AMAXR (R176): Tile AMAX.RESET returning the word and zeroing it. -/
  | amoAmaxr (d : BitVec 5) (a : BitVec 5) (k : BitVec 4) (f : BitVec 2) (o : BitVec 4)
  /-- AMO_FADD_W (R176): Tile FP32 FADD returning the old word. -/
  | amoFaddW (d : BitVec 5) (a : BitVec 5) (k : BitVec 4) (f : BitVec 2) (o : BitVec 4)
  /-- AMO_FADD_H (R176): Tile BF16 FADD returning the old half. -/
  | amoFaddH (d : BitVec 5) (a : BitVec 5) (k : BitVec 4) (f : BitVec 2) (o : BitVec 4)
  /-- AMO_AND (R176): Tile AND update returning the old word. -/
  | amoAnd (d : BitVec 5) (a : BitVec 5) (k : BitVec 4) (f : BitVec 2) (o : BitVec 4)
  /-- AMO_OR (R176): Tile OR update returning the old word. -/
  | amoOr (d : BitVec 5) (a : BitVec 5) (k : BitVec 4) (f : BitVec 2) (o : BitVec 4)
  /-- AMO_XCHG (R176): Tile exchange returning the old word. -/
  | amoXchg (d : BitVec 5) (a : BitVec 5) (k : BitVec 4) (f : BitVec 2) (o : BitVec 4)
  /-- AMO_CAS (R176): Tile compare-and-swap with expected and new halves of g[gd]. -/
  | amoCas (d : BitVec 5) (a : BitVec 5) (k : BitVec 4) (f : BitVec 2) (o : BitVec 4)
  /-- AMO_ADD_POSTED (R176): Posted tile ADD with no reply. -/
  | amoAddPosted (d : BitVec 5) (a : BitVec 5) (k : BitVec 4) (f : BitVec 2) (o : BitVec 4)
  /-- AMO_MIN_POSTED (R176): Posted tile MIN. -/
  | amoMinPosted (d : BitVec 5) (a : BitVec 5) (k : BitVec 4) (f : BitVec 2) (o : BitVec 4)
  /-- AMO_MAX_POSTED (R176): Posted tile MAX. -/
  | amoMaxPosted (d : BitVec 5) (a : BitVec 5) (k : BitVec 4) (f : BitVec 2) (o : BitVec 4)
  /-- AMO_AMAX_POSTED (R176): Posted tile AMAX. -/
  | amoAmaxPosted (d : BitVec 5) (a : BitVec 5) (k : BitVec 4) (f : BitVec 2) (o : BitVec 4)
  /-- AMO_FADD_W_POSTED (R176): Posted tile FP32 FADD. -/
  | amoFaddWPosted (d : BitVec 5) (a : BitVec 5) (k : BitVec 4) (f : BitVec 2) (o : BitVec 4)
  /-- AMO_FADD_H_POSTED (R176): Posted tile BF16 FADD. -/
  | amoFaddHPosted (d : BitVec 5) (a : BitVec 5) (k : BitVec 4) (f : BitVec 2) (o : BitVec 4)
  /-- AMO_AND_POSTED (R176): Posted tile AND. -/
  | amoAndPosted (d : BitVec 5) (a : BitVec 5) (k : BitVec 4) (f : BitVec 2) (o : BitVec 4)
  /-- AMO_OR_POSTED (R176): Posted tile OR. -/
  | amoOrPosted (d : BitVec 5) (a : BitVec 5) (k : BitVec 4) (f : BitVec 2) (o : BitVec 4)
  /-- SYNC_PHBAR (R180): Arrives at a phase barrier of a group with a party count. -/
  | syncPhbar (a : BitVec 5) (b : BitVec 5)
  /-- SYNC_SPARGE (R181): Root drains the region's engines and releases RECONFIG for a slot. -/
  | syncSparge (a : BitVec 5)
  /-- STRM_DLD (R183): Reads a 64-byte descriptor image into d[dsc]. -/
  | strmDld (dsc : BitVec 4) (a : BitVec 5)
  /-- STRM_BIND (R184): Checks and binds a descriptor to an MT port or the PORT, queueing a transfer. -/
  | strmBind (dsc : BitVec 4) (ch : BitVec 5) (a : BitVec 5) (die : BitVec 4) (row : BitVec 7) (col : BitVec 8) (port : BitVec 3)
  /-- STRM_PBAR (R183): Places an ordering barrier in a port's scoreboard. -/
  | strmPbar (die : BitVec 4) (row : BitVec 7) (col : BitVec 8) (port : BitVec 3)
  /-- STRM_DINV (R183): Invalidates d[dsc]. -/
  | strmDinv (dsc : BitVec 4)
  /-- ENG_STEEP (R189): Issues a steep of 4,096 weight-store bytes into an MN shadow plane. -/
  | engSteep (u : BitVec 3) (a : BitVec 5)
  /-- ENG_MTOK (R189): Sends one matrix-control token to an MN. -/
  | engMtok (u : BitVec 3) (a : BitVec 5)
  /-- ENG_COPY (R190): Checks and queues a copy-engine command between two descriptors. -/
  | engCopy (a : BitVec 5)
  /-- ENG_RO (R191): Passes a command word and argument to a reorder element. -/
  | engRo (u : BitVec 2) (a : BitVec 5) (b : BitVec 5)
  /-- ENG_SEL (R191): Passes a command word and argument to a selection engine. -/
  | engSel (u : BitVec 1) (a : BitVec 5) (b : BitVec 5)
  /-- ENG_MON (R191): Passes a command word and argument to a store-stream monitor. -/
  | engMon (u : BitVec 1) (a : BitVec 5) (b : BitVec 5)
  /-- ENG_DEC (R191): Passes a command word and argument to a decompression engine. -/
  | engDec (u : BitVec 1) (a : BitVec 5) (b : BitVec 5)
  /-- RACK_SAVE (R192): Issues RACK.SAVE of a rotation head into a record. -/
  | rackSave (a : BitVec 5) (b : BitVec 5)
  /-- RACK_LOAD (R192): Issues RACK.LOAD with a new slot count and remap. -/
  | rackLoad (d : BitVec 5) (a : BitVec 5) (b : BitVec 5)
  /-- WAIT (R171): Holds the SEQ until all four outstanding counters are within their limits. -/
  | wait (l : BitVec 6) (s : BitVec 6) (c : BitVec 6) (t : BitVec 6)
  /-- SCHED_PITCH (R193): Gives a predecessor event to a dependence entry. -/
  | schedPitch (a : BitVec 5)
  /-- SCHED_CLAIM (R193): Sets the region's requested supply level. -/
  | schedClaim (a : BitVec 5)
  /-- SCHED_LEVEL (R193): Reads granted level and boost permits into g[gd]. -/
  | schedLevel (d : BitVec 5)
  /-- SCHED_PERFSEL (R193): Selects an event for a district performance counter. -/
  | schedPerfsel (a : BitVec 5) (b : BitVec 5)
  /-- MGMT_DRD (R351): Reads a district register into g[gd]. -/
  | mgmtDrd (d : BitVec 5) (n : BitVec 8)
  /-- MGMT_DWR (R351): Writes g[gd+1] to a district register. -/
  | mgmtDwr (d : BitVec 5) (n : BitVec 8)
  /-- MGMT_SINT (R351): Raises INTERRUPT SUB 1 at a district's SEQ. -/
  | mgmtSint (d : BitVec 5)
  /-- MGMT_CRYPTO (R351): Starts the crypto command block at a management-store address. -/
  | mgmtCrypto (d : BitVec 5)
  /-- ILLEGAL_WORD (R124): A fetched word whose major opcode or func value is not assigned traps ILLEGAL and changes nothing. -/
  | illegalWord (w : BitVec 32)
  /-- FIRING (R24): A runnable handler whose conditions hold fires, taking a power token and running its six stages. -/
  | firing (e : Nat)
  /-- ROUTER_FORWARD (R205): A PE or spine router forwards an arriving token by its route entry or faults ROUTE. -/
  | routerForward (e link ch : Nat)
  /-- MT_ROUTER_FORWARD (R83): An MT router forwards, delivers or sends to V a token, or faults ROUTE. -/
  | mtRouterForward (e link ch : Nat)
  /-- TOKEN_KIND_FAULT (R14): An element receiving a token of an unaccepted or reserved kind discards it and faults KIND. -/
  | tokenKindFault (e link ch : Nat)
  /-- RECONFIG (R32): A RECONFIG token at a channel head switches its active plane and is passed on. -/
  | reconfig (e link ch : Nat)
  /-- CONFIG_FETCH (R34): A channel switching to a non-resident slot fetches its share and resumes when it arrives. -/
  | configFetch (e : Nat)
  /-- RESUME (R335): A RESUME token at a PORT restarts held data-class traffic of its fault serial number. -/
  | resume (d : Nat)
  /-- DONE (R166): A DONE control token enters the SEQ's DONE queue. -/
  | doneToken (d link ch : Nat)
  /-- SEAL (R384): A SEAL token from the base becomes an error end-of-stream or is discarded by incarnation. -/
  | sealToken (d : Nat)
  /-- BIND_TIMEOUT (R323): A token waiting on an unbound channel past BINDTO is discarded with a fabric fault. -/
  | bindTimeout (e link ch : Nat)
  /-- OPERAND_STAGE (R45): The rotation head stages or discards an operand token by its phase. -/
  | operandStage (e : Nat)
  /-- ADMIT_STRAY (R46): An admit token with a marker is taken, discarded and counted in STRAY. -/
  | admitStray (e : Nat)
  /-- HEAD_VISIT (R46): A rotation head visits one phase, joining, firing, parking, faulting or retiring its slot. -/
  | headVisit (e : Nat)
  /-- ROTATION_SAVE (R50): The head accepts or refuses RACK.SAVE and runs the capture into the record. -/
  | rotationSave (e : Nat)
  /-- ROTATION_LOAD (R54): The head checks a record and remap and loads streams over one revolution. -/
  | rotationLoad (e : Nat)
  /-- MT_READ_STREAM (R84): A read stream reads its next pattern granule and emits four tokens. -/
  | mtReadStream (e port : Nat)
  /-- MT_WRITE_STREAM (R85): A write stream accepts a data token and writes granules of its pattern. -/
  | mtWriteStream (e port : Nat)
  /-- TILE_REQUEST (R86): A port accepts a request with its operands into its comparator, or answers an error. -/
  | tileRequest (e link ch : Nat)
  /-- REQUEST_APPLY (R90): A granted request is applied indivisibly to its granule and replied. -/
  | requestApply (e bank : Nat)
  /-- WAITER_SERVE (R93): A full/empty change serves waiting keep, take or fill requests in order. -/
  | waiterServe (e : Nat)
  /-- FE_TIMEOUT (R94): A waiter still unserved after FETO is removed and answered FE_TIMEOUT. -/
  | feTimeout (e port : Nat)
  /-- PAGE_REQUEST (R106): A PORT takes a PE page request, checks it and performs or answers it. -/
  | pageRequest (d link ch : Nat)
  /-- PORT_ACCESS (R329): A PORT checks and translates an access to an object page. -/
  | portAccess (d n : Nat)
  /-- PORT_STREAM_ELEMENT (R185): A bound PORT stream moves one element between an object and its channel. -/
  | portStreamElement (d : Nat)
  /-- CUT_EDGE_TRANSFER (R290): A token on a CUTOUT channel crosses the base and is emitted by the far PORT. -/
  | cutEdgeTransfer (d link ch : Nat)
  /-- STREAM_COMMAND_START (R187): A port scoreboard starts its next bound stream command. -/
  | streamCommandStart (e port : Nat)
  /-- MN_MUL (R238): MN takes and latches an activation row and multiplies it into a bank. -/
  | mnMul (e : Nat)
  /-- MN_MULACC (R238): MN multiplies the latched row into a bank. -/
  | mnMulacc (e : Nat)
  /-- MN_SWAP (R240): MN copies the shadow plane into the active plane once not filling. -/
  | mnSwap (e : Nat)
  /-- MN_READ (R241): MN emits one accumulator word after earlier tokens finish. -/
  | mnRead (e : Nat)
  /-- MN_CLEAR (R236): MN zeroes bank columns, FLAGS and POISON. -/
  | mnClear (e : Nat)
  /-- MN_DRAIN (R241): MN emits a bank's columns and clears flags. -/
  | mnDrain (e : Nat)
  /-- MN_SETZP (R239): MN takes four tokens of zero points. -/
  | mnSetzp (e : Nat)
  /-- SHADOW_FILL_TOKEN (R240): A data or error token on SHDCH writes or poisons the shadow plane. -/
  | shadowFillToken (e : Nat)
  /-- STEEP (R189): The MN steep engine reads 4,096 weight-store bytes into the shadow plane. -/
  | steep (e : Nat)
  /-- RO_INPUT (R243): A reorder element stores an input token in its entry. -/
  | roInput (e : Nat)
  /-- RO_OUTPUT (R243): A reorder element emits the next output step once its entry arrived. -/
  | roOutput (e : Nat)
  /-- RO_SHAPE (R253): Sets the RO shape for the next tensor or faults RO_PERM. -/
  | roShape (e : Nat)
  /-- RO_FLUSH (R253): Discards buffered RO tokens. -/
  | roFlush (e : Nat)
  /-- SEL_KEY_TOKEN (R244): A selection engine takes a key or weight token into its set. -/
  | selKeyToken (e : Nat) (weight : Bool)
  /-- SEL_KTH (R246): Answers the k-th key by a bit-plane walk and writes the result. -/
  | selKth (e : Nat)
  /-- SEL_QUANT (R246): Answers a quantile query and writes the result. -/
  | selQuant (e : Nat)
  /-- SEL_WQUANT (R246): Answers a weighted quantile query and writes the result. -/
  | selWquant (e : Nat)
  /-- SEL_CLEAR (R253): Empties the key set. -/
  | selClear (e : Nat)
  /-- MON_ARM (R253): Adds fields to the monitor's armed set. -/
  | monArm (e : Nat)
  /-- MON_DISARM (R253): Disarms the monitor. -/
  | monDisarm (e : Nat)
  /-- MON_SETREF (R253): Sets REF of a field. -/
  | monSetref (e : Nat)
  /-- MON_SETABS (R253): Sets ABS of a field. -/
  | monSetabs (e : Nat)
  /-- MON_SETREL (R253): Sets REL of a field. -/
  | monSetrel (e : Nat)
  /-- MON_CLEAR (R253): Clears a field's total and bits, or all fields. -/
  | monClear (e : Nat)
  /-- MON_READ (R253): Writes a field's total in three granules. -/
  | monRead (e : Nat)
  /-- DEC_RUN (R253): Starts decompression of a source descriptor to a destination or channel. -/
  | decRun (e : Nat)
  /-- DEC_BLOCK (R252): The DEC checks, decodes and releases one block, or faults it. -/
  | decBlock (e : Nat)
  /-- COPY_RUN (R190): The copy engine converts and writes every element of its command. -/
  | copyRun (d : Nat)
  /-- SEQ_REPLY (R170): A reply or completion reaches the SEQ, writing registers and lowering a counter. -/
  | seqReply (c src ch : Nat)
  /-- TRAP_ENTRY (R196): The SEQ stops issue, settles requests, writes the trap frame and jumps to 0. -/
  | trapEntry (c : Nat)
  /-- RBAR_COMPLETE (R179): A region barrier completes when all members arrived and remote requests are answered. -/
  | rbarComplete (load : BitVec 32)
  /-- PHBAR_COMPLETE (R180): A phase barrier completes when its party count arrived. -/
  | phbarComplete (load : BitVec 32) (group : BitVec 4)
  /-- SPARGE_RELEASE (R181): After the drain, sparge releases RECONFIG and sets the region plane. -/
  | spargeRelease (load : BitVec 32)
  /-- CFG_BEGIN (R135): CONTROL BEGIN opens a configuration stream, held while another is open. -/
  | cfgBegin (d : Nat) (w : BitVec 32)
  /-- CFG_ADDR (R132): ADDR word sets the cursor and target slot. -/
  | cfgAddr (d : Nat) (w : BitVec 32)
  /-- CFG_FIELD (R132): FIELD word advances the cursor and writes a field value. -/
  | cfgField (d : Nat) (w : BitVec 32)
  /-- CFG_EXTEND (R133): EXTEND word supplies the high half of the next FIELD value. -/
  | cfgExtend (d : Nat) (w : BitVec 32)
  /-- CFG_SPARGEAWAIT (R135): Holds the stream until a sparge of the region completes. -/
  | cfgSpargeawait (d : Nat) (w : BitVec 32)
  /-- CFG_COMMIT (R136): Checks the stream and commits the district's images atomically or refuses it. -/
  | cfgCommit (d : Nat) (w : BitVec 32)
  /-- SENSOR_REFRESH (R355): Every 10 µs DTEMP and MODPWR refresh and thermal and module steps move. -/
  | sensorRefresh (shown : List (Nat × BitVec 64)) (watts : BitVec 16)
  /-- BOOST_BOUNDARY (R358): Every 4 µs the kiln charges permits, arbitrates and grants levels. -/
  | boostBoundary (w0 w1 w2 w3 : BitVec 16)
  /-- BOARD_REPORT (R356): A board report selects the cooling mode and limit-table row. -/
  | boardReport (inlet flow : BitVec 16) (medium : BitVec 4)
  /-- DISTRICT_RETIRED (R376): A marked district with no region becomes RETIRED and capacity updates. -/
  | districtRetired (d : Nat)
  /-- LOADCMD (R306): Host write that starts loading a PLF file into a region. -/
  | loadcmd (w : BitVec 512)
  /-- TRIGGER (R308): A 64-byte trigger record is checked and queued in its bank or dropped. -/
  | trigger (bank : Nat) (whole : Bool) (w : BitVec 512)
  /-- LAUNCH (R313): A launch acquires districts, snapshots, writes DATA, sets registers and starts the region. -/
  | launch (n : Nat)
  /-- CASK_SAVE (R320): Halts a region and saves its whole context to a cask slot. -/
  | caskSave (load : BitVec 32)
  /-- CASK_RESTORE (R320): Restores a saved region's context and resumes it. -/
  | caskRestore (load : BitVec 32)
  /-- PAGER_RESOLVE (R334): The pager resolves a fault record by demand-zero or software notification. -/
  | pagerResolve (fsn : BitVec 24)
  /-- RECLAIM_RETRY (R336): With an empty pool the pager retries reclaim every 10 µs. -/
  | reclaimRetry (fsn : BitVec 24)
  /-- PAGE_EXHAUSTED (R336): A fault unresolved after PGDEADLINE escalates to containment. -/
  | pageExhausted (fsn : BitVec 24)
  /-- HUSK_SEAL (R342): An unrecoverable fault seals a husk, cutting edges and trapping the root. -/
  | huskSeal (soft : Option Nat)
  /-- REPLY_LATE_DROP (R343): A reply with a stale incarnation is dropped and LATEDROP rises. -/
  | replyLateDrop (d : Nat)
  /-- HOST_ACCESS (R119): A host CXL.mem access to HBM is performed coherently. -/
  | hostAccess (addr size : Nat) (wr : Option (BitVec 512))
  /-- REGISTER_WRITE (R305): A host write to a register without its own behaviour stores or is ignored. -/
  | registerWrite (bar off : Nat) (v : List Byte)
  /-- SUPPLY_RAMP_END (R29): Up to 1 µs after a level change the supply ramp ends, and the region leaves the lower level's rates for the new level. -/
  | supplyRampEnd (load : BitVec 32)
  /-- ALERTST_WRITE (R361): Writing 1 to set ALERTST bits clears them. -/
  | alertstWrite (v : BitVec 64)
  /-- ALERTEN_WRITE (R371): Writing ALERTEN; a 0-to-1 change with the bit set raises the interrupt. -/
  | alertenWrite (v : BitVec 64)
  /-- GOREADY (R362): Writing BOOTST.GOREADY sets STATE READY once. -/
  | goready (v : BitVec 64)
  /-- LIMTAB_WRITE (R356): Writing a limit-table row, effective next interval for the row in force. -/
  | limtabWrite (key : Nat) (v : BitVec 64)
  /-- RETIRE (R376): Writing RETIRE marks a district for retirement. -/
  | retire (v : BitVec 64)
  /-- ATTESTREQ (R366): Host request for an attestation report, interrupting the management core. -/
  | attestreq (v : BitVec 64)
  /-- UNLOAD (R307): Host write that releases or refuses to release a loaded region. -/
  | unload (v : BitVec 64)
  /-- DEPENDENCE_VALID_SET (R311): Setting VALID checks the entry and initialises PRED and PENDING. -/
  | dependenceValidSet (n : Nat) (v : BitVec 64)
  /-- DEPENDENCE_VALID_CLEAR (R311): Clearing VALID of a valid entry clears VALID alone. -/
  | dependenceValidClear (n : Nat) (v : BitVec 64)
  /-- BATCH_COMMIT (R315): Writing VERSION+1 copies STAGE into LIVE in one act. -/
  | batchCommit (n : Nat) (v : BitVec 64)
  /-- BANKCFG_WRITE (R308): Writes a bank's configuration, PART ignored while enabled. -/
  | bankcfgWrite (bank : Nat) (v : BitVec 64)
  /-- PARTWS_WRITE (R317): Writes a partition's weight-store grant, ignored while it has a loaded region. -/
  | partwsWrite (p : Nat) (v : BitVec 64)
  /-- GANGSTAT_WRITE (R322): Writing 1 clears GANGSTAT SKIPPED or RAISED. -/
  | gangstatWrite (v : BitVec 64)
  /-- BINDCMD (R324): Host replaces one virtual-channel entry of a running PE. -/
  | bindcmd (v : BitVec 64)
  /-- DOORBELL (R325): Host raises INTERRUPT SUB 2 at a district's SEQ or holds it. -/
  | doorbell (v : BitVec 64)
  /-- DBST_WRITE (R325): Writing 1 clears DBST.ERR. -/
  | dbstWrite (v : BitVec 64)
  /-- TLBINV (R331): Host starts invalidation of cached translations by scope. -/
  | tlbinv (v : BitVec 64)
  /-- PGRESOLVE (R334): Host reports that the page of a pending fault is mapped. -/
  | pgresolve (v : BitVec 64)
  /-- FPPUSH (R334): Host pushes a free HBM frame into the pool. -/
  | fppush (v : BitVec 64)
  /-- MIGRATION_START (R340): Writing MIGDST checks the entry, sets MIGRATING and WB and begins copying. -/
  | migrationStart (v : BitVec 64)
  /-- PERFSEL (R379): Host selects an event for a counter across a district range. -/
  | perfsel (v : BitVec 64)
  /-- CTRQ (R380): Host requests a reduction of one counter over a district range. -/
  | ctrq (v : BitVec 64)
  /-- CPCAP (R381): Host arms a critical-path capture request. -/
  | cpcap (v : BitVec 64)
  /-- REPLTH_WRITE (R377): Writing REPLTH takes effect at once for REPLACE_REQUESTED. -/
  | replthWrite (v : BitVec 64)
  /-- JMP_RET (R159): Jumps to the address in g31. -/
  | jmpRet
  /-- STEP_END (R165): Ends the current step and zeroes the iteration counters. -/
  | stepEnd
  /-- SYS_TRET (R198): Returns from a trap, re-issuing valid frame entries. -/
  | sysTret
  /-- SYS_HALT (R199): Waits for counters to drain, checks the barrier rule and halts the SEQ. -/
  | sysHalt
  /-- SYS_IDLE (R200): Waits until a queue, counter or trap cause event occurs. -/
  | sysIdle
  /-- SYNC_FENCE_ELEM (R114): Fence at element scope. -/
  | syncFenceElem
  /-- SYNC_FENCE_REGION (R114): Fence at region scope. -/
  | syncFenceRegion
  /-- SYNC_FENCE_DIE (R114): Fence at die scope. -/
  | syncFenceDie
  /-- SYNC_FENCE_MODULE (R114): Fence at module scope. -/
  | syncFenceModule
  /-- SYNC_FENCE_SYSTEM (R114): Fence at system scope. -/
  | syncFenceSystem
  /-- SYNC_RBAR (R179): Arrives at the region barrier and waits for its completion. -/
  | syncRbar
  /-- FETCH_RANGE (R120): A fetch that runs past 0x3_FFFF by falling through traps FETCH_RANGE at the instruction that fetched it. -/
  | fetchRange
  /-- POWER_INTERVAL (R354): Every 1 µs the kiln refills each region's power-token pool by THROT. -/
  | powerInterval
  /-- WS_REFRESH_PERIOD (R101): At each 64 µs multiple the kiln updates HOT from district temperatures. -/
  | wsRefreshPeriod
  /-- COOLANT_STALE (R356): No board report for 100 ms sets STALE and air mode. -/
  | coolantStale
  /-- COLD_RESET (R362): Cold reset runs the ROM, checks image slots and starts Gwemer or fails. -/
  | coldReset
  /-- CRYPTO_HASH (R364): Computes SHAKE256 over a source region. -/
  | cryptoHash
  /-- CRYPTO_VERIFY (R364): Verifies an SLH-DSA signature. -/
  | cryptoVerify
  /-- CRYPTO_SIGN (R364): Signs a report message with the identity key. -/
  | cryptoSign
  /-- CRYPTO_EXTEND (R364): Extends a measurement register. -/
  | cryptoExtend
  /-- CRYPTO_IDEKEY (R364): Loads an IDE stream key. -/
  | cryptoIdekey
  /-- LOAD_COMPLETE (R298): A load ends and its status completion is written to the host. -/
  | loadComplete
  /-- SCHEDULE_TRIGGER (R309): The scheduler takes a bank's head trigger, patches PARAM and gives an event. -/
  | scheduleTrigger
  /-- PRIORITY_TOKEN_REFILL (R317): Each ms a partition gains TOKRATE priority tokens up to TOKMAX. -/
  | priorityTokenRefill
  /-- GANG_HALT (R321): 1 µs before a gang instant the outgoing partition begins to halt. -/
  | gangHalt
  /-- GANG_INSTANT (R322): At a slice instant partitions are saved and restored in shared districts. -/
  | gangInstant
  /-- TLBINV_COMPLETE (R331): Invalidation completes when caches are clear and covered accesses performed. -/
  | tlbinvComplete
  /-- MIGRATION_COPY_DONE (R340): After the copy the entry switches frame and held writes replay. -/
  | migrationCopyDone
  /-- PERFSEL_APPLY (R379): At the next 1 µs boundary the selection applies and counters zero. -/
  | perfselApply
  /-- CTRQ_LATCH (R380): At the next 1 µs boundary counters latch and the result is formed. -/
  | ctrqLatch
  /-- TRACE_PC_SAMPLE (R382): Every TRCSAMP µs a PC sample record is written to the trace ring. -/
  | tracePcSample
  /-- SYSFAULT (R377): An uncorrectable soft error in the system district sets MODHEALTH.SYSFAULT and REPLACE_REQUESTED. -/
  | sysfault
  deriving DecidableEq, Repr, Inhabited

end Sys2Proof
end

