-- ==== Sys2Proof/WellFormed.lean ====
section
/-! DEFINITION. Which instructions are well formed: the limits on field values that 06 R124 check 3 and the
instructions' own entries set beyond the widths of their fields, and the ranges of the names an event uses. -/

namespace Sys2Proof

/-- fe and ord of a load: fe none, keep or take; ord 0-5 (08 R172). -/
def loadQual (f : BitVec 2) (o : BitVec 4) : Bool := f != 3#2 && decide (o.toNat ≤ 5)
/-- fe and ord of a store: fe none or fill; ord 0 or 6-10 (08 R172). -/
def storeQual (f : BitVec 2) (o : BitVec 4) : Bool :=
  (f == 0#2 || f == 2#2) && (o == 0#4 || decide (6 ≤ o.toNat ∧ o.toNat ≤ 10))
/-- fe and ord of a returning amo: fe none or keep; ord 0-10 (08 R177). -/
def amoQual (f : BitVec 2) (o : BitVec 4) : Bool := (f == 0#2 || f == 1#2) && decide (o.toNat ≤ 10)
/-- fe and ord of a posted amo: fe none or keep; ord 0 or 6-10 (08 R177). -/
def postedQual (f : BitVec 2) (o : BitVec 4) : Bool :=
  (f == 0#2 || f == 1#2) && (o == 0#4 || decide (6 ≤ o.toNat ∧ o.toNat ≤ 10))
/-- A register number that must be even (08 R172, 19 R351). -/
def evenReg (d : BitVec 5) : Bool := decide (d.toNat % 2 = 0)
/-- The format codes of cvto and cvfrom (07 R156). -/
def fpuFormat (f : BitVec 5) : Bool := decide (f.toNat ≤ 4) || f == 10#5
/-- A module element number: 640 districts of 520 elements (00 R7, 06 R132). -/
def isElem (e : Nat) : Bool := decide (e < 332800)

/-- A number that an element or a tile of the management store can have: that store's four tiles stand at elements 1, 3, 5
and 7 of the number 1023 that the management core has in place of a district's (19 R349). -/
def isTile (e : Nat) : Bool := isElem e || [531961, 531963, 531965, 531967].contains e
/-- A module district number. -/
def isDist (d : Nat) : Bool := decide (d < 640)
/-- A core: a district's SEQ or the management core. -/
def isCore (c : Nat) : Bool := decide (c < 640 ∨ c = 1023)

/-- The instruction's fields hold only values its entry allows. -/
def Instr.wf : Instr → Bool
  | .aluAdd _ _ _ => true
  | .aluSub _ _ _ => true
  | .aluMul _ _ _ => true
  | .aluMulhs _ _ _ => true
  | .aluMulhu _ _ _ => true
  | .aluDivs _ _ _ => true
  | .aluDivu _ _ _ => true
  | .aluRems _ _ _ => true
  | .aluRemu _ _ _ => true
  | .aluAnd _ _ _ => true
  | .aluOr _ _ _ => true
  | .aluXor _ _ _ => true
  | .aluAndn _ _ _ => true
  | .aluMin _ _ _ => true
  | .aluMax _ _ _ => true
  | .aluMinu _ _ _ => true
  | .aluMaxu _ _ _ => true
  | .addi _ _ _ => true
  | .andi _ _ _ => true
  | .ori _ _ _ => true
  | .xori _ _ _ => true
  | .shli _ _ _ => true
  | .shri _ _ _ => true
  | .sari _ _ _ => true
  | .liSx _ _ => true
  | .liZx _ _ => true
  | .liHi _ _ => true
  | .cmpEq _ _ _ => true
  | .cmpNe _ _ _ => true
  | .cmpLt _ _ _ => true
  | .cmpLtu _ _ _ => true
  | .cmpLe _ _ _ => true
  | .cmpLeu _ _ _ => true
  | .cmpFeq _ _ _ => true
  | .cmpFlt _ _ _ => true
  | .cmpFle _ _ _ => true
  | .cmpFun _ _ _ => true
  | .cndAnd _ _ _ => true
  | .cndOr _ _ _ => true
  | .cndXor _ _ _ => true
  | .cndAndn _ _ _ => true
  | .cndSetg _ _ => true
  | .cndFromg _ _ => true
  | .cndSel _ _ _ _ => true
  | .fpuAdd _ _ _ _ => true
  | .fpuSub _ _ _ _ => true
  | .fpuMul _ _ _ _ => true
  | .fpuDiv _ _ _ _ => true
  | .fpuSqrt _ _ _ => true
  | .fpuFma _ _ _ _ => true
  | .fpuMin _ _ _ => true
  | .fpuMax _ _ _ => true
  | .fpuAbs _ _ => true
  | .fpuNeg _ _ => true
  | .fpuCvto _ _ f _ s => fpuFormat f && (s == 0#1 || f == 3#5 || f == 4#5)
  | .fpuCvfrom _ _ f _ => fpuFormat f
  | .fpuFlags _ => true
  | .bitShl _ _ _ => true
  | .bitShr _ _ _ => true
  | .bitSar _ _ _ => true
  | .bitRol _ _ _ => true
  | .bitRor _ _ _ => true
  | .bitClz _ _ => true
  | .bitCtz _ _ => true
  | .bitPopc _ _ => true
  | .bitBswap _ _ => true
  | .bitExtu _ _ _ => true
  | .bitExts _ _ _ => true
  | .bitIns _ _ _ => true
  | .br _ _ _ => true
  | .call _ _ _ => true
  | .jmpJr _ => true
  | .jmpJalr _ _ => true
  | .jmpRet => true
  | .rep _ _ _ _ => true
  | .capMov _ _ => true
  | .capNull _ => true
  | .capBase _ _ _ => true
  | .capLen _ _ _ => true
  | .capAnd _ _ _ => true
  | .capTest _ _ _ _ => true
  | .capGbase _ _ => true
  | .capGlimit _ _ => true
  | .capGmeta _ _ => true
  | .capLd _ _ _ => true
  | .capSt _ _ _ => true
  | .stepBegin _ => true
  | .stepNext _ => true
  | .stepEnd => true
  | .stepDone _ => true
  | .stepSig _ _ => true
  | .stepRcv _ => true
  | .sysRd _ _ => true
  | .sysWr _ _ => true
  | .sysTret => true
  | .sysHalt => true
  | .sysIdle => true
  | .memLdH _ _ _ f o => loadQual f o
  | .memLdHs _ _ _ f o => loadQual f o
  | .memLdW _ _ _ f o => loadQual f o
  | .memLdWs _ _ _ f o => loadQual f o
  | .memLdD _ _ _ f o => loadQual f o
  | .memLdQ d _ _ f o => loadQual f o && evenReg d
  | .memStH _ _ _ f o => storeQual f o
  | .memStW _ _ _ f o => storeQual f o
  | .memStD _ _ _ f o => storeQual f o
  | .memStQ d _ _ f o => storeQual f o && evenReg d
  | .rmemLdH _ _ _ f o => loadQual f o
  | .rmemLdHs _ _ _ f o => loadQual f o
  | .rmemLdW _ _ _ f o => loadQual f o
  | .rmemLdWs _ _ _ f o => loadQual f o
  | .rmemLdD _ _ _ f o => loadQual f o
  | .rmemLdQ d _ _ f o => loadQual f o && evenReg d
  | .rmemStH _ _ _ f o => storeQual f o
  | .rmemStW _ _ _ f o => storeQual f o
  | .rmemStD _ _ _ f o => storeQual f o
  | .rmemStQ d _ _ f o => storeQual f o && evenReg d
  | .amoAdd _ _ _ f o => amoQual f o
  | .amoMin _ _ _ f o => amoQual f o
  | .amoMax _ _ _ f o => amoQual f o
  | .amoAmax _ _ _ f o => amoQual f o
  | .amoAmaxr _ _ _ f o => amoQual f o
  | .amoFaddW _ _ _ f o => amoQual f o
  | .amoFaddH _ _ _ f o => amoQual f o
  | .amoAnd _ _ _ f o => amoQual f o
  | .amoOr _ _ _ f o => amoQual f o
  | .amoXchg _ _ _ f o => amoQual f o
  | .amoCas _ _ _ f o => amoQual f o
  | .amoAddPosted _ _ _ f o => postedQual f o
  | .amoMinPosted _ _ _ f o => postedQual f o
  | .amoMaxPosted _ _ _ f o => postedQual f o
  | .amoAmaxPosted _ _ _ f o => postedQual f o
  | .amoFaddWPosted _ _ _ f o => postedQual f o
  | .amoFaddHPosted _ _ _ f o => postedQual f o
  | .amoAndPosted _ _ _ f o => postedQual f o
  | .amoOrPosted _ _ _ f o => postedQual f o
  | .syncFenceElem => true
  | .syncFenceRegion => true
  | .syncFenceDie => true
  | .syncFenceModule => true
  | .syncFenceSystem => true
  | .syncRbar => true
  | .syncPhbar _ _ => true
  | .syncSparge _ => true
  | .strmDld _ _ => true
  | .strmBind _ _ _ _ _ _ port => decide (port.toNat ≤ 5)
  | .strmPbar _ _ _ port => decide (port.toNat ≤ 5)
  | .strmDinv _ => true
  | .engSteep _ _ => true
  | .engMtok _ _ => true
  | .engCopy _ => true
  | .engRo _ _ _ => true
  | .engSel _ _ _ => true
  | .engMon _ _ _ => true
  | .engDec _ _ _ => true
  | .rackSave _ _ => true
  | .rackLoad _ _ _ => true
  | .wait _ _ _ _ => true
  | .schedPitch _ => true
  | .schedClaim _ => true
  | .schedLevel _ => true
  | .schedPerfsel _ _ => true
  | .mgmtDrd _ _ => true
  | .mgmtDwr d _ => evenReg d
  | .mgmtSint _ => true
  | .mgmtCrypto _ => true
  | .firing e => isElem e
  | .routerForward e link ch => isElem e && decide (link < 5) && decide (ch < 32)
  | .mtRouterForward e link ch => isElem e && decide (link < 5) && decide (ch < 32)
  | .tokenKindFault e link ch => isElem e && decide (link < 5) && decide (ch < 32)
  | .reconfig e link ch => isElem e && decide (link < 5) && decide (ch < 32)
  | .configFetch e => isElem e
  | .resume d => isDist d
  | .doneToken d link ch => isDist d && decide (link < 5) && decide (ch < 32)
  | .sealToken d => isDist d
  | .bindTimeout e link ch => isElem e && decide (link < 5) && decide (ch < 32)
  | .operandStage e => isElem e
  | .admitStray e => isElem e
  | .headVisit e => isElem e
  | .rotationSave e => isElem e
  | .rotationLoad e => isElem e
  | .mtReadStream e port => isElem e && decide (port < 6)
  | .mtWriteStream e port => isElem e && decide (port < 6)
  | .tileRequest e link ch => isTile e && decide (link < 5) && decide (ch < 32)
  | .requestApply e bank => isTile e && decide (bank < 8)
  | .waiterServe e => isTile e
  | .feTimeout e port => isTile e && decide (port < 6)
  | .pageRequest d link ch => isDist d && decide (link < 5) && decide (ch < 32)
  | .portAccess d _ => isDist d
  | .portStreamElement d => isDist d
  | .cutEdgeTransfer d link ch => isDist d && decide (link < 5) && decide (ch < 32)
  | .streamCommandStart e port => isElem e && decide (port < 6)
  | .mnMul e => isElem e
  | .mnMulacc e => isElem e
  | .mnSwap e => isElem e
  | .mnRead e => isElem e
  | .mnClear e => isElem e
  | .mnDrain e => isElem e
  | .mnSetzp e => isElem e
  | .shadowFillToken e => isElem e
  | .steep e => isElem e
  | .roInput e => isElem e
  | .roOutput e => isElem e
  | .roShape e => isElem e
  | .roFlush e => isElem e
  | .selKeyToken e _ => isElem e
  | .selKth e => isElem e
  | .selQuant e => isElem e
  | .selWquant e => isElem e
  | .selClear e => isElem e
  | .monArm e => isElem e
  | .monDisarm e => isElem e
  | .monSetref e => isElem e
  | .monSetabs e => isElem e
  | .monSetrel e => isElem e
  | .monClear e => isElem e
  | .monRead e => isElem e
  | .decRun e => isElem e
  | .decBlock e => isElem e
  | .copyRun d => isDist d
  | .seqReply c src ch => isCore c && decide (src < 6) && decide (ch < 32)
  | .trapEntry c => isCore c
  | .rbarComplete _ => true
  | .phbarComplete _ _ => true
  | .spargeRelease _ => true
  | .cfgBegin d _ => isDist d
  | .cfgAddr d _ => isDist d
  | .cfgField d _ => isDist d
  | .cfgExtend d _ => isDist d
  | .cfgSpargeawait d _ => isDist d
  | .cfgCommit d _ => isDist d
  | .powerInterval => true
  | .sensorRefresh shown _ => shown.all fun (d, _) => isDist d
  | .boostBoundary _ _ _ _ => true
  | .wsRefreshPeriod => true
  | .boardReport _ _ _ => true
  | .coolantStale => true
  | .alertstWrite _ => true
  | .alertenWrite _ => true
  | .goready _ => true
  | .limtabWrite key _ => decide (key < 24)
  | .retire _ => true
  | .districtRetired d => isDist d
  | .coldReset => true
  | .cryptoHash => true
  | .cryptoVerify => true
  | .cryptoSign => true
  | .cryptoExtend => true
  | .cryptoIdekey => true
  | .attestreq _ => true
  | .loadcmd _ => true
  | .loadComplete => true
  | .unload _ => true
  | .trigger bank _ _ => decide (bank < 64)
  | .scheduleTrigger => true
  | .launch n => decide (n < 4096)
  | .dependenceValidSet n _ => decide (n < 4096)
  | .dependenceValidClear n _ => decide (n < 4096)
  | .batchCommit n _ => decide (n < 1024)
  | .bankcfgWrite bank _ => decide (bank < 64)
  | .partwsWrite p _ => decide (p < 64)
  | .priorityTokenRefill => true
  | .caskSave _ => true
  | .caskRestore _ => true
  | .gangHalt => true
  | .gangInstant => true
  | .gangstatWrite _ => true
  | .bindcmd _ => true
  | .doorbell _ => true
  | .dbstWrite _ => true
  | .tlbinv _ => true
  | .tlbinvComplete => true
  | .pagerResolve _ => true
  | .pgresolve _ => true
  | .fppush _ => true
  | .reclaimRetry _ => true
  | .pageExhausted _ => true
  | .migrationStart _ => true
  | .migrationCopyDone => true
  | .huskSeal soft => soft.all isElem
  | .replyLateDrop d => isDist d
  | .hostAccess _ size _ => decide (size ≤ 64)
  | .perfsel _ => true
  | .perfselApply => true
  | .ctrq _ => true
  | .ctrqLatch => true
  | .cpcap _ => true
  | .tracePcSample => true
  | .replthWrite _ => true
  | .registerWrite bar _ v => decide ((bar = 0 ∨ bar = 2 ∨ bar = 4) ∧ 0 < v.length ∧ v.length ≤ 64)
  | .illegalWord _ => true
  | .fetchRange => true
  | .sysfault => true
  | .supplyRampEnd _ => true

end Sys2Proof
end

