-- ==== Sys2Proof/Decode.lean ====
section
/-! DEFINITION. The decoder of sequencer words, total on any bytes, the encoder, and the decoders of configuration
words and matrix control tokens (06 R120-R124, R131-R135, R139). -/

namespace Sys2Proof

/-- Bits [hi:lo] of a word. -/
abbrev fld (w : W32) (hi lo : Nat) : BitVec (hi - lo + 1) := w.extractLsb hi lo

/-- Why bytes are no instruction. -/
inductive DecodeError where
  /-- the major opcode is not assigned (06 R124 check 1) -/
  | unassignedOpcode (op : BitVec 7)
  /-- func not assigned, a zero field not zero, or a field value not allowed (06 R124 check 3) -/
  | badWord (w : W32)
  /-- the bytes end before the instruction does (06 R120: FETCH_RANGE at the store's end) -/
  | short
  deriving DecidableEq, Repr, Inhabited

/-- Words of major opcode 0x01 (alu, 06 Table K-44): the func value, then the fields that must be as fixed. -/
def decodeAlu (w : W32) : Option Instr :=
  match (fld w 9 0).toNat with
  | 0x1 => some (.aluAdd (fld w 24 20) (fld w 19 15) (fld w 14 10))
  | 0x2 => some (.aluSub (fld w 24 20) (fld w 19 15) (fld w 14 10))
  | 0x3 => some (.aluMul (fld w 24 20) (fld w 19 15) (fld w 14 10))
  | 0x4 => some (.aluMulhs (fld w 24 20) (fld w 19 15) (fld w 14 10))
  | 0x5 => some (.aluMulhu (fld w 24 20) (fld w 19 15) (fld w 14 10))
  | 0x6 => some (.aluDivs (fld w 24 20) (fld w 19 15) (fld w 14 10))
  | 0x7 => some (.aluDivu (fld w 24 20) (fld w 19 15) (fld w 14 10))
  | 0x8 => some (.aluRems (fld w 24 20) (fld w 19 15) (fld w 14 10))
  | 0x9 => some (.aluRemu (fld w 24 20) (fld w 19 15) (fld w 14 10))
  | 0x10 => some (.aluAnd (fld w 24 20) (fld w 19 15) (fld w 14 10))
  | 0x11 => some (.aluOr (fld w 24 20) (fld w 19 15) (fld w 14 10))
  | 0x12 => some (.aluXor (fld w 24 20) (fld w 19 15) (fld w 14 10))
  | 0x13 => some (.aluAndn (fld w 24 20) (fld w 19 15) (fld w 14 10))
  | 0x20 => some (.aluMin (fld w 24 20) (fld w 19 15) (fld w 14 10))
  | 0x21 => some (.aluMax (fld w 24 20) (fld w 19 15) (fld w 14 10))
  | 0x22 => some (.aluMinu (fld w 24 20) (fld w 19 15) (fld w 14 10))
  | 0x23 => some (.aluMaxu (fld w 24 20) (fld w 19 15) (fld w 14 10))
  | _ => none

/-- Words of major opcode 0x02 (cmp, 06 Table K-44): the func value, then the fields that must be as fixed. -/
def decodeCmp (w : W32) : Option Instr :=
  match (fld w 9 0).toNat with
  | 0x1 => if fld w 24 23 == 0x0#2 then some (.cmpEq (fld w 22 20) (fld w 19 15) (fld w 14 10)) else none
  | 0x2 => if fld w 24 23 == 0x0#2 then some (.cmpNe (fld w 22 20) (fld w 19 15) (fld w 14 10)) else none
  | 0x3 => if fld w 24 23 == 0x0#2 then some (.cmpLt (fld w 22 20) (fld w 19 15) (fld w 14 10)) else none
  | 0x4 => if fld w 24 23 == 0x0#2 then some (.cmpLtu (fld w 22 20) (fld w 19 15) (fld w 14 10)) else none
  | 0x5 => if fld w 24 23 == 0x0#2 then some (.cmpLe (fld w 22 20) (fld w 19 15) (fld w 14 10)) else none
  | 0x6 => if fld w 24 23 == 0x0#2 then some (.cmpLeu (fld w 22 20) (fld w 19 15) (fld w 14 10)) else none
  | 0x10 => if fld w 24 23 == 0x0#2 then some (.cmpFeq (fld w 22 20) (fld w 19 15) (fld w 14 10)) else none
  | 0x11 => if fld w 24 23 == 0x0#2 then some (.cmpFlt (fld w 22 20) (fld w 19 15) (fld w 14 10)) else none
  | 0x12 => if fld w 24 23 == 0x0#2 then some (.cmpFle (fld w 22 20) (fld w 19 15) (fld w 14 10)) else none
  | 0x13 => if fld w 24 23 == 0x0#2 then some (.cmpFun (fld w 22 20) (fld w 19 15) (fld w 14 10)) else none
  | _ => none

/-- Words of major opcode 0x05 (cnd, 06 Table K-44): the func value, then the fields that must be as fixed. -/
def decodeCnd (w : W32) : Option Instr :=
  match (fld w 9 0).toNat with
  | 0x1 => if fld w 24 23 == 0x0#2 && fld w 19 18 == 0x0#2 && fld w 14 13 == 0x0#2 then some (.cndAnd (fld w 22 20) (fld w 17 15) (fld w 12 10)) else none
  | 0x2 => if fld w 24 23 == 0x0#2 && fld w 19 18 == 0x0#2 && fld w 14 13 == 0x0#2 then some (.cndOr (fld w 22 20) (fld w 17 15) (fld w 12 10)) else none
  | 0x3 => if fld w 24 23 == 0x0#2 && fld w 19 18 == 0x0#2 && fld w 14 13 == 0x0#2 then some (.cndXor (fld w 22 20) (fld w 17 15) (fld w 12 10)) else none
  | 0x4 => if fld w 24 23 == 0x0#2 && fld w 19 18 == 0x0#2 && fld w 14 13 == 0x0#2 then some (.cndAndn (fld w 22 20) (fld w 17 15) (fld w 12 10)) else none
  | 0x8 => if fld w 19 18 == 0x0#2 && fld w 14 10 == 0x0#5 then some (.cndSetg (fld w 24 20) (fld w 17 15)) else none
  | 0x9 => if fld w 24 23 == 0x0#2 && fld w 14 10 == 0x0#5 then some (.cndFromg (fld w 22 20) (fld w 19 15)) else none
  | _ => if fld w 9 3 == 0x2#7 then some (.cndSel (fld w 24 20) (fld w 19 15) (fld w 14 10) (fld w 2 0)) else none

/-- Words of major opcode 0x03 (fpu, 06 Table K-44): the func value, then the fields that must be as fixed. -/
def decodeFpu (w : W32) : Option Instr :=
  match (fld w 6 0).toNat with
  | 0x1 => if fld w 7 7 == 0x0#1 then some (.fpuAdd (fld w 24 20) (fld w 19 15) (fld w 14 10) (fld w 9 8)) else none
  | 0x2 => if fld w 7 7 == 0x0#1 then some (.fpuSub (fld w 24 20) (fld w 19 15) (fld w 14 10) (fld w 9 8)) else none
  | 0x3 => if fld w 7 7 == 0x0#1 then some (.fpuMul (fld w 24 20) (fld w 19 15) (fld w 14 10) (fld w 9 8)) else none
  | 0x4 => if fld w 7 7 == 0x0#1 then some (.fpuDiv (fld w 24 20) (fld w 19 15) (fld w 14 10) (fld w 9 8)) else none
  | 0x5 => if fld w 14 10 == 0x0#5 && fld w 7 7 == 0x0#1 then some (.fpuSqrt (fld w 24 20) (fld w 19 15) (fld w 9 8)) else none
  | 0x6 => if fld w 7 7 == 0x0#1 then some (.fpuFma (fld w 24 20) (fld w 19 15) (fld w 14 10) (fld w 9 8)) else none
  | 0x10 => if fld w 9 7 == 0x0#3 then some (.fpuMin (fld w 24 20) (fld w 19 15) (fld w 14 10)) else none
  | 0x11 => if fld w 9 7 == 0x0#3 then some (.fpuMax (fld w 24 20) (fld w 19 15) (fld w 14 10)) else none
  | 0x12 => if fld w 14 7 == 0x0#8 then some (.fpuAbs (fld w 24 20) (fld w 19 15)) else none
  | 0x13 => if fld w 14 7 == 0x0#8 then some (.fpuNeg (fld w 24 20) (fld w 19 15)) else none
  | 0x20 => some (.fpuCvto (fld w 24 20) (fld w 19 15) (fld w 14 10) (fld w 9 8) (fld w 7 7))
  | 0x21 => if fld w 7 7 == 0x0#1 then some (.fpuCvfrom (fld w 24 20) (fld w 19 15) (fld w 14 10) (fld w 9 8)) else none
  | 0x30 => if fld w 19 7 == 0x0#13 then some (.fpuFlags (fld w 24 20)) else none
  | _ => none

/-- Words of major opcode 0x04 (bit, 06 Table K-44): the func value, then the fields that must be as fixed. -/
def decodeBit (w : W32) : Option Instr :=
  match (fld w 9 0).toNat with
  | 0x1 => some (.bitShl (fld w 24 20) (fld w 19 15) (fld w 14 10))
  | 0x2 => some (.bitShr (fld w 24 20) (fld w 19 15) (fld w 14 10))
  | 0x3 => some (.bitSar (fld w 24 20) (fld w 19 15) (fld w 14 10))
  | 0x4 => some (.bitRol (fld w 24 20) (fld w 19 15) (fld w 14 10))
  | 0x5 => some (.bitRor (fld w 24 20) (fld w 19 15) (fld w 14 10))
  | 0x10 => if fld w 14 10 == 0x0#5 then some (.bitClz (fld w 24 20) (fld w 19 15)) else none
  | 0x11 => if fld w 14 10 == 0x0#5 then some (.bitCtz (fld w 24 20) (fld w 19 15)) else none
  | 0x12 => if fld w 14 10 == 0x0#5 then some (.bitPopc (fld w 24 20) (fld w 19 15)) else none
  | 0x13 => if fld w 14 10 == 0x0#5 then some (.bitBswap (fld w 24 20) (fld w 19 15)) else none
  | 0x20 => some (.bitExtu (fld w 24 20) (fld w 19 15) (fld w 14 10))
  | 0x21 => some (.bitExts (fld w 24 20) (fld w 19 15) (fld w 14 10))
  | 0x22 => some (.bitIns (fld w 24 20) (fld w 19 15) (fld w 14 10))
  | _ => none

/-- Words of major opcode 0x12 (jmp, 06 Table K-44): the func value, then the fields that must be as fixed. -/
def decodeJmp (w : W32) : Option Instr :=
  match (fld w 9 0).toNat with
  | 0x1 => if fld w 24 20 == 0x0#5 && fld w 14 10 == 0x0#5 then some (.jmpJr (fld w 19 15)) else none
  | 0x2 => if fld w 14 10 == 0x0#5 then some (.jmpJalr (fld w 24 20) (fld w 19 15)) else none
  | 0x3 => if fld w 24 10 == 0x0#15 then some (.jmpRet) else none
  | _ => none

/-- Words of major opcode 0x20 (cap, 06 Table K-44): the func value, then the fields that must be as fixed. -/
def decodeCap (w : W32) : Option Instr :=
  match (fld w 3 0).toNat with
  | 0x1 => if fld w 16 4 == 0x0#13 then some (.capMov (fld w 24 21) (fld w 20 17)) else none
  | 0x2 => if fld w 20 4 == 0x0#17 then some (.capNull (fld w 24 21)) else none
  | 0x3 => if fld w 11 4 == 0x0#8 then some (.capBase (fld w 24 21) (fld w 20 17) (fld w 16 12)) else none
  | 0x4 => if fld w 11 4 == 0x0#8 then some (.capLen (fld w 24 21) (fld w 20 17) (fld w 16 12)) else none
  | 0x5 => if fld w 16 12 == 0x0#5 then some (.capAnd (fld w 24 21) (fld w 20 17) (fld w 11 4)) else none
  | 0x6 => if fld w 24 24 == 0x0#1 then some (.capTest (fld w 23 21) (fld w 20 17) (fld w 16 12) (fld w 11 4)) else none
  | 0x7 => if fld w 24 21 == 0x0#4 && fld w 11 4 == 0x0#8 then some (.capGbase (fld w 20 17) (fld w 16 12)) else none
  | 0x8 => if fld w 24 21 == 0x0#4 && fld w 11 4 == 0x0#8 then some (.capGlimit (fld w 20 17) (fld w 16 12)) else none
  | 0x9 => if fld w 24 21 == 0x0#4 && fld w 11 4 == 0x0#8 then some (.capGmeta (fld w 20 17) (fld w 16 12)) else none
  | 0xA => if fld w 11 4 == 0x0#8 then some (.capLd (fld w 24 21) (fld w 20 17) (fld w 16 12)) else none
  | 0xB => if fld w 11 4 == 0x0#8 then some (.capSt (fld w 24 21) (fld w 20 17) (fld w 16 12)) else none
  | _ => none

/-- Words of major opcode 0x30 (step, 06 Table K-44): the func value, then the fields that must be as fixed. -/
def decodeStep (w : W32) : Option Instr :=
  match (fld w 9 0).toNat with
  | 0x1 => if fld w 24 20 == 0x0#5 && fld w 14 10 == 0x0#5 then some (.stepBegin (fld w 19 15)) else none
  | 0x2 => if fld w 24 23 == 0x0#2 && fld w 19 10 == 0x0#10 then some (.stepNext (fld w 22 20)) else none
  | 0x3 => if fld w 24 10 == 0x0#15 then some (.stepEnd) else none
  | 0x4 => if fld w 24 20 == 0x0#5 && fld w 14 10 == 0x0#5 then some (.stepDone (fld w 19 15)) else none
  | 0x10 => if fld w 24 20 == 0x0#5 then some (.stepSig (fld w 19 15) (fld w 14 10)) else none
  | 0x11 => if fld w 19 10 == 0x0#10 then some (.stepRcv (fld w 24 20)) else none
  | _ => none

/-- Words of major opcode 0x3C (sys, 06 Table K-44): the func value, then the fields that must be as fixed. -/
def decodeSys (w : W32) : Option Instr :=
  match (fld w 7 0).toNat with
  | 0x1 => some (.sysRd (fld w 24 20) (fld w 19 8))
  | 0x2 => some (.sysWr (fld w 24 20) (fld w 19 8))
  | 0x10 => if fld w 24 8 == 0x0#17 then some (.sysTret) else none
  | 0x20 => if fld w 24 8 == 0x0#17 then some (.sysHalt) else none
  | 0x21 => if fld w 24 8 == 0x0#17 then some (.sysIdle) else none
  | _ => none

/-- Words of major opcode 0x18 (mem, 06 Table K-44): the func value, then the fields that must be as fixed. -/
def decodeMem (w : W32) : Option Instr :=
  match (fld w 10 6).toNat with
  | 0x1 => some (.memLdH (fld w 24 20) (fld w 19 15) (fld w 14 11) (fld w 5 4) (fld w 3 0))
  | 0x2 => some (.memLdHs (fld w 24 20) (fld w 19 15) (fld w 14 11) (fld w 5 4) (fld w 3 0))
  | 0x3 => some (.memLdW (fld w 24 20) (fld w 19 15) (fld w 14 11) (fld w 5 4) (fld w 3 0))
  | 0x4 => some (.memLdWs (fld w 24 20) (fld w 19 15) (fld w 14 11) (fld w 5 4) (fld w 3 0))
  | 0x5 => some (.memLdD (fld w 24 20) (fld w 19 15) (fld w 14 11) (fld w 5 4) (fld w 3 0))
  | 0x6 => some (.memLdQ (fld w 24 20) (fld w 19 15) (fld w 14 11) (fld w 5 4) (fld w 3 0))
  | 0x9 => some (.memStH (fld w 24 20) (fld w 19 15) (fld w 14 11) (fld w 5 4) (fld w 3 0))
  | 0xA => some (.memStW (fld w 24 20) (fld w 19 15) (fld w 14 11) (fld w 5 4) (fld w 3 0))
  | 0xB => some (.memStD (fld w 24 20) (fld w 19 15) (fld w 14 11) (fld w 5 4) (fld w 3 0))
  | 0xC => some (.memStQ (fld w 24 20) (fld w 19 15) (fld w 14 11) (fld w 5 4) (fld w 3 0))
  | _ => none

/-- Words of major opcode 0x19 (rmem, 06 Table K-44): the func value, then the fields that must be as fixed. -/
def decodeRmem (w : W32) : Option Instr :=
  match (fld w 10 6).toNat with
  | 0x1 => some (.rmemLdH (fld w 24 20) (fld w 19 15) (fld w 14 11) (fld w 5 4) (fld w 3 0))
  | 0x2 => some (.rmemLdHs (fld w 24 20) (fld w 19 15) (fld w 14 11) (fld w 5 4) (fld w 3 0))
  | 0x3 => some (.rmemLdW (fld w 24 20) (fld w 19 15) (fld w 14 11) (fld w 5 4) (fld w 3 0))
  | 0x4 => some (.rmemLdWs (fld w 24 20) (fld w 19 15) (fld w 14 11) (fld w 5 4) (fld w 3 0))
  | 0x5 => some (.rmemLdD (fld w 24 20) (fld w 19 15) (fld w 14 11) (fld w 5 4) (fld w 3 0))
  | 0x6 => some (.rmemLdQ (fld w 24 20) (fld w 19 15) (fld w 14 11) (fld w 5 4) (fld w 3 0))
  | 0x9 => some (.rmemStH (fld w 24 20) (fld w 19 15) (fld w 14 11) (fld w 5 4) (fld w 3 0))
  | 0xA => some (.rmemStW (fld w 24 20) (fld w 19 15) (fld w 14 11) (fld w 5 4) (fld w 3 0))
  | 0xB => some (.rmemStD (fld w 24 20) (fld w 19 15) (fld w 14 11) (fld w 5 4) (fld w 3 0))
  | 0xC => some (.rmemStQ (fld w 24 20) (fld w 19 15) (fld w 14 11) (fld w 5 4) (fld w 3 0))
  | _ => none

/-- Words of major opcode 0x1A (amo, 06 Table K-44): the func value, then the fields that must be as fixed. -/
def decodeAmo (w : W32) : Option Instr :=
  match (fld w 10 6).toNat with
  | 0x2 => some (.amoAdd (fld w 24 20) (fld w 19 15) (fld w 14 11) (fld w 5 4) (fld w 3 0))
  | 0x3 => some (.amoMin (fld w 24 20) (fld w 19 15) (fld w 14 11) (fld w 5 4) (fld w 3 0))
  | 0x4 => some (.amoMax (fld w 24 20) (fld w 19 15) (fld w 14 11) (fld w 5 4) (fld w 3 0))
  | 0x5 => some (.amoAmax (fld w 24 20) (fld w 19 15) (fld w 14 11) (fld w 5 4) (fld w 3 0))
  | 0x6 => some (.amoAmaxr (fld w 24 20) (fld w 19 15) (fld w 14 11) (fld w 5 4) (fld w 3 0))
  | 0x7 => some (.amoFaddW (fld w 24 20) (fld w 19 15) (fld w 14 11) (fld w 5 4) (fld w 3 0))
  | 0xC => some (.amoFaddH (fld w 24 20) (fld w 19 15) (fld w 14 11) (fld w 5 4) (fld w 3 0))
  | 0x8 => some (.amoAnd (fld w 24 20) (fld w 19 15) (fld w 14 11) (fld w 5 4) (fld w 3 0))
  | 0x9 => some (.amoOr (fld w 24 20) (fld w 19 15) (fld w 14 11) (fld w 5 4) (fld w 3 0))
  | 0xA => some (.amoXchg (fld w 24 20) (fld w 19 15) (fld w 14 11) (fld w 5 4) (fld w 3 0))
  | 0xB => some (.amoCas (fld w 24 20) (fld w 19 15) (fld w 14 11) (fld w 5 4) (fld w 3 0))
  | 0x12 => some (.amoAddPosted (fld w 24 20) (fld w 19 15) (fld w 14 11) (fld w 5 4) (fld w 3 0))
  | 0x13 => some (.amoMinPosted (fld w 24 20) (fld w 19 15) (fld w 14 11) (fld w 5 4) (fld w 3 0))
  | 0x14 => some (.amoMaxPosted (fld w 24 20) (fld w 19 15) (fld w 14 11) (fld w 5 4) (fld w 3 0))
  | 0x15 => some (.amoAmaxPosted (fld w 24 20) (fld w 19 15) (fld w 14 11) (fld w 5 4) (fld w 3 0))
  | 0x17 => some (.amoFaddWPosted (fld w 24 20) (fld w 19 15) (fld w 14 11) (fld w 5 4) (fld w 3 0))
  | 0x1C => some (.amoFaddHPosted (fld w 24 20) (fld w 19 15) (fld w 14 11) (fld w 5 4) (fld w 3 0))
  | 0x18 => some (.amoAndPosted (fld w 24 20) (fld w 19 15) (fld w 14 11) (fld w 5 4) (fld w 3 0))
  | 0x19 => some (.amoOrPosted (fld w 24 20) (fld w 19 15) (fld w 14 11) (fld w 5 4) (fld w 3 0))
  | _ => none

/-- Words of major opcode 0x2D (sync, 06 Table K-44): the func value, then the fields that must be as fixed. -/
def decodeSync (w : W32) : Option Instr :=
  match (fld w 9 0).toNat with
  | 0x1 => if fld w 24 10 == 0x0#15 then some (.syncFenceElem) else none
  | 0x2 => if fld w 24 10 == 0x0#15 then some (.syncFenceRegion) else none
  | 0x3 => if fld w 24 10 == 0x0#15 then some (.syncFenceDie) else none
  | 0x4 => if fld w 24 10 == 0x0#15 then some (.syncFenceModule) else none
  | 0x5 => if fld w 24 10 == 0x0#15 then some (.syncFenceSystem) else none
  | 0x10 => if fld w 24 10 == 0x0#15 then some (.syncRbar) else none
  | 0x11 => if fld w 24 20 == 0x0#5 then some (.syncPhbar (fld w 19 15) (fld w 14 10)) else none
  | 0x20 => if fld w 24 20 == 0x0#5 && fld w 14 10 == 0x0#5 then some (.syncSparge (fld w 19 15)) else none
  | _ => none

/-- Words of major opcode 0x29 (eng, 06 Table K-44): the func value, then the fields that must be as fixed. -/
def decodeEng (w : W32) : Option Instr :=
  match (fld w 9 0).toNat with
  | 0x1 => if fld w 24 23 == 0x0#2 && fld w 14 10 == 0x0#5 then some (.engSteep (fld w 22 20) (fld w 19 15)) else none
  | 0x2 => if fld w 24 23 == 0x0#2 && fld w 14 10 == 0x0#5 then some (.engMtok (fld w 22 20) (fld w 19 15)) else none
  | 0x3 => if fld w 24 20 == 0x12#5 && fld w 14 10 == 0x0#5 then some (.engCopy (fld w 19 15)) else none
  | 0x10 => if fld w 24 22 == 0x2#3 then some (.engRo (fld w 21 20) (fld w 19 15) (fld w 14 10)) else none
  | 0x11 => if fld w 24 21 == 0x6#4 then some (.engSel (fld w 20 20) (fld w 19 15) (fld w 14 10)) else none
  | 0x12 => if fld w 24 21 == 0x7#4 then some (.engMon (fld w 20 20) (fld w 19 15) (fld w 14 10)) else none
  | 0x13 => if fld w 24 21 == 0x8#4 then some (.engDec (fld w 20 20) (fld w 19 15) (fld w 14 10)) else none
  | _ => none

/-- Words of major opcode 0x2A (rack, 06 Table K-44): the func value, then the fields that must be as fixed. -/
def decodeRack (w : W32) : Option Instr :=
  match (fld w 9 0).toNat with
  | 0x1 => if fld w 24 20 == 0x0#5 then some (.rackSave (fld w 19 15) (fld w 14 10)) else none
  | 0x2 => some (.rackLoad (fld w 24 20) (fld w 19 15) (fld w 14 10))
  | _ => none

/-- Words of major opcode 0x2E (sched, 06 Table K-44): the func value, then the fields that must be as fixed. -/
def decodeSched (w : W32) : Option Instr :=
  match (fld w 9 0).toNat with
  | 0x1 => if fld w 24 20 == 0x0#5 && fld w 14 10 == 0x0#5 then some (.schedPitch (fld w 19 15)) else none
  | 0x2 => if fld w 24 20 == 0x0#5 && fld w 14 10 == 0x0#5 then some (.schedClaim (fld w 19 15)) else none
  | 0x3 => if fld w 19 10 == 0x0#10 then some (.schedLevel (fld w 24 20)) else none
  | 0x4 => if fld w 24 20 == 0x0#5 then some (.schedPerfsel (fld w 19 15) (fld w 14 10)) else none
  | _ => none

/-- Words of major opcode 0x3D (mgmt, 06 Table K-44): the func value, then the fields that must be as fixed. -/
def decodeMgmt (w : W32) : Option Instr :=
  match (fld w 7 0).toNat with
  | 0x1 => if fld w 19 16 == 0x0#4 then some (.mgmtDrd (fld w 24 20) (fld w 15 8)) else none
  | 0x2 => if fld w 19 16 == 0x0#4 then some (.mgmtDwr (fld w 24 20) (fld w 15 8)) else none
  | 0x3 => if fld w 19 8 == 0x0#12 then some (.mgmtSint (fld w 24 20)) else none
  | 0x10 => if fld w 19 8 == 0x0#12 then some (.mgmtCrypto (fld w 24 20)) else none
  | _ => none

/-- A one-word instruction by its major opcode (06 R123); the two-word formats apart. -/
def decodeOne (w : W32) : Option Instr :=
  match (fld w 31 25).toNat with
  | 0x01 => decodeAlu w
  | 0x02 => decodeCmp w
  | 0x03 => decodeFpu w
  | 0x04 => decodeBit w
  | 0x05 => decodeCnd w
  | 0x08 => some (.addi (fld w 24 20) (fld w 19 15) (fld w 14 0))
  | 0x09 => some (.andi (fld w 24 20) (fld w 19 15) (fld w 14 0))
  | 0x0A => some (.ori (fld w 24 20) (fld w 19 15) (fld w 14 0))
  | 0x0B => some (.xori (fld w 24 20) (fld w 19 15) (fld w 14 0))
  | 0x0C => if fld w 14 6 == 0x0#9 then some (.shli (fld w 24 20) (fld w 19 15) (fld w 5 0)) else none
  | 0x0D => if fld w 14 6 == 0x0#9 then some (.shri (fld w 24 20) (fld w 19 15) (fld w 5 0)) else none
  | 0x0E => if fld w 14 6 == 0x0#9 then some (.sari (fld w 24 20) (fld w 19 15) (fld w 5 0)) else none
  | 0x10 => some (.br (fld w 24 22) (fld w 21 21) (fld w 20 0))
  | 0x11 => some (.call (fld w 24 22) (fld w 21 21) (fld w 20 0))
  | 0x12 => decodeJmp w
  | 0x18 => decodeMem w
  | 0x19 => decodeRmem w
  | 0x1A => decodeAmo w
  | 0x20 => decodeCap w
  | 0x29 => decodeEng w
  | 0x2A => decodeRack w
  | 0x2C => if fld w 0 0 == 0x0#1 then some (.wait (fld w 24 19) (fld w 18 13) (fld w 12 7) (fld w 6 1)) else none
  | 0x2D => decodeSync w
  | 0x2E => decodeSched w
  | 0x30 => decodeStep w
  | 0x38 => if fld w 0 0 == 0x0#1 then some (.rep (fld w 24 19) (fld w 18 13) (fld w 12 7) (fld w 6 1)) else none
  | 0x3C => decodeSys w
  | 0x3D => decodeMgmt w
  | _ => none

/-- A two-word instruction of format L or S (06 Table K-43). -/
def decodeTwo (w v : W32) : Option Instr :=
  match (fld w 31 25).toNat with
  | 0x06 =>
    if fld w 14 0 == 0#15 then
      match (fld w 19 15).toNat with
      | 0x1 => some (.liSx (fld w 24 20) v)
      | 0x2 => some (.liZx (fld w 24 20) v)
      | 0x3 => some (.liHi (fld w 24 20) v)
      | _ => none
    else none
  | 0x28 =>
    if fld w 5 0 == 0#6 && fld v 9 0 == 0#10 then
      match (fld w 10 6).toNat with
      | 0x1 => if fld w 20 16 == 0#5 && v == 0#32 then some (.strmDld (fld w 24 21) (fld w 15 11)) else none
      | 0x2 => some (.strmBind (fld w 24 21) (fld w 20 16) (fld w 15 11) (fld v 31 28) (fld v 27 21) (fld v 20 13) (fld v 12 10))
      | 0x3 => if fld w 24 11 == 0#14 then some (.strmPbar (fld v 31 28) (fld v 27 21) (fld v 20 13) (fld v 12 10)) else none
      | 0x4 => if fld w 20 11 == 0#10 && v == 0#32 then some (.strmDinv (fld w 24 21)) else none
      | _ => none
    else none
  | _ => none

/-- Whether a major opcode is of a two-word format. -/
def isTwoWord (op : BitVec 7) : Bool := op == 0x06#7 || op == 0x28#7

/-- Whether a major opcode is assigned (06 Table K-44). -/
def isAssigned (op : BitVec 7) : Bool :=
  [0x01#7, 0x02#7, 0x03#7, 0x04#7, 0x05#7, 0x06#7, 0x08#7, 0x09#7, 0x0A#7, 0x0B#7, 0x0C#7, 0x0D#7, 0x0E#7, 0x10#7,
   0x11#7, 0x12#7, 0x18#7, 0x19#7, 0x1A#7, 0x20#7, 0x28#7, 0x29#7, 0x2A#7, 0x2C#7, 0x2D#7, 0x2E#7, 0x30#7, 0x38#7,
   0x3C#7, 0x3D#7].contains op

/-- A little-endian 32-bit word from four bytes (00 R4). -/
def word4 (a b c d : Byte) : W32 := d ++ c ++ b ++ a

/-- The instruction that the words hold, if they hold one: the decoding of 06 R121-R123, then the value limits. -/
def decodeWords (w : W32) (v : Option W32) : Except DecodeError Instr :=
  let op := fld w 31 25
  if !isAssigned op then .error (.unassignedOpcode op)
  else if isTwoWord op then
    match v with
    | none => .error .short
    | some v =>
      match decodeTwo w v with
      | some i => if i.wf then .ok i else .error (.badWord w)
      | none => .error (.badWord w)
  else
    match decodeOne w with
    | some i => if i.wf then .ok i else .error (.badWord w)
    | none => .error (.badWord w)

/-- How many words the instruction takes. -/
def Instr.words : Instr → Nat
  | .liSx _ _ | .liZx _ _ | .liHi _ _ => 2
  | .strmDld _ _ | .strmBind _ _ _ _ _ _ _ | .strmPbar _ _ _ _ | .strmDinv _ => 2
  | _ => 1

/-- The instruction at the front of the bytes, and the bytes behind it. -/
def decode : List Byte → Except DecodeError (Instr × List Byte)
  | a :: b :: c :: d :: rest =>
    let w := word4 a b c d
    match rest with
    | e :: f :: g :: h :: rest' =>
      match decodeWords w (some (word4 e f g h)) with
      | .ok i => .ok (i, if isTwoWord (fld w 31 25) then rest' else rest)
      | .error r => .error r
    | _ =>
      match decodeWords w none with
      | .ok i => .ok (i, rest)
      | .error r => .error r
  | _ => .error .short

/-- The words of a sequencer instruction, from the formats of 06 Table K-43; none for a device step. -/
def encode : Instr → List W32
  | .aluAdd d a b => [0x1#7 ++ d ++ a ++ b ++ 0x1#10]
  | .aluSub d a b => [0x1#7 ++ d ++ a ++ b ++ 0x2#10]
  | .aluMul d a b => [0x1#7 ++ d ++ a ++ b ++ 0x3#10]
  | .aluMulhs d a b => [0x1#7 ++ d ++ a ++ b ++ 0x4#10]
  | .aluMulhu d a b => [0x1#7 ++ d ++ a ++ b ++ 0x5#10]
  | .aluDivs d a b => [0x1#7 ++ d ++ a ++ b ++ 0x6#10]
  | .aluDivu d a b => [0x1#7 ++ d ++ a ++ b ++ 0x7#10]
  | .aluRems d a b => [0x1#7 ++ d ++ a ++ b ++ 0x8#10]
  | .aluRemu d a b => [0x1#7 ++ d ++ a ++ b ++ 0x9#10]
  | .aluAnd d a b => [0x1#7 ++ d ++ a ++ b ++ 0x10#10]
  | .aluOr d a b => [0x1#7 ++ d ++ a ++ b ++ 0x11#10]
  | .aluXor d a b => [0x1#7 ++ d ++ a ++ b ++ 0x12#10]
  | .aluAndn d a b => [0x1#7 ++ d ++ a ++ b ++ 0x13#10]
  | .aluMin d a b => [0x1#7 ++ d ++ a ++ b ++ 0x20#10]
  | .aluMax d a b => [0x1#7 ++ d ++ a ++ b ++ 0x21#10]
  | .aluMinu d a b => [0x1#7 ++ d ++ a ++ b ++ 0x22#10]
  | .aluMaxu d a b => [0x1#7 ++ d ++ a ++ b ++ 0x23#10]
  | .addi d a i => [0x8#7 ++ d ++ a ++ i]
  | .andi d a i => [0x9#7 ++ d ++ a ++ i]
  | .ori d a i => [0xA#7 ++ d ++ a ++ i]
  | .xori d a i => [0xB#7 ++ d ++ a ++ i]
  | .shli d a n => [0xC#7 ++ d ++ a ++ 0x0#9 ++ n]
  | .shri d a n => [0xD#7 ++ d ++ a ++ 0x0#9 ++ n]
  | .sari d a n => [0xE#7 ++ d ++ a ++ 0x0#9 ++ n]
  | .cmpEq c a b => [0x8#9 ++ c ++ a ++ b ++ 0x1#10]
  | .cmpNe c a b => [0x8#9 ++ c ++ a ++ b ++ 0x2#10]
  | .cmpLt c a b => [0x8#9 ++ c ++ a ++ b ++ 0x3#10]
  | .cmpLtu c a b => [0x8#9 ++ c ++ a ++ b ++ 0x4#10]
  | .cmpLe c a b => [0x8#9 ++ c ++ a ++ b ++ 0x5#10]
  | .cmpLeu c a b => [0x8#9 ++ c ++ a ++ b ++ 0x6#10]
  | .cmpFeq c a b => [0x8#9 ++ c ++ a ++ b ++ 0x10#10]
  | .cmpFlt c a b => [0x8#9 ++ c ++ a ++ b ++ 0x11#10]
  | .cmpFle c a b => [0x8#9 ++ c ++ a ++ b ++ 0x12#10]
  | .cmpFun c a b => [0x8#9 ++ c ++ a ++ b ++ 0x13#10]
  | .cndAnd c a b => [0x14#9 ++ c ++ 0x0#2 ++ a ++ 0x0#2 ++ b ++ 0x1#10]
  | .cndOr c a b => [0x14#9 ++ c ++ 0x0#2 ++ a ++ 0x0#2 ++ b ++ 0x2#10]
  | .cndXor c a b => [0x14#9 ++ c ++ 0x0#2 ++ a ++ 0x0#2 ++ b ++ 0x3#10]
  | .cndAndn c a b => [0x14#9 ++ c ++ 0x0#2 ++ a ++ 0x0#2 ++ b ++ 0x4#10]
  | .cndSetg d a => [0x5#7 ++ d ++ 0x0#2 ++ a ++ 0x8#15]
  | .cndFromg c a => [0x14#9 ++ c ++ a ++ 0x9#15]
  | .cndSel d a b n => [0x5#7 ++ d ++ a ++ b ++ 0x2#7 ++ n]
  | .fpuAdd d a b r => [0x3#7 ++ d ++ a ++ b ++ r ++ 0x1#8]
  | .fpuSub d a b r => [0x3#7 ++ d ++ a ++ b ++ r ++ 0x2#8]
  | .fpuMul d a b r => [0x3#7 ++ d ++ a ++ b ++ r ++ 0x3#8]
  | .fpuDiv d a b r => [0x3#7 ++ d ++ a ++ b ++ r ++ 0x4#8]
  | .fpuSqrt d a r => [0x3#7 ++ d ++ a ++ 0x0#5 ++ r ++ 0x5#8]
  | .fpuFma d a b r => [0x3#7 ++ d ++ a ++ b ++ r ++ 0x6#8]
  | .fpuMin d a b => [0x3#7 ++ d ++ a ++ b ++ 0x10#10]
  | .fpuMax d a b => [0x3#7 ++ d ++ a ++ b ++ 0x11#10]
  | .fpuAbs d a => [0x3#7 ++ d ++ a ++ 0x12#15]
  | .fpuNeg d a => [0x3#7 ++ d ++ a ++ 0x13#15]
  | .fpuCvto d a f r s => [0x3#7 ++ d ++ a ++ f ++ r ++ s ++ 0x20#7]
  | .fpuCvfrom d a f r => [0x3#7 ++ d ++ a ++ f ++ r ++ 0x21#8]
  | .fpuFlags d => [0x3#7 ++ d ++ 0x30#20]
  | .bitShl d a b => [0x4#7 ++ d ++ a ++ b ++ 0x1#10]
  | .bitShr d a b => [0x4#7 ++ d ++ a ++ b ++ 0x2#10]
  | .bitSar d a b => [0x4#7 ++ d ++ a ++ b ++ 0x3#10]
  | .bitRol d a b => [0x4#7 ++ d ++ a ++ b ++ 0x4#10]
  | .bitRor d a b => [0x4#7 ++ d ++ a ++ b ++ 0x5#10]
  | .bitClz d a => [0x4#7 ++ d ++ a ++ 0x10#15]
  | .bitCtz d a => [0x4#7 ++ d ++ a ++ 0x11#15]
  | .bitPopc d a => [0x4#7 ++ d ++ a ++ 0x12#15]
  | .bitBswap d a => [0x4#7 ++ d ++ a ++ 0x13#15]
  | .bitExtu d a b => [0x4#7 ++ d ++ a ++ b ++ 0x20#10]
  | .bitExts d a b => [0x4#7 ++ d ++ a ++ b ++ 0x21#10]
  | .bitIns d a b => [0x4#7 ++ d ++ a ++ b ++ 0x22#10]
  | .br c s o => [0x10#7 ++ c ++ s ++ o]
  | .call c s o => [0x11#7 ++ c ++ s ++ o]
  | .jmpJr a => [0x240#12 ++ a ++ 0x1#15]
  | .jmpJalr d a => [0x12#7 ++ d ++ a ++ 0x2#15]
  | .jmpRet => [0x24000003#32]
  | .rep n d a b => [0x38#7 ++ n ++ d ++ a ++ b ++ 0x0#1]
  | .capMov d k => [0x20#7 ++ d ++ k ++ 0x1#17]
  | .capNull d => [0x20#7 ++ d ++ 0x2#21]
  | .capBase d k a => [0x20#7 ++ d ++ k ++ a ++ 0x3#12]
  | .capLen d k a => [0x20#7 ++ d ++ k ++ a ++ 0x4#12]
  | .capAnd d k r => [0x20#7 ++ d ++ k ++ 0x0#5 ++ r ++ 0x5#4]
  | .capTest c k a r => [0x40#8 ++ c ++ k ++ a ++ r ++ 0x6#4]
  | .capGbase k a => [0x200#11 ++ k ++ a ++ 0x7#12]
  | .capGlimit k a => [0x200#11 ++ k ++ a ++ 0x8#12]
  | .capGmeta k a => [0x200#11 ++ k ++ a ++ 0x9#12]
  | .capLd d k a => [0x20#7 ++ d ++ k ++ a ++ 0xA#12]
  | .capSt d k a => [0x20#7 ++ d ++ k ++ a ++ 0xB#12]
  | .stepBegin a => [0x600#12 ++ a ++ 0x1#15]
  | .stepNext c => [0xC0#9 ++ c ++ 0x2#20]
  | .stepEnd => [0x60000003#32]
  | .stepDone a => [0x600#12 ++ a ++ 0x4#15]
  | .stepSig a b => [0x600#12 ++ a ++ b ++ 0x10#10]
  | .stepRcv d => [0x30#7 ++ d ++ 0x11#20]
  | .sysRd d s => [0x3C#7 ++ d ++ s ++ 0x1#8]
  | .sysWr d s => [0x3C#7 ++ d ++ s ++ 0x2#8]
  | .sysTret => [0x78000010#32]
  | .sysHalt => [0x78000020#32]
  | .sysIdle => [0x78000021#32]
  | .memLdH d a k f o => [0x18#7 ++ d ++ a ++ k ++ 0x1#5 ++ f ++ o]
  | .memLdHs d a k f o => [0x18#7 ++ d ++ a ++ k ++ 0x2#5 ++ f ++ o]
  | .memLdW d a k f o => [0x18#7 ++ d ++ a ++ k ++ 0x3#5 ++ f ++ o]
  | .memLdWs d a k f o => [0x18#7 ++ d ++ a ++ k ++ 0x4#5 ++ f ++ o]
  | .memLdD d a k f o => [0x18#7 ++ d ++ a ++ k ++ 0x5#5 ++ f ++ o]
  | .memLdQ d a k f o => [0x18#7 ++ d ++ a ++ k ++ 0x6#5 ++ f ++ o]
  | .memStH d a k f o => [0x18#7 ++ d ++ a ++ k ++ 0x9#5 ++ f ++ o]
  | .memStW d a k f o => [0x18#7 ++ d ++ a ++ k ++ 0xA#5 ++ f ++ o]
  | .memStD d a k f o => [0x18#7 ++ d ++ a ++ k ++ 0xB#5 ++ f ++ o]
  | .memStQ d a k f o => [0x18#7 ++ d ++ a ++ k ++ 0xC#5 ++ f ++ o]
  | .rmemLdH d a k f o => [0x19#7 ++ d ++ a ++ k ++ 0x1#5 ++ f ++ o]
  | .rmemLdHs d a k f o => [0x19#7 ++ d ++ a ++ k ++ 0x2#5 ++ f ++ o]
  | .rmemLdW d a k f o => [0x19#7 ++ d ++ a ++ k ++ 0x3#5 ++ f ++ o]
  | .rmemLdWs d a k f o => [0x19#7 ++ d ++ a ++ k ++ 0x4#5 ++ f ++ o]
  | .rmemLdD d a k f o => [0x19#7 ++ d ++ a ++ k ++ 0x5#5 ++ f ++ o]
  | .rmemLdQ d a k f o => [0x19#7 ++ d ++ a ++ k ++ 0x6#5 ++ f ++ o]
  | .rmemStH d a k f o => [0x19#7 ++ d ++ a ++ k ++ 0x9#5 ++ f ++ o]
  | .rmemStW d a k f o => [0x19#7 ++ d ++ a ++ k ++ 0xA#5 ++ f ++ o]
  | .rmemStD d a k f o => [0x19#7 ++ d ++ a ++ k ++ 0xB#5 ++ f ++ o]
  | .rmemStQ d a k f o => [0x19#7 ++ d ++ a ++ k ++ 0xC#5 ++ f ++ o]
  | .amoAdd d a k f o => [0x1A#7 ++ d ++ a ++ k ++ 0x2#5 ++ f ++ o]
  | .amoMin d a k f o => [0x1A#7 ++ d ++ a ++ k ++ 0x3#5 ++ f ++ o]
  | .amoMax d a k f o => [0x1A#7 ++ d ++ a ++ k ++ 0x4#5 ++ f ++ o]
  | .amoAmax d a k f o => [0x1A#7 ++ d ++ a ++ k ++ 0x5#5 ++ f ++ o]
  | .amoAmaxr d a k f o => [0x1A#7 ++ d ++ a ++ k ++ 0x6#5 ++ f ++ o]
  | .amoFaddW d a k f o => [0x1A#7 ++ d ++ a ++ k ++ 0x7#5 ++ f ++ o]
  | .amoFaddH d a k f o => [0x1A#7 ++ d ++ a ++ k ++ 0xC#5 ++ f ++ o]
  | .amoAnd d a k f o => [0x1A#7 ++ d ++ a ++ k ++ 0x8#5 ++ f ++ o]
  | .amoOr d a k f o => [0x1A#7 ++ d ++ a ++ k ++ 0x9#5 ++ f ++ o]
  | .amoXchg d a k f o => [0x1A#7 ++ d ++ a ++ k ++ 0xA#5 ++ f ++ o]
  | .amoCas d a k f o => [0x1A#7 ++ d ++ a ++ k ++ 0xB#5 ++ f ++ o]
  | .amoAddPosted d a k f o => [0x1A#7 ++ d ++ a ++ k ++ 0x12#5 ++ f ++ o]
  | .amoMinPosted d a k f o => [0x1A#7 ++ d ++ a ++ k ++ 0x13#5 ++ f ++ o]
  | .amoMaxPosted d a k f o => [0x1A#7 ++ d ++ a ++ k ++ 0x14#5 ++ f ++ o]
  | .amoAmaxPosted d a k f o => [0x1A#7 ++ d ++ a ++ k ++ 0x15#5 ++ f ++ o]
  | .amoFaddWPosted d a k f o => [0x1A#7 ++ d ++ a ++ k ++ 0x17#5 ++ f ++ o]
  | .amoFaddHPosted d a k f o => [0x1A#7 ++ d ++ a ++ k ++ 0x1C#5 ++ f ++ o]
  | .amoAndPosted d a k f o => [0x1A#7 ++ d ++ a ++ k ++ 0x18#5 ++ f ++ o]
  | .amoOrPosted d a k f o => [0x1A#7 ++ d ++ a ++ k ++ 0x19#5 ++ f ++ o]
  | .syncFenceElem => [0x5A000001#32]
  | .syncFenceRegion => [0x5A000002#32]
  | .syncFenceDie => [0x5A000003#32]
  | .syncFenceModule => [0x5A000004#32]
  | .syncFenceSystem => [0x5A000005#32]
  | .syncRbar => [0x5A000010#32]
  | .syncPhbar a b => [0x5A0#12 ++ a ++ b ++ 0x11#10]
  | .syncSparge a => [0x5A0#12 ++ a ++ 0x20#15]
  | .engSteep u a => [0xA4#9 ++ u ++ a ++ 0x1#15]
  | .engMtok u a => [0xA4#9 ++ u ++ a ++ 0x2#15]
  | .engCopy a => [0x532#12 ++ a ++ 0x3#15]
  | .engRo u a b => [0x14A#10 ++ u ++ a ++ b ++ 0x10#10]
  | .engSel u a b => [0x296#11 ++ u ++ a ++ b ++ 0x11#10]
  | .engMon u a b => [0x297#11 ++ u ++ a ++ b ++ 0x12#10]
  | .engDec u a b => [0x298#11 ++ u ++ a ++ b ++ 0x13#10]
  | .rackSave a b => [0x540#12 ++ a ++ b ++ 0x1#10]
  | .rackLoad d a b => [0x2A#7 ++ d ++ a ++ b ++ 0x2#10]
  | .wait l s c t => [0x2C#7 ++ l ++ s ++ c ++ t ++ 0x0#1]
  | .schedPitch a => [0x5C0#12 ++ a ++ 0x1#15]
  | .schedClaim a => [0x5C0#12 ++ a ++ 0x2#15]
  | .schedLevel d => [0x2E#7 ++ d ++ 0x3#20]
  | .schedPerfsel a b => [0x5C0#12 ++ a ++ b ++ 0x4#10]
  | .mgmtDrd d n => [0x3D#7 ++ d ++ 0x0#4 ++ n ++ 0x1#8]
  | .mgmtDwr d n => [0x3D#7 ++ d ++ 0x0#4 ++ n ++ 0x2#8]
  | .mgmtSint d => [0x3D#7 ++ d ++ 0x3#20]
  | .mgmtCrypto d => [0x3D#7 ++ d ++ 0x10#20]
  | .liSx d imm => [0x06#7 ++ d ++ 0x1#5 ++ 0#15, imm]
  | .liZx d imm => [0x06#7 ++ d ++ 0x2#5 ++ 0#15, imm]
  | .liHi d imm => [0x06#7 ++ d ++ 0x3#5 ++ 0#15, imm]
  | .strmDld dsc a => [0x28#7 ++ dsc ++ 0#5 ++ a ++ 0x1#5 ++ 0#6, 0#32]
  | .strmBind dsc ch a die row col port => [0x28#7 ++ dsc ++ ch ++ a ++ 0x2#5 ++ 0#6, die ++ row ++ col ++ port ++ 0#10]
  | .strmPbar die row col port => [0x28#7 ++ 0#14 ++ 0x3#5 ++ 0#6, die ++ row ++ col ++ port ++ 0#10]
  | .strmDinv dsc => [0x28#7 ++ dsc ++ 0#10 ++ 0x4#5 ++ 0#6, 0#32]
  | .firing _ => []
  | .routerForward _ _ _ => []
  | .mtRouterForward _ _ _ => []
  | .tokenKindFault _ _ _ => []
  | .reconfig _ _ _ => []
  | .configFetch _ => []
  | .resume _ => []
  | .doneToken _ _ _ => []
  | .sealToken _ => []
  | .bindTimeout _ _ _ => []
  | .operandStage _ => []
  | .admitStray _ => []
  | .headVisit _ => []
  | .rotationSave _ => []
  | .rotationLoad _ => []
  | .mtReadStream _ _ => []
  | .mtWriteStream _ _ => []
  | .tileRequest _ _ _ => []
  | .requestApply _ _ => []
  | .waiterServe _ => []
  | .feTimeout _ _ => []
  | .pageRequest _ _ _ => []
  | .portAccess _ _ => []
  | .portStreamElement _ => []
  | .cutEdgeTransfer _ _ _ => []
  | .streamCommandStart _ _ => []
  | .mnMul _ => []
  | .mnMulacc _ => []
  | .mnSwap _ => []
  | .mnRead _ => []
  | .mnClear _ => []
  | .mnDrain _ => []
  | .mnSetzp _ => []
  | .shadowFillToken _ => []
  | .steep _ => []
  | .roInput _ => []
  | .roOutput _ => []
  | .roShape _ => []
  | .roFlush _ => []
  | .selKeyToken _ _ => []
  | .selKth _ => []
  | .selQuant _ => []
  | .selWquant _ => []
  | .selClear _ => []
  | .monArm _ => []
  | .monDisarm _ => []
  | .monSetref _ => []
  | .monSetabs _ => []
  | .monSetrel _ => []
  | .monClear _ => []
  | .monRead _ => []
  | .decRun _ => []
  | .decBlock _ => []
  | .copyRun _ => []
  | .seqReply _ _ _ => []
  | .trapEntry _ => []
  | .rbarComplete _ => []
  | .phbarComplete _ _ => []
  | .spargeRelease _ => []
  | .cfgBegin _ _ => []
  | .cfgAddr _ _ => []
  | .cfgField _ _ => []
  | .cfgExtend _ _ => []
  | .cfgSpargeawait _ _ => []
  | .cfgCommit _ _ => []
  | .powerInterval => []
  | .sensorRefresh _ _ => []
  | .boostBoundary _ _ _ _ => []
  | .wsRefreshPeriod => []
  | .boardReport _ _ _ => []
  | .coolantStale => []
  | .alertstWrite _ => []
  | .alertenWrite _ => []
  | .goready _ => []
  | .limtabWrite _ _ => []
  | .retire _ => []
  | .districtRetired _ => []
  | .coldReset => []
  | .cryptoHash => []
  | .cryptoVerify => []
  | .cryptoSign => []
  | .cryptoExtend => []
  | .cryptoIdekey => []
  | .attestreq _ => []
  | .loadcmd _ => []
  | .loadComplete => []
  | .unload _ => []
  | .trigger _ _ _ => []
  | .scheduleTrigger => []
  | .launch _ => []
  | .dependenceValidSet _ _ => []
  | .dependenceValidClear _ _ => []
  | .batchCommit _ _ => []
  | .bankcfgWrite _ _ => []
  | .partwsWrite _ _ => []
  | .priorityTokenRefill => []
  | .caskSave _ => []
  | .caskRestore _ => []
  | .gangHalt => []
  | .gangInstant => []
  | .gangstatWrite _ => []
  | .bindcmd _ => []
  | .doorbell _ => []
  | .dbstWrite _ => []
  | .tlbinv _ => []
  | .tlbinvComplete => []
  | .pagerResolve _ => []
  | .pgresolve _ => []
  | .fppush _ => []
  | .reclaimRetry _ => []
  | .pageExhausted _ => []
  | .migrationStart _ => []
  | .migrationCopyDone => []
  | .huskSeal _ => []
  | .replyLateDrop _ => []
  | .hostAccess _ _ _ => []
  | .perfsel _ => []
  | .perfselApply => []
  | .ctrq _ => []
  | .ctrqLatch => []
  | .cpcap _ => []
  | .tracePcSample => []
  | .replthWrite _ => []
  | .registerWrite _ _ _ => []
  | .illegalWord _ => []
  | .fetchRange => []
  | .sysfault => []
  | .supplyRampEnd _ => []

/-- The four bytes of a word, lowest address first (00 R4). -/
def bytes4 (w : W32) : List Byte := [fld w 7 0, fld w 15 8, fld w 23 16, fld w 31 24]

/-- The bytes of an instruction as its instruction store holds them. -/
def encodeBytes (i : Instr) : List Byte := (encode i).flatMap bytes4

/-- Numbered as the opcode table numbers bits, the low `8 n` bits of `w` as bytes, lowest address first. -/
def bytesOfNat : Nat → Nat → List Byte
  | 0, _ => []
  | n + 1, w => BitVec.ofNat 8 w :: bytesOfNat n (w / 256)

/-- The instruction the decoder reads from an instruction whose bits are `w`, the bits above `nbits` zero. -/
def decodeTableWord (nbits w : Nat) : Option Instr :=
  match decode (bytesOfNat 8 (w % 2 ^ nbits)) with
  | .ok (i, _) => some i
  | .error _ => none

/-- The step that a configuration word delivered to district `d` is (06 Tables K-48, K-49). A CONTROL word whose code is
not assigned enters the open stream as a SPARGEAWAIT would; its error is found there (06 R137 order 1). -/
def decodeConfigWord (d : Nat) (w : W32) : Instr :=
  match (fld w 31 30).toNat with
  | 0 => .cfgField d w
  | 1 => .cfgAddr d w
  | 2 => .cfgExtend d w
  | _ =>
    match (fld w 29 24).toNat with
    | 1 => .cfgBegin d w
    | 2 => .cfgCommit d w
    | _ => .cfgSpargeawait d w

/-- The fields of a matrix control token's DATA (06 R139, Table K-52). -/
structure MatrixCtl where
  op : BitVec 5
  km1 : BitVec 6
  nm1 : BitVec 6
  acc : BitVec 1
  bank : BitVec 2
  afmt : BitVec 4
  wfmt : BitVec 4
  zero : BitVec 4
  deriving DecidableEq, Repr, Inhabited

/-- The fields of a matrix control word. -/
def decodeMatrix (w : W32) : MatrixCtl :=
  ⟨fld w 31 27, fld w 26 21, fld w 20 15, fld w 14 14, fld w 13 12, fld w 11 8, fld w 7 4, fld w 3 0⟩

/-- The word of matrix control fields. -/
def encodeMatrix (m : MatrixCtl) : W32 :=
  m.op ++ m.km1 ++ m.nm1 ++ m.acc ++ m.bank ++ m.afmt ++ m.wfmt ++ m.zero

end Sys2Proof
end

