-- ==== Sys2Proof/Machine/State.lean ====
section
/-! DEFINITION. The state of the SM-160 as plain data: everything the spec gives the machine, and the model's own
agenda, step counter and acting core (INVENTORY.md, State). -/

namespace Sys2Proof.Machine

/-- Where an unfinished memory instruction of a SEQ stands (08 R195, Table K-95). -/
inductive OpStatus where
  /-- in the memory issue queue (STATE 1, UNSENT, when withdrawn) -/
  | queued
  /-- its request has left the SEQ -/
  | sent
  /-- answered with an error (STATE 2) -/
  | errored
  /-- a load held by an unmapped page (STATE 3, HELD, when withdrawn) -/
  | held
  /-- a store that has retired into a PORT's side log; it counts in STC until it is replayed -/
  | logged
  deriving DecidableEq, Repr, Inhabited

/-- The four classes of outstanding operations (08 R170, Table K-77). -/
inductive OpClass where
  | ldc
  | stc
  | cpc
  | toc
  deriving DecidableEq, Repr, Inhabited

/-- Where the reply of a tile request goes (04 R87, R98; 08 R174). -/
inductive Origin where
  /-- on CHAN of the port it arrived at; the tag of the request -/
  | port (tag : Option (Nat × Nat))
  /-- on RCH, from port V -/
  | remote (rch : BitVec 5) (tag : Option (Nat × Nat))
  /-- to the district's own SEQ, for the memory instruction of that serial number -/
  | seq (op : Nat)
  deriving DecidableEq, Repr, Inhabited

/-- Who issued an access that reaches a PORT (05 R108; 17 R332, R335). -/
inductive Issuer where
  | seq (core : Nat)
  | pe (elem : Nat)
  | copier (dist : Nat)
  | dec (elem : Nat)
  | stream (dist : Nat)
  deriving DecidableEq, Repr, Inhabited

/-- STATE of a rotation slot (02 R43): 0 to 4 in this order; 5-7 are not used. -/
inductive SlotState where
  | empty
  | live
  | parked
  | faulted
  | draining
  deriving DecidableEq, Repr, Inhabited

/-- MODE of a rotation head (02 R43): 0 to 3 in this order. -/
inductive HeadMode where
  | running
  | saving
  | saved
  | loading
  deriving DecidableEq, Repr, Inhabited

/-- The state of an MN's shadow plane (10 R240). -/
inductive ShadowState where
  | empty
  | filling
  | full
  deriving DecidableEq, Repr, Inhabited

/-- What a loaded region's instance is doing (16 R318-R320). -/
inductive RegionStatus where
  | idle
  | running
  | draining
  | saved
  deriving DecidableEq, Repr, Inhabited

/-- One entry of the agenda: which agent acts next. -/
inductive Turn where
  /-- that core issues its next instruction -/
  | core (c : Nat)
  /-- that step of the device, or of the world around it, happens -/
  | event (i : Instr)
  deriving DecidableEq, Repr, Inhabited

/-- A 48-bit fabric token (01 R13, Table K-2); one indivisible transfer. -/
structure Token where
  /-- 0 data, 1 request, 2 reply, 3 control, 4 matrix-control, 5-7 reserved (01 R13; reset: 0). -/
  kind : BitVec 3 := 0
  /-- rotation slot (01 R13; reset: 0). -/
  phase : BitVec 6 := 0
  /-- 0 none, 1 end-of-row, 2 end-of-tensor, 3 error end-of-stream (01 R13; reset: 0). -/
  marker : BitVec 2 := 0
  /-- virtual channel (01 R13; reset: 0). -/
  channel : BitVec 5 := 0
  /-- payload (01 R13; reset: 0). -/
  data : BitVec 32 := 0
  /-- whose request this serves or answers: a SEQ and its memory instruction, or 1024 + a PE's element number; no bits on the wire (MODEL'S OWN (08 R174, 09 R230); reset: none (log 8)). -/
  tag : Option (Nat × Nat) := none
  /-- hidden firing number of the producing element; no program observes it (22 R381; reset: 0 (none)). -/
  fire : Nat := 0
  /-- places of the reply queue that a reply token frees: an error reply all that its request had reserved (MODEL'S OWN (15 R295); reset: 1). -/
  frees : Nat := 1
  deriving DecidableEq, Repr, Inhabited

/-- A token in a two-entry skid buffer (01 R18), with the step at which it arrived (model's own, orders arrivals at one router, R235). -/
structure Held where
  /-- step number of arrival (model's own; reset: 0). -/
  arr : Nat := 0
  /-- TIMEBASE at arrival, for the binding timeout and the last-arrival marker (16 R323; reset: 0). -/
  ns : Nat := 0
  /-- the token (01 R18; reset: -). -/
  tok : Token := {}
  deriving DecidableEq, Repr, Inhabited

/-- A stream descriptor d[n] (08 R182, Table K-85) with the capability copied in by strm.dld (R183). -/
structure Descriptor where
  /-- START (08 R182; reset: -). -/
  start : BitVec 40 := 0
  /-- FE (08 R182; reset: -). -/
  fe : BitVec 2 := 0
  /-- FMT (08 R182; reset: -). -/
  fmt : BitVec 4 := 0
  /-- ESZ (08 R182; reset: -). -/
  esz : BitVec 3 := 0
  /-- DIR (08 R182; reset: -). -/
  dir : BitVec 2 := 0
  /-- CNT0..CNT3 (08 R182; reset: -). -/
  cnt : Vector (BitVec 24) 4 := Vector.replicate 4 0
  /-- STR0..STR3 (08 R182; reset: -). -/
  str : Vector (BitVec 64) 4 := Vector.replicate 4 0
  /-- the capability k[KREG] copied at the read (08 R183; reset: -). -/
  cap : BitVec 128 := 0
  deriving DecidableEq, Repr, Inhabited

/-- The current configuration step of a SEQ (07 R165). -/
structure CurStep where
  /-- leaf g[ga][23:0] (07 R165; reset: -). -/
  leaf : BitVec 24 := 0
  /-- trip counts minus one copied from STEPCFG (07 R165; reset: -). -/
  trip : Vector (BitVec 24) 4 := Vector.replicate 4 0
  /-- plane copied from STEPCFG (07 R165; reset: -). -/
  plane : BitVec 2 := 0
  deriving DecidableEq, Repr, Inhabited

/-- One unfinished memory instruction of a SEQ: the memory issue queue and the requests that have left it (08 R170, R196). -/
structure MemOp where
  /-- serial number, issue order (model's own; reset: -). -/
  id : Nat := 0
  /-- address of the instruction (08 R195; reset: -). -/
  pc : BitVec 32 := 0
  /-- the word as issued, rep steps applied (08 R195; reset: -). -/
  word : BitVec 32 := 0
  /-- captured g[ga] (08 R195; reset: -). -/
  addr : BitVec 64 := 0
  /-- captured g[gd], or k[kd] low (08 R195; reset: -). -/
  data0 : BitVec 64 := 0
  /-- captured g[gd+1], or k[kd] high (08 R195; reset: -). -/
  data1 : BitVec 64 := 0
  /-- captured k[ka] (08 R195; reset: -). -/
  cap : BitVec 128 := 0
  /-- ECSN when it issued (08 R183, R195; reset: -). -/
  eecsn : BitVec 32 := 0
  /-- some d for strm.dld, which reads a descriptor image (08 R183; reset: none). -/
  dld : Option (BitVec 4) := none
  /-- queued, sent, errored, held by an unmapped page (08 R195; reset: queued). -/
  status : OpStatus := .queued
  /-- error code of an errored entry (08 R195; reset: 0). -/
  esub : BitVec 8 := 0
  /-- reply words received so far (04 R87; reset: []). -/
  reply : List (BitVec 32) := []
  deriving DecidableEq, Repr, Inhabited

/-- A trap cause with the event it names (08 R194, R195). -/
structure Cause where
  /-- CAUSE of Table K-91 (08 R194; reset: -). -/
  cause : BitVec 8 := 0
  /-- SUB (08 R194; reset: -). -/
  sub : BitVec 8 := 0
  /-- UNIT (08 R194; reset: 0xFF). -/
  unit : BitVec 8 := 0xFF#8
  /-- EPC (08 R195; reset: -). -/
  epc : BitVec 32 := 0
  /-- EECSN (08 R195; reset: -). -/
  eecsn : BitVec 32 := 0
  /-- XADDR (08 R195; reset: 0). -/
  xaddr : BitVec 64 := 0
  /-- a synchronous trap: the instruction at TRAPPC itself trapped (08 R196; reset: false). -/
  sync : Bool := false
  /-- the serial number of the strm.dld whose image was bad, which orders its trap among ERRORED entries (MODEL'S OWN (08 R183, R196); reset: none). -/
  opId : Option Nat := none
  deriving DecidableEq, Repr, Inhabited

/-- A reply or completion on its way to a SEQ (08 R170). -/
structure Completion where
  /-- the memory instruction it answers; none for an engine completion (model's own; reset: none). -/
  op : Option Nat := none
  /-- the counter that falls (08 R170; reset: -). -/
  counter : OpClass := .ldc
  /-- reply words (04 R87; reset: []). -/
  words : List (BitVec 32) := []
  /-- tile error code, or 0 (04 R88; reset: 0). -/
  esub : BitVec 8 := 0
  /-- PORT_DENIED (08 R175; reset: false). -/
  denied : Bool := false
  /-- an engine fault or RACK refusal (08 R188; reset: none). -/
  cause : Option Cause := none
  deriving DecidableEq, Repr, Inhabited

/-- A cached page entry (17 R330): FRAME, LOC, ATTR, DIRTY and the access count of R338. -/
structure TlbEntry where
  /-- partition (17 R330; reset: -). -/
  part : BitVec 6 := 0
  /-- object (17 R330; reset: -). -/
  obj : BitVec 24 := 0
  /-- page (17 R330; reset: -). -/
  page : BitVec 24 := 0
  /-- FRAME (17 R330; reset: -). -/
  frame : BitVec 36 := 0
  /-- LOC (17 R330; reset: -). -/
  loc : BitVec 2 := 0
  /-- ATTR (17 R330; reset: -). -/
  attr : BitVec 2 := 0
  /-- DIRTY (17 R330; reset: -). -/
  dirty : Bool := false
  /-- accesses not yet added to ACC (17 R338; reset: 0). -/
  count : Nat := 0
  /-- ACC as the cache last read it (17 R338; reset: -). -/
  acc : BitVec 16 := 0
  /-- cached as not writable: the entry had MIGRATING = 1 or WB = 1 (17 R330; reset: false). -/
  ro : Bool := false
  deriving DecidableEq, Repr, Inhabited

/-- A SEQ core: a district's sequencer or the management core (06 R127, Table K-45). -/
structure Core where
  /-- general registers; g0 reads 0, writes discarded (06 R127; reset: 0 (R127)). -/
  g : Vector (BitVec 64) 32 := Vector.replicate 32 0
  /-- capability registers (06 R127; reset: 0 before a launch (null); k0 set at launch (R103)). -/
  k : Vector (BitVec 128) 16 := Vector.replicate 16 0
  /-- stream descriptors (06 R127; reset: all invalid (R127)). -/
  d : Vector (Option Descriptor) 16 := Vector.replicate 16 none
  /-- condition bits; c0 reads 1 (06 R127; reset: c0 = 1, c1-c7 = 0). -/
  c : Vector Bool 8 := #v[true, false, false, false, false, false, false, false]
  /-- FLAGS: V Z O U X (07 R155; reset: 0). -/
  flags : BitVec 5 := 0
  /-- program counter (06 R120; reset: DESIGN CHOICE 0 (log 7); at a launch the node's ENTRY (R313)). -/
  pc : BitVec 64 := 0
  /-- engine-command sequence number (01 R38, 06 R128; reset: 0). -/
  ecsn : BitVec 32 := 0
  /-- PRIV.LEVEL (06 R128 PRIV; reset: 0 (1 on the management core)). -/
  level1 : Bool := false
  /-- TRAPCAUSE (08 Table K-92; reset: 0). -/
  trapcause : BitVec 64 := 0
  /-- TRAPPC (08 R194; reset: 0). -/
  trappc : BitVec 64 := 0
  /-- TRAPQ (08 Table K-93; reset: 0). -/
  trapq : BitVec 64 := 0
  /-- REMAIN (07 Table K-66; reset: 0). -/
  remain : BitVec 64 := 0
  /-- STEPCFG low half (07 Table K-71; reset: 0). -/
  stepcfgLo : BitVec 64 := 0
  /-- STEPCFG high half (07 Table K-72; reset: 0). -/
  stepcfgHi : BitVec 64 := 0
  /-- ITER0-ITER3 (07 Table K-73; reset: 0). -/
  iter : Vector (BitVec 24) 4 := Vector.replicate 4 0
  /-- the current configuration step (07 R165; reset: none). -/
  step : Option CurStep := none
  /-- DONE queue (07 R166; reset: empty). -/
  doneQ : List (BitVec 24) := []
  /-- DONEs sent by containment that wait to enter the DONE queue, each with the step number at which it was sent (MODEL'S OWN (17 R342); reset: empty). -/
  doneWait : List (Nat × BitVec 24) := []
  /-- signal queue: sender and value (07 R166; reset: empty). -/
  sigQ : List (BitVec 10 × BitVec 32) := []
  /-- LDC (08 R170; reset: 0). -/
  ldc : Nat := 0
  /-- STC (08 R170; reset: 0). -/
  stc : Nat := 0
  /-- CPC (08 R170; reset: 0). -/
  cpc : Nat := 0
  /-- TOC (08 R170; reset: 0). -/
  toc : Nat := 0
  /-- unfinished memory instructions in issue order (08 R170, R196; reset: empty). -/
  ops : List MemOp := []
  /-- next serial number of a memory instruction (model's own; reset: 0). -/
  opId : Nat := 0
  /-- replay entries tret has still to re-issue, ahead of PC (08 R198; reset: empty). -/
  reissue : List MemOp := []
  /-- asynchronous causes pending, in order of arrival (08 R196; reset: empty). -/
  pending : List Cause := []
  /-- the trap for which issue has stopped, while requests have still to settle; an asynchronous cause is chosen again then (08 R196; reset: none). -/
  trapping : Option Cause := none
  /-- an rmem, or an amo to another district, since the last completed rbar (08 R199; reset: false). -/
  remote : Bool := false
  /-- barrier generation (08 R179; reset: 0). -/
  barGen : Nat := 0
  /-- arrived at the current generation (08 R179; reset: false). -/
  barArrived : Bool := false
  /-- groups at whose current generation this SEQ has arrived (08 R180; reset: empty). -/
  phArrived : List (BitVec 4) := []
  /-- groups whose generation completed and whose phbar has not yet retired (08 R180; reset: empty). -/
  phDone : List (BitVec 4) := []
  /-- the arrived rbar has completed and has not yet retired (08 R179; reset: false). -/
  barDone : Bool := false
  /-- sparge under way to this slot (08 R181; reset: none). -/
  spargeWait : Option (BitVec 2) := none
  /-- the sparge has released RECONFIG and has not yet retired (08 R181; reset: false). -/
  spargeDone : Bool := false
  /-- issues instructions (08 R199, 16 R313; reset: DESIGN CHOICE false: no launch (log 7)). -/
  running : Bool := false
  /-- stopped by halt, a double trap or a region husk (08 R199; reset: false). -/
  halted : Bool := false
  /-- counters when the current idle began (08 R200; reset: none). -/
  idleSeen : Option (Nat × Nat × Nat × Nat) := none
  /-- a load that met an unmapped page holds the SEQ (08 R175; reset: false). -/
  held : Bool := false
  /-- first-level translation cache (17 R330; reset: empty). -/
  tlb : List TlbEntry := []
  /-- replies and completions that have reached the SEQ's slot other than on the fabric (own tile, PORT, engines) (08 R170; reset: empty). -/
  inbox : List Completion := []
  /-- the instruction at PC is complete and the next one lies beyond the store: its fetch has still to trap FETCH_RANGE at PC (MODEL'S OWN (06 R120); reset: DESIGN CHOICE false (log 9)). -/
  past : Bool := false
  /-- the word being executed is the one at PC + 4 that a rep at PC repeats; false between steps (MODEL'S OWN (07 R160); reset: DESIGN CHOICE false (log 2)). -/
  inRep : Bool := false
  /-- the instruction at PC has begun a wait that no interrupt breaks (halt, fence, sparge, tret) (08 R201; reset: false). -/
  noInt : Bool := false
  /-- the serial number of the latest .acq load read on a UO page, which acts as a fence behind it (05 R113; reset: none). -/
  fenceMark : Option Nat := none
  /-- the serial number next in line at the last trap entry: memory instructions below it are not the handler's own (MODEL'S OWN (08 R197); reset: DESIGN CHOICE 0 (log 122)). -/
  trapOp : Nat := 0
  deriving DecidableEq, Repr, Inhabited

/-- One request accepted at a tile port (04 R86-R89). -/
structure TileReq where
  /-- arrival order at the tile (model's own; reset: -). -/
  id : Nat := 0
  /-- OP (04 R86; reset: -). -/
  op : BitVec 4 := 0
  /-- FEQ (04 R86; reset: -). -/
  feq : BitVec 2 := 0
  /-- WIDTH (04 R86; reset: -). -/
  width : BitVec 2 := 0
  /-- REPLY (04 R86; reset: -). -/
  rep : Bool := false
  /-- OFFSET (04 R86; reset: -). -/
  offset : BitVec 19 := 0
  /-- operand words (04 R86; reset: -). -/
  operands : List (BitVec 32) := []
  /-- local port reply on CHAN, remote reply on RCH, or the district's own SEQ (04 R87, R98; reset: -). -/
  origin : Origin := .port none
  /-- channel it arrived on (10 R248; reset: -). -/
  channel : BitVec 5 := 0
  /-- TIMEBASE at which it began to wait (04 R94; reset: -). -/
  since : Nat := 0
  /-- error code of Table K-30, answered in order (04 R88; reset: 0). -/
  error : BitVec 8 := 0
  deriving DecidableEq, Repr, Inhabited

/-- The part of a request received so far on one channel (04 R86). -/
structure Partial where
  /-- route token (04 R86; reset: none). -/
  route : Option (BitVec 32) := none
  /-- DISP of a page request (04 R106; reset: none). -/
  disp : Option (BitVec 32) := none
  /-- k[KA] as it stood when the PORT took the route token of a page request (04 R106; reset: 0). -/
  cap : BitVec 128 := 0
  /-- request token (04 R86; reset: none). -/
  request : Option (BitVec 32) := none
  /-- tag of the request token (MODEL'S OWN (08 R174); reset: none (log 8)). -/
  tag : Option (Nat × Nat) := none
  /-- operand words (04 R86; reset: []). -/
  operands : List (BitVec 32) := []
  deriving DecidableEq, Repr, Inhabited

/-- The run of a streaming port (04 R84, R85) or of a PORT stream (08 R185). -/
structure StreamRun where
  /-- a pattern is running (04 R84; reset: false). -/
  active : Bool := false
  /-- steps of the walk done (04 R84, 08 R182; reset: 0). -/
  pos : Nat := 0
  /-- words of the granule or element in progress (04 R85; reset: []). -/
  buf : List (BitVec 32) := []
  /-- bytes of a PORT's whole elements whose granule is not yet written (05 R109; reset: []). -/
  bytes : List (BitVec 8) := []
  /-- bytes of a PORT's walk written (05 R109; reset: 0). -/
  put : Nat := 0
  /-- the granule in progress is complete and not yet written (04 R85; reset: false). -/
  whole : Bool := false
  /-- it ends the tensor (04 R85; reset: false). -/
  endT : Bool := false
  /-- TIMEBASE at which the hold on full/empty began (04 R95; reset: none). -/
  since : Option Nat := none
  /-- the last token is formed; the run ends when it has left (08 R187; reset: false). -/
  ended : Bool := false
  /-- descriptor that overrides the configured fields for this run (08 R186; reset: none). -/
  desc : Option Descriptor := none
  /-- channel of the run (08 R186; reset: 0). -/
  chan : BitVec 5 := 0
  /-- the strm.bind that started it (08 R184; reset: none). -/
  owner : Option (Nat × BitVec 32 × BitVec 32) := none
  deriving DecidableEq, Repr, Inhabited

/-- A stream command in a port's scoreboard (08 R187). -/
structure StreamCmd where
  /-- true for strm.pbar (08 R183; reset: -). -/
  bar : Bool := false
  /-- the descriptor with START + g[ga] (08 R184; reset: -). -/
  desc : Descriptor := {}
  /-- channel (08 R184; reset: -). -/
  chan : BitVec 5 := 0
  /-- issuing SEQ (08 R184; reset: -). -/
  core : Nat := 0
  /-- PC (01 R39; reset: -). -/
  pc : BitVec 32 := 0
  /-- ECSN (01 R38; reset: -). -/
  ecsn : BitVec 32 := 0
  /-- plane bound at issue (08 R184; reset: -). -/
  plane : BitVec 2 := 0
  deriving DecidableEq, Repr, Inhabited

/-- One of the five ports of a memory tile (04 R81, R89, R94). -/
structure TilePort where
  /-- in-flight comparator, arrival order (04 R89; reset: empty). -/
  comparator : List TileReq := []
  /-- waiters (04 R94; reset: empty). -/
  waiters : List TileReq := []
  /-- requests that reply, in arrival order, with their reply words once known (04 R87, R89; reset: empty). -/
  replies : List (TileReq × Option (List (BitVec 32))) := []
  /-- requests being received (04 R86; reset: empty). -/
  partials : List (Nat × Partial) := []
  /-- streaming pattern (04 R84; reset: idle). -/
  stream : StreamRun := {}
  /-- scoreboard of stream commands (08 R187; reset: empty). -/
  score : List StreamCmd := []
  deriving DecidableEq, Repr, Inhabited

/-- The element state of a memory tile (04 R80-R95). -/
structure Tile where
  /-- N E S W V (04 R81; reset: idle). -/
  ports : Vector TilePort 5 := Vector.replicate 5 {}
  /-- port last granted in each bank (04 R90; reset: DESIGN CHOICE 4: N is served first (log 12)). -/
  grant : Vector Nat 8 := Vector.replicate 8 4
  /-- next request number (model's own; reset: 0). -/
  nextId : Nat := 0
  /-- requests sent straight by the district's SEQ (08 R174; reset: empty). -/
  seqQ : List TileReq := []
  deriving DecidableEq, Repr, Inhabited

/-- One slot of a rotation head's slot file (02 R43, Table K-11). -/
structure Slot where
  /-- STATE (02 R43; reset: EMPTY). -/
  state : SlotState := .empty
  /-- TAG (02 R43; reset: 0). -/
  tag : BitVec 24 := 0
  /-- PARK (02 R43; reset: 0). -/
  park : BitVec 32 := 0
  /-- OPND (02 R43; reset: 0). -/
  opnd : BitVec 32 := 0
  /-- OPV (02 R43; reset: 0). -/
  opv : Bool := false
  /-- OPMK (02 R43; reset: 0). -/
  opmk : BitVec 2 := 0
  /-- the staged token with its arrival, for last-arrival markers (22 R381; reset: empty). -/
  src : Held := {}
  deriving DecidableEq, Repr, Inhabited

/-- A rack command at a head: save or load in progress (02 R50, R54). -/
structure RackJob where
  /-- false save, true load (08 R192; reset: -). -/
  load : Bool := false
  /-- record address (08 R192; reset: -). -/
  addr : BitVec 37 := 0
  /-- remap table, none for identity (08 R192; reset: -). -/
  remap : Option (BitVec 37) := none
  /-- S' (08 R192; reset: -). -/
  slots : Nat := 0
  /-- g[ga] has nonzero unused bits (08 R192; reset: -). -/
  badBits : Bool := false
  /-- issuing SEQ (08 R192; reset: -). -/
  core : Nat := 0
  /-- PC (01 R39; reset: -). -/
  pc : BitVec 32 := 0
  /-- ECSN (01 R38; reset: -). -/
  ecsn : BitVec 32 := 0
  /-- visits made in the capture or loading revolution (02 R50; reset: 0). -/
  count : Nat := 0
  /-- REV at entry to SAVING (02 R50; reset: 0). -/
  rev : BitVec 32 := 0
  /-- LIVE mask (02 R52; reset: 0). -/
  live : BitVec 64 := 0
  /-- PARKED mask (02 R52; reset: 0). -/
  parked : BitVec 64 := 0
  /-- FAULTED mask (02 R52; reset: 0). -/
  faulted : BitVec 64 := 0
  /-- VALUE and PARK words recorded (02 R52; reset: []). -/
  vals : List (Nat × BitVec 32) := []
  /-- TAG words recorded (02 R52; reset: []). -/
  tags : List (Nat × BitVec 24) := []
  deriving DecidableEq, Repr, Inhabited

/-- The state of a rotation head (02 R43, Table K-11). -/
structure Head where
  /-- slot file (02 R43; reset: all EMPTY). -/
  slots : List (Nat × Slot) := []
  /-- MODE (02 R43; reset: RUNNING, or SAVED if STARTSAVED). -/
  mode : HeadMode := .running
  /-- CURS (02 R43; reset: SLOTS (field reset 2)). -/
  curs : Nat := 2
  /-- CURD (02 R43; reset: DELAY (field reset 0)). -/
  curd : Nat := 0
  /-- PHC (02 R43; reset: 0). -/
  phc : Nat := 0
  /-- REV (02 R43; reset: 0). -/
  rev : BitVec 32 := 0
  /-- STRAY (02 R43; reset: 0). -/
  stray : BitVec 16 := 0
  /-- announcement buffer (02 R48; reset: empty). -/
  ann : List Token := []
  /-- delay line (02 R41; reset: empty). -/
  delay : List (Option Token) := []
  /-- rack command being performed (02 R50; reset: none). -/
  job : Option RackJob := none
  /-- rack commands not yet checked (08 R192; reset: empty). -/
  queue : List RackJob := []
  deriving DecidableEq, Repr, Inhabited

/-- Digit-serial state of one handler (09 R219). -/
structure DigitState where
  /-- a number is open (09 R219; reset: closed). -/
  isOpen : Bool := false
  /-- W as a multiple of 16^wexp (09 R219; reset: 0). -/
  w : Int := 0
  /-- weight of w's unit (09 R219; reset: 0). -/
  wexp : Int := 0
  /-- weight exponent expected next (09 R219; reset: 0). -/
  k : Int := 0
  deriving DecidableEq, Repr, Inhabited

/-- The element state of a pipeline element (01 R22, Table K-4). -/
structure Pe where
  /-- held registers (01 R22; reset: 0). -/
  h : Vector (BitVec 32) 32 := Vector.replicate 32 0
  /-- accumulators (01 R22; reset: 0). -/
  acc : Vector (BitVec 32) 4 := Vector.replicate 4 0
  /-- scale registers (01 R22; reset: 0). -/
  scl : Vector (BitVec 32) 32 := Vector.replicate 32 0
  /-- pass counters (01 R22; reset: 0). -/
  pass : Vector Nat 8 := Vector.replicate 8 0
  /-- handler that fired last, of each priority and (4) of the promoted (01 R26; reset: DESIGN CHOICE none: handler 0 first (log 13)). -/
  last : Vector (Option Nat) 5 := Vector.replicate 5 none
  /-- CFLAGS (09 R211; reset: 0). -/
  cflags : Vector (BitVec 5) 8 := Vector.replicate 8 0
  /-- ordered-reduction stacks (09 R223; reset: empty). -/
  redStack : Vector (List (BitVec 32 × Nat)) 4 := Vector.replicate 4 []
  /-- digit-serial state (09 R219; reset: closed). -/
  digits : Vector DigitState 8 := Vector.replicate 8 {}
  /-- one-hot flags (09 R226; reset: clear). -/
  oneHot : Vector Bool 8 := Vector.replicate 8 false
  /-- requests not yet answered (quiet line) (09 R230; reset: 0). -/
  unanswered : Nat := 0
  /-- reply tokens reserved on each reply channel (15 R295; reset: empty). -/
  reserved : List (Nat × Nat) := []
  /-- rotation-head state (02 R43; reset: as listed). -/
  head : Head := {}
  /-- requests sent; the number of the latest (MODEL'S OWN (05 R108); reset: 0). -/
  reqNo : Nat := 0
  /-- requests sent and not yet performed or granted, oldest first: number, and tile and granule; none for a page request (MODEL'S OWN (04 R98; 05 R108, R111); reset: empty). -/
  sent : List (Nat × Option (Nat × Nat)) := []
  /-- a DONE waiting at E for the leaf's quiet line, with its link (09 R230; reset: none). -/
  donePend : Option (Nat × Token) := none
  deriving DecidableEq, Repr, Inhabited

/-- A last-arrival marker (22 R381). -/
structure Arrival where
  /-- the firing that it stands for (22 R381; reset: -). -/
  firing : Nat := 0
  /-- the operand channel whose token arrived last (22 R381; reset: -). -/
  ch : Nat := 0
  /-- TIMEBASE at its arrival (22 R381; reset: -). -/
  ns : Nat := 0
  /-- hidden firing number of that token (22 R381; reset: -). -/
  frm : Nat := 0
  /-- a SEQ issued that token (22 R381; reset: -). -/
  seq : Bool := false
  deriving DecidableEq, Repr, Inhabited

/-- A queued engine command (08 R188). -/
structure EngCmd where
  /-- g[ga] (08 R188; reset: -). -/
  cmd : BitVec 64 := 0
  /-- g[gb] (08 R188; reset: -). -/
  arg : BitVec 64 := 0
  /-- issuing SEQ (08 R188; reset: -). -/
  core : Nat := 0
  /-- PC (01 R39; reset: -). -/
  pc : BitVec 32 := 0
  /-- ECSN (01 R38; reset: -). -/
  ecsn : BitVec 32 := 0
  /-- plane bound at issue (08 R188; reset: -). -/
  plane : BitVec 2 := 0
  /-- source read at issue (08 R190; reset: none). -/
  src : Option Descriptor := none
  /-- destination read at issue (08 R190; reset: none). -/
  dst : Option Descriptor := none
  /-- step number at which it was issued (MODEL'S OWN (10 R235, R240); reset: 0). -/
  arr : Nat := 0
  /-- TIMEBASE at which it was issued (22 R381; reset: 0). -/
  ns : Nat := 0
  deriving DecidableEq, Repr, Inhabited

/-- A matrix node (10 R235-R241). -/
structure Mn where
  /-- active weight plane, key 64n+b (10 R234 text; reset: DESIGN CHOICE 0 (log 14)). -/
  active : List (Nat × BitVec 8) := []
  /-- shadow weight plane (10 R240; reset: DESIGN CHOICE 0 (log 14)). -/
  shadow : List (Nat × BitVec 8) := []
  /-- shadow state (10 R240; reset: EMPTY). -/
  shState : ShadowState := .empty
  /-- tokens of the fill in progress (10 R240; reset: 0). -/
  shCount : Nat := 0
  /-- the fill in progress is a token fill (10 R240; reset: false). -/
  shByToken : Bool := false
  /-- accumulators, key 64 bank + n (10 R238; reset: DESIGN CHOICE 0 (log 14)). -/
  acc : List (Nat × BitVec 32) := []
  /-- FLAGS (10 R238; reset: DESIGN CHOICE 0 (log 14)). -/
  flags : Vector (BitVec 5) 4 := Vector.replicate 4 0
  /-- POISON and its code (10 R238; reset: DESIGN CHOICE clear (log 14)). -/
  poison : Vector (Option (BitVec 32)) 4 := Vector.replicate 4 none
  /-- latched row with AFMT (10 R238; reset: none). -/
  row : Option (List (BitVec 8) × BitVec 4) := none
  /-- activation zero points (10 R239; reset: 0). -/
  za : Vector (BitVec 8) 8 := Vector.replicate 8 0
  /-- weight zero points (10 R239; reset: 0). -/
  zw : Vector (BitVec 8) 8 := Vector.replicate 8 0
  /-- the FULL shadow is POISONED, with its code (10 R240, 12 R259; reset: clear). -/
  shPoison : Option (BitVec 32) := none
  /-- the active plane is poisoned, with its code (12 R259; reset: DESIGN CHOICE clear (log 14)). -/
  actPoison : Option (BitVec 32) := none
  /-- zero-point poison code (10 R239; reset: clear). -/
  zpPoison : Option (BitVec 32) := none
  /-- steep queue (08 R188; reset: empty). -/
  steepQ : List EngCmd := []
  /-- mtok queue (08 R188; reset: empty). -/
  mtokQ : List EngCmd := []
  /-- control token taken and not yet executed (10 R235, R236; reset: none). -/
  cur : Option Held := none
  /-- data tokens it has taken from ACTCH so far (10 R236; reset: empty). -/
  rowbuf : List Held := []
  deriving DecidableEq, Repr, Inhabited

/-- An RO shape (10 R242). -/
structure RoShape where
  /-- OFF (10 Table K-120; reset: 0). -/
  off : BitVec 10 := 0
  /-- CNT0..2 (10 Table K-120; reset: 0). -/
  cnt : Vector (BitVec 10) 3 := Vector.replicate 3 0
  /-- STR0..2 (10 Table K-120; reset: 1, 0, 0). -/
  str : Vector (BitVec 10) 3 := #v[1, 0, 0]
  /-- DOUBLE (10 Table K-120; reset: 0). -/
  dbl : Bool := false
  deriving DecidableEq, Repr, Inhabited

/-- One tensor in an RO's buffer (10 R243). -/
structure RoTensor where
  /-- tokens arrived, in order (10 R243; reset: []). -/
  entries : List Token := []
  /-- output steps made (10 R243; reset: 0). -/
  sent : Nat := 0
  /-- the shape in force for it (10 R242; reset: -). -/
  shape : RoShape := {}
  /-- error to emit in place of the rest, with its PHASE (10 R243; reset: none). -/
  err : Option (BitVec 32 × BitVec 6) := none
  /-- when each token arrived, for last-arrival markers (22 R381; reset: []). -/
  times : List Nat := []
  /-- the token that ended the tensor with an error, for last-arrival markers (22 R381; reset: empty). -/
  ended : Held := {}
  /-- its last token is formed and has not yet left the element (10 R243; reset: false). -/
  formed : Bool := false
  deriving DecidableEq, Repr, Inhabited

/-- A reorder element (10 R242, R243). -/
structure Ro where
  /-- shape set by SHAPE, with the plane of INCH in which it holds (10 R253; reset: none: the plane's). -/
  shape : Option (BitVec 2 × RoShape) := none
  /-- tensors in the buffer, oldest first (10 R243; reset: []). -/
  tensors : List RoTensor := []
  /-- command queue (08 R188; reset: empty). -/
  queue : List EngCmd := []
  deriving DecidableEq, Repr, Inhabited

/-- A selection engine (10 R244-R247). -/
structure Sel where
  /-- keys in arrival order, true for a NaN key (10 R244; reset: empty). -/
  keys : List (BitVec 32 × Bool) := []
  /-- weights in arrival order (10 R244; reset: empty). -/
  weights : List (BitVec 32) := []
  /-- end-of-tensor has arrived on KEYCH (10 R244; reset: false). -/
  keyEnd : Bool := false
  /-- end-of-tensor has arrived on WCH (10 R244; reset: false). -/
  wEnd : Bool := false
  /-- the set was discarded; tokens are absorbed to their ends, and the set is then complete and empty (10 R244; reset: false). -/
  absorb : Bool := false
  /-- an error token ended the set: a query answers STATUS 1 (10 R244; reset: false). -/
  errored : Bool := false
  /-- command queue (08 R188; reset: empty). -/
  queue : List EngCmd := []
  deriving DecidableEq, Repr, Inhabited

/-- One field of a monitor (10 R248, R249; 03 R78). -/
structure MonField where
  /-- exact total in units of 2^-160 (03 R78; reset: DESIGN CHOICE 0 (log 15)). -/
  total : Int := 0
  /-- invalid bit (03 R78; reset: DESIGN CHOICE clear (log 15)). -/
  invalid : Bool := false
  /-- overflow bit (03 R78; reset: DESIGN CHOICE clear (log 15)). -/
  overflow : Bool := false
  /-- REF (10 R249; reset: 0). -/
  ref : BitVec 32 := 0
  /-- ABS (10 R249; reset: 0). -/
  abs : BitVec 32 := 0
  /-- REL (10 R249; reset: 0). -/
  rel : BitVec 32 := 0
  deriving DecidableEq, Repr, Inhabited

/-- A store-stream monitor (10 R248, R249). -/
structure Mon where
  /-- fields (10 R249; reset: as listed). -/
  fields : Vector MonField 8 := Vector.replicate 8 {}
  /-- armed set (10 R253; reset: DESIGN CHOICE 0 (log 15)). -/
  armed : BitVec 8 := 0
  /-- the ARM command: trap target, PC and ECSN (10 R253; reset: none). -/
  armer : Option EngCmd := none
  /-- command queue (08 R188; reset: empty). -/
  queue : List EngCmd := []
  deriving DecidableEq, Repr, Inhabited

/-- The RUN a decompression engine is performing (10 R252). -/
structure DecJob where
  /-- the RUN command (10 R253; reset: -). -/
  cmd : EngCmd := {}
  /-- source bytes read (10 R252; reset: 0). -/
  srcPos : Nat := 0
  /-- source bytes read and not yet decoded (10 R252; reset: []). -/
  buf : List (BitVec 8) := []
  /-- destination bytes written (10 R252; reset: 0). -/
  dstPos : Nat := 0
  /-- released bytes that are not yet written, in descriptor mode (10 R252; reset: []). -/
  raw : List (BitVec 8) := []
  /-- the block decoded and not yet released, with LAST, or the fault code with which it failed (10 R252; reset: none). -/
  ready : Option (BitVec 8 ⊕ Bool × List (BitVec 8)) := none
  /-- the block being released is the last: LAST, or the source ended (10 R252; reset: false). -/
  last : Bool := false
  /-- fault code of the command (10 R252; reset: none). -/
  fault : Option (BitVec 8) := none
  deriving DecidableEq, Repr, Inhabited

/-- A decompression engine (10 R250-R252). -/
structure Dec where
  /-- command in progress (10 R252; reset: none). -/
  job : Option DecJob := none
  /-- command queue (08 R188; reset: empty). -/
  queue : List EngCmd := []
  deriving DecidableEq, Repr, Inhabited

/-- The district's copy engine (08 R190). -/
structure Copy where
  /-- command queue; the head is the command in progress (08 R188; reset: empty). -/
  queue : List EngCmd := []
  /-- source bytes read for the head command (08 R190; reset: 0). -/
  srcPos : Nat := 0
  /-- source bytes read and not yet converted (08 R190; reset: []). -/
  inb : List (BitVec 8) := []
  /-- destination bytes written (08 R190; reset: 0). -/
  dstPos : Nat := 0
  /-- converted bytes not yet written (08 R190; reset: []). -/
  outb : List (BitVec 8) := []
  deriving DecidableEq, Repr, Inhabited

/-- One access at a PORT, of a SEQ, a pipeline element or an engine (08 R175, 04 R106, 17 R329). -/
structure Access where
  /-- object (17 R329; reset: -). -/
  obj : BitVec 24 := 0
  /-- object offset (17 R329; reset: -). -/
  offset : BitVec 40 := 0
  /-- bytes (17 R329; reset: -). -/
  size : Nat := 0
  /-- data of a write (17 R329; reset: none). -/
  write : Option (List (BitVec 8)) := none
  /-- bytes between those that an engine's granule write writes: their places in the data (05 R109; reset: none). -/
  holes : List Nat := []
  /-- rights the access carries (17 R329; reset: -). -/
  rights : BitVec 8 := 0
  /-- who issued it (17 R329; reset: -). -/
  issuer : Issuer := .seq 0
  /-- serial number of the SEQ instruction (08 R170; reset: -). -/
  op : Nat := 0
  /-- reply channel of a page request, or channel of a stream (04 R106; reset: -). -/
  rch : BitVec 5 := 0
  /-- a store that is acknowledged (REPLY = 1) (04 R106; reset: -). -/
  ack : Bool := false
  /-- incarnation of the issuing district (17 R343; reset: -). -/
  inc : BitVec 16 := 0
  /-- a held read that has been re-issued: these go in the order in which they were held (17 R335; reset: false). -/
  again : Bool := false
  /-- reply queue places its answer uses at a pipeline element (MODEL'S OWN (15 R295); reset: -). -/
  places : Nat := 1
  deriving DecidableEq, Repr, Inhabited

/-- One write in a PORT's side log (17 R333). -/
structure SideEntry where
  /-- the write (17 R333; reset: -). -/
  acc : Access := {}
  /-- FSN, none for a write held by a migration (17 R332, R340; reset: none). -/
  fsn : Option (BitVec 24) := none
  /-- a write held by a migration whose page has been rewritten and invalidated since (17 R340; reset: false). -/
  freed : Bool := false
  deriving DecidableEq, Repr, Inhabited

/-- A read held at a PORT by an unmapped page (17 R332, R335). -/
structure HeldRead where
  /-- the read (17 R332; reset: -). -/
  acc : Access := {}
  /-- FSN (17 R332; reset: -). -/
  fsn : BitVec 24 := 0
  deriving DecidableEq, Repr, Inhabited

/-- A district's PORT element (08 R185, 17 R329-R335). -/
structure Port where
  /-- side log (17 R333; reset: empty). -/
  sideLog : List SideEntry := []
  /-- held reads in the order they were held (17 R332; reset: empty). -/
  heldReads : List HeldRead := []
  /-- first-level translation cache (17 R330; reset: empty). -/
  tlb : List TlbEntry := []
  /-- scoreboard (08 R187; reset: empty). -/
  score : List StreamCmd := []
  /-- the bound stream in progress (08 R185; reset: idle). -/
  stream : StreamRun := {}
  /-- write commands that have accepted their last token and are not finished: their strm.bind (08 R187; reset: empty). -/
  closing : List (Nat × BitVec 32 × BitVec 32) := []
  /-- page requests being received (04 R106; reset: empty). -/
  partials : List (Nat × Partial) := []
  /-- RESUME tokens sent by the pager, by FSN (17 R335; reset: empty). -/
  resumeQ : List (BitVec 24) := []
  /-- tokens arriving from the base: LVC, die, token (17 R342; reset: empty). -/
  seals : List (BitVec 10 × BitVec 4 × Token) := []
  /-- accesses at the PORT not yet checked, oldest first (08 R175; reset: empty). -/
  accessQ : List Access := []
  /-- replies on their way back: incarnation of the request, access, data words, error code (17 R343; reset: empty). -/
  replyQ : List (BitVec 16 × Access × List (BitVec 32) × BitVec 8) := []
  /-- replies still to come to requests of launches that were killed, by their incarnation (17 R343; reset: empty). -/
  late : List (BitVec 16) := []
  deriving DecidableEq, Repr, Inhabited

/-- One plane slot of one element's configuration cache (01 R30, 06 R136). -/
structure Image where
  /-- field values, key 64 page + field, listed where written (06 R134; reset: reset values of the map). -/
  fields : List (Nat × BitVec 32) := []
  /-- HINIT and SINIT registers marked as initialised (09 R203; reset: none). -/
  marks : List Nat := []
  /-- the element has committed the slot's image (01 R30; reset: false). -/
  resident : Bool := false
  deriving DecidableEq, Repr, Inhabited

/-- The configuration stream open in a district (06 R135, R136). -/
structure CfgStream where
  /-- words received since BEGIN, latest first (06 R136; reset: []). -/
  words : List (BitVec 32) := []
  /-- cursor (06 R132; reset: none). -/
  cursor : Option Nat := none
  /-- HIGH of an EXTEND word just before (06 R133; reset: none). -/
  high : Option (BitVec 16) := none
  /-- district of the squares that the ADDR words name (06 R136; reset: none). -/
  home : Option Nat := none
  /-- plane slot that the ADDR words name (06 R136; reset: none). -/
  slot : Option (BitVec 2) := none
  /-- SOURCE slot if COPY = 1 (06 R135; reset: none). -/
  copy : Option (BitVec 2) := none
  /-- element index, key and value, in stream order (06 R136; reset: []). -/
  writes : List (Nat × Nat × BitVec 32) := []
  /-- FPAGE of each element in this stream (06 R134; reset: []). -/
  pages : List (Nat × Nat) := []
  /-- errors found so far, by order number (06 R137; reset: []). -/
  errors : List (BitVec 4) := []
  /-- held by SPARGEAWAIT (06 R135; reset: false). -/
  await : Bool := false
  deriving DecidableEq, Repr, Inhabited

/-- Everything a district holds: what a cask slot saves (16 R320). -/
structure District where
  /-- the sequencer core (06 R127; reset: as listed). -/
  core : Core := {}
  /-- instruction store (06 R120; reset: DESIGN CHOICE 0 (log 5)). -/
  istore : List Host.Cell := []
  /-- tile bytes, key tile ordinal x 2^19 + offset (04 R80; reset: DESIGN CHOICE 0 (log 5)). -/
  tileMem : List Host.Cell := []
  /-- full granules, key ordinal x 2^15 + granule, rising (04 R91; reset: empty (R91: no initial value)). -/
  full : List Nat := []
  /-- pipeline elements, key element index (R132) (01 R22; reset: as listed). -/
  pes : List (Nat × Pe) := []
  /-- memory tiles (04 R80; reset: as listed). -/
  tiles : List (Nat × Tile) := []
  /-- matrix nodes, key unit (10 R235; reset: as listed). -/
  mns : List (Nat × Mn) := []
  /-- reorder elements, key unit (10 R242; reset: as listed). -/
  ros : List (Nat × Ro) := []
  /-- selection engines, key unit (10 R244; reset: as listed). -/
  sels : List (Nat × Sel) := []
  /-- monitors, key unit (10 R248; reset: as listed). -/
  mons : List (Nat × Mon) := []
  /-- decompression engines, key unit (10 R250; reset: as listed). -/
  decs : List (Nat × Dec) := []
  /-- copy engine (08 R190; reset: idle). -/
  copier : Copy := {}
  /-- PORT element (17 R329; reset: as listed). -/
  port : Port := {}
  /-- plane images, key 4 x element index + slot (01 R30; reset: not resident). -/
  images : List (Nat × Image) := []
  /-- active plane slot of each channel, key 32 x element index + channel (01 R32; reset: slot 0). -/
  active : List (Nat × BitVec 2) := []
  /-- planes already used by an element, key 4 x index + slot (01 R33; reset: none). -/
  used : List Nat := []
  /-- of each element and channel, how many of the switches that the element owes the channel has taken (01 R32; reset: none). -/
  recon : List (Nat × List (Nat × Nat)) := []
  /-- of each element, the switches that the configuration tree has told it and that it has still to pass on, oldest first: outgoing and named slot (01 R32; 08 R181; reset: none). -/
  owed : List (Nat × List (BitVec 2 × BitVec 2)) := []
  /-- skid buffers, key (4 x index + link) x 32 + channel (01 R18; reset: empty). -/
  skid : List (Nat × List Held) := []
  /-- tokens an element has formed and not yet emitted, with their link (09 R208; reset: empty). -/
  outq : List (Nat × List (Nat × Token)) := []
  /-- configuration-cache fetches under way, key element index (01 R34; reset: none). -/
  fetching : List (Nat × BitVec 2) := []
  /-- of each element, the configuration tree's words that it holds until the slot of the first is resident, oldest first: outgoing and named slot (15 R299, 01 R32; reset: none). -/
  treeHold : List (Nat × List (BitVec 2 × BitVec 2)) := []
  /-- open configuration stream (06 R135; reset: closed). -/
  cfg : CfgStream := {}
  /-- streams held behind the open one (06 R138; reset: empty). -/
  cfgHeld : List (List (BitVec 32)) := []
  /-- report of the last COMMIT (06 R137; reset: none). -/
  cfgError : Option (BitVec 4) := none
  /-- images in the region's configuration store, key 4 x index + slot (01 R30, 15 R285; reset: empty). -/
  stored : List (Nat × Image) := []
  /-- elements sealed in a husk (17 R342; reset: none). -/
  sealed : List Nat := []
  /-- performance counters (22 R378; reset: DESIGN CHOICE 0 (log 16)). -/
  perf : Vector (BitVec 48) 4 := Vector.replicate 4 0
  /-- selected events (22 R378; reset: DESIGN CHOICE 0: counts nothing (log 16)). -/
  perfSel : Vector (BitVec 16) 4 := Vector.replicate 4 0
  /-- last-arrival markers by element index (22 R381; reset: none). -/
  lastArr : List (Nat × List Arrival) := []
  /-- firings of each element since capture was armed (22 R381; reset: none). -/
  fired : List (Nat × Nat) := []
  /-- TIMEBASE to which the counter of boosted ns has been brought (MODEL'S OWN (22 R378); reset: 0 (log 16)). -/
  perfAt : Nat := 0
  deriving DecidableEq, Repr, Inhabited

/-- A placed LEAF record (14 R267, R270). -/
structure Leaf where
  /-- leaf number (14 R267; reset: -). -/
  id : Nat := 0
  /-- node (14 R267; reset: -). -/
  node : Nat := 0
  /-- element numbers as placed (14 R267; reset: -). -/
  elems : List Nat := []
  deriving DecidableEq, Repr, Inhabited

/-- A placed edge of one plane (14 R269, 15 R290). -/
structure Edge where
  /-- source element number (14 R267; reset: -). -/
  src : Nat := 0
  /-- destination element number (14 R267; reset: -). -/
  dst : Nat := 0
  /-- channel (14 R267; reset: -). -/
  ch : BitVec 5 := 0
  /-- plane (15 R286; reset: -). -/
  plane : BitVec 2 := 0
  /-- SOUT (14 R269; reset: -). -/
  sout : BitVec 8 := 0xFF#8
  /-- DPORT (14 R269; reset: -). -/
  dport : BitVec 8 := 0xFF#8
  /-- link virtual channel of a cut edge (15 R290; reset: none). -/
  lvc : Option (BitVec 10) := none
  deriving DecidableEq, Repr, Inhabited

/-- A NODE record as placed (14 R267, R270). -/
structure Node where
  /-- district it runs on (14 R270; reset: -). -/
  dist : Nat := 0
  /-- ENTRY (14 R267; reset: -). -/
  entry : BitVec 32 := 0
  /-- STACK in 16-byte units (14 R267; reset: -). -/
  stack : Nat := 0
  /-- parent node (14 R267; reset: -). -/
  parent : Option Nat := none
  /-- KIND (14 R267; reset: -). -/
  kind : BitVec 8 := 0
  /-- LAG (14 R267; reset: -). -/
  lag : BitVec 8 := 0
  deriving DecidableEq, Repr, Inhabited

/-- What a load puts into a district (15 R285; 14 R266). -/
structure MashPart where
  /-- district (15 R285; reset: -). -/
  dist : Nat := 0
  /-- instruction store (14 R266; reset: -). -/
  istore : List Host.Cell := []
  /-- plane images (15 R285; reset: -). -/
  images : List (Nat × Image) := []
  /-- configuration store (15 R285; reset: -). -/
  stored : List (Nat × Image) := []
  deriving DecidableEq, Repr, Inhabited

/-- A loaded region (16 R306, R311-R320). -/
structure Region where
  /-- LOADID (16 R306; reset: -). -/
  loadId : BitVec 32 := 0
  /-- owning partition (16 R306; reset: -). -/
  part : BitVec 6 := 0
  /-- districts, rising (15 R285; reset: -). -/
  districts : List Nat := []
  /-- controller nodes, by id (14 R267; reset: -). -/
  nodes : List Node := []
  /-- leaves (14 R267; reset: -). -/
  leaves : List Leaf := []
  /-- placed edges, all planes (15 R285; reset: -). -/
  edges : List Edge := []
  /-- DATA records: region tile address and bytes (14 R273; reset: -). -/
  data : List (Nat × List (BitVec 8)) := []
  /-- CAP records: KREG, node, capability (14 R267; reset: -). -/
  caps : List (Nat × Option Nat × BitVec 128) := []
  /-- OBJECT records: number and size (14 R267; reset: -). -/
  objects : List (Nat × Nat) := []
  /-- root PRIORITY (14 R271; reset: -). -/
  priority : BitVec 3 := 0
  /-- root ESTIMATE (14 R271; reset: -). -/
  estimate : BitVec 32 := 0
  /-- padding elements (15 R296; reset: -). -/
  padding : List Nat := []
  /-- idle, running, draining, saved (16 R318; reset: idle). -/
  status : RegionStatus := .idle
  /-- dependence entry of the running instance (16 R312; reset: none). -/
  entry : Option Nat := none
  /-- trigger that requested it (16 R309; reset: none). -/
  trigger : Option (Nat × BitVec 32) := none
  /-- running time, saved time excluded (16 R318; reset: 0). -/
  ranNs : Nat := 0
  /-- TIMEBASE of the latest start (16 R318; reset: 0). -/
  startedAt : Nat := 0
  /-- a husk formed in this launch (17 R342; reset: false). -/
  failed : Bool := false
  /-- region plane (07 R165; reset: 0 (R286: first plane is slot 0)). -/
  plane : BitVec 2 := 0
  /-- power-token pool (01 R25; reset: DESIGN CHOICE 0: filled at the next interval (log 17)). -/
  pool : Nat := 0
  /-- fired in the current 4 us interval (19 R358; reset: false). -/
  firedNow : Bool := false
  /-- requested level W (19 R358; reset: 2 (V2 after commit)). -/
  want : Nat := 2
  /-- current level C (19 R358; reset: 2). -/
  level : Nat := 2
  /-- level whose rates hold during a ramp (01 R29; reset: none). -/
  ramp : Option Nat := none
  /-- boost permits (19 R358 text; reset: 64). -/
  permits : Nat := 64
  /-- latest configuration step of this launch on each plane: SEQ, PC, ECSN (01 R39; reset: none (set at a launch)). -/
  evStep : List (Nat × Nat × BitVec 32 × BitVec 32) := []
  /-- latest engine command of this launch bound to each plane: SEQ, PC, ECSN (01 R39; reset: none (set at a launch)). -/
  evCmd : List (Nat × Nat × BitVec 32 × BitVec 32) := []
  /-- arrivals of each phase-barrier group in order: the SEQ, and the count that it names (08 R180; reset: none). -/
  phase : List (Nat × List (Nat × Nat)) := []
  /-- the start token has been given (01 R20; reset: false). -/
  started : Bool := false
  /-- its context is in the cask (16 R320; reset: false). -/
  saved : Bool := false
  /-- halted for a gang switch or a save (16 R321; reset: false). -/
  gangHalt : Bool := false
  /-- a checkpoint has been begun and paid for, and its halt waits for a SEQ (MODEL'S OWN (16 R318, R320); reset: false). -/
  haltAsked : Bool := false
  /-- the incarnation number of its running instance; a cask restore keeps it (17 R343; reset: 0 (set at a launch)). -/
  inc : BitVec 16 := 0
  /-- the mash as it was loaded (15 R285; reset: - (set at load)). -/
  mash : List MashPart := []
  /-- its instance was killed: the next launch commits the mash again (16 R318; reset: false). -/
  recommit : Bool := false
  /-- a saved instance was draining when it was saved (16 R318; reset: false). -/
  drains : Bool := false
  /-- TIMEBASE of the latest save (the binding timer stands still while saved) (16 R323; reset: 0). -/
  savedAt : Nat := 0
  deriving DecidableEq, Repr, Inhabited

/-- A trigger bank (16 R308-R310). -/
structure Bank where
  /-- BANKCFG (16 Table D-5; reset: 0). -/
  cfg : BitVec 64 := 0
  /-- triggers between PROGRESS and TAIL: number, record, completed (16 R308; reset: empty). -/
  fifo : List (BitVec 32 × List (BitVec 8) × Bool) := []
  /-- triggers the scheduler has taken, modulo 2^32 (16 R309; reset: 0). -/
  taken : BitVec 32 := 0
  /-- TAIL.COUNT (16 Table D-6; reset: 0). -/
  tail : BitVec 32 := 0
  /-- PROGRESS.COUNT (16 Table D-6; reset: 0). -/
  progress : BitVec 32 := 0
  /-- COUNT as committed before the switch-out, which PROGRESS reads while SUSPENDED is 1 (16 R310; reset: 0 (as PROGRESS)). -/
  frozen : BitVec 32 := 0
  /-- BANKSTAT.FAILED (16 Table D-6; reset: 0). -/
  failed : BitVec 16 := 0
  /-- BANKSTAT.DROPPED (16 Table D-6; reset: 0). -/
  dropped : BitVec 16 := 0
  /-- BANKSTAT.LASTERR (16 Table D-6; reset: 0). -/
  lastErr : BitVec 8 := 0
  /-- PROGRESS.SUSPENDED (16 Table D-6; reset: 0). -/
  suspended : Bool := false
  deriving DecidableEq, Repr, Inhabited

/-- A partition (16 R317, 17 R327). -/
structure Partition where
  /-- PARTWS (16 R317; reset: DESIGN CHOICE 0: not VALID (log 18)). -/
  ws : BitVec 64 := 0
  /-- PARTCTL.BINDTO (16 Table D-9; reset: 0). -/
  bindto : BitVec 16 := 0
  /-- PARTCTL.TOKENS (16 Table D-9; reset: 0). -/
  tokens : BitVec 8 := 0
  /-- PARTCTL.TOKMAX (16 Table D-9; reset: 16). -/
  tokMax : BitVec 8 := 16
  /-- PARTCTL.TOKRATE (16 Table D-9; reset: 1). -/
  tokRate : BitVec 8 := 1
  /-- OTCFG (17 Table D-14; reset: 0). -/
  otcfg : BitVec 64 := 0
  deriving DecidableEq, Repr, Inhabited

/-- District registers and the kiln's runs (19 R353-R355, 22 R375). -/
structure DistReg where
  /-- DTEMP.TEMP (19 Table D-30; reset: DESIGN CHOICE 0 (log 19)). -/
  temp : BitVec 16 := 0
  /-- DVOLT.MV (19 Table D-30; reset: DESIGN CHOICE 0 (log 19)). -/
  mv : BitVec 12 := 0
  /-- DRING.COUNT (19 Table D-30; reset: DESIGN CHOICE 0 (log 19)). -/
  ring : BitVec 16 := 0
  /-- DTHROT.STEP (19 Table D-30; reset: 0). -/
  step : Nat := 0
  /-- DTHROT.FWSTEP (19 Table D-30; reset: 0). -/
  fwstep : BitVec 3 := 0
  /-- DLEVEL.GRANT (19 Table D-30; reset: 2). -/
  grant : BitVec 3 := 2
  /-- DLEVEL.WANT (19 Table D-30; reset: 2). -/
  want : BitVec 3 := 2
  /-- DLEVEL.PERMITS (19 Table D-30; reset: 64). -/
  permits : BitVec 7 := 64
  /-- DALLOT.TOKENS (19 Table D-30; reset: 250,000). -/
  allot : BitVec 24 := 250000
  /-- start of the run above TTHROT, or the later last change of STEP (19 R355; reset: none). -/
  hotSince : Option Nat := none
  /-- start of the run below TTHROT - 3 C, or the later last change (19 R355; reset: none). -/
  coolSince : Option Nat := none
  /-- past TCRIT (19 R355; reset: false). -/
  crit : Bool := false
  /-- DSENS mirror (22 Table F-1; reset: GRANT 2, the rest 0). -/
  mirror : BitVec 64 := 0x2000000000000000#64
  /-- incarnation number (17 R343; reset: DESIGN CHOICE 0 (log 20)). -/
  incarnation : BitVec 16 := 0
  /-- marked for retirement (22 R376; reset: false). -/
  retiring : Bool := false
  /-- RETIRED (22 R376; reset: false). -/
  retired : Bool := false
  deriving DecidableEq, Repr, Inhabited

/-- A page fault pending at the pager (17 R332-R336). -/
structure PageFault where
  /-- FSN (17 R332; reset: -). -/
  fsn : BitVec 24 := 0
  /-- partition (17 R332; reset: -). -/
  part : BitVec 6 := 0
  /-- object (17 R332; reset: -). -/
  obj : BitVec 24 := 0
  /-- page (17 R332; reset: -). -/
  page : BitVec 24 := 0
  /-- faulting district (17 R332; reset: -). -/
  dist : Nat := 0
  /-- incarnation of the faulting access (17 R343; reset: -). -/
  inc : BitVec 16 := 0
  /-- class: data or control (17 R332; reset: -). -/
  dataClass : Bool := false
  /-- whether the access writes (17 R332; reset: -). -/
  write : Bool := false
  /-- TIMEBASE at which its record reached the pager (17 R336; reset: -). -/
  since : Nat := 0
  /-- its RECLAIM notification has been written (17 R336; reset: false). -/
  notified : Bool := false
  /-- a software fault: its SWFAULT notification has been written (17 R334; reset: false). -/
  software : Bool := false
  /-- its FSN has been written to PGRESOLVE (17 R334; reset: false). -/
  resolved : Bool := false
  deriving DecidableEq, Repr, Inhabited

/-- The migration engine (17 R340). -/
structure Migration where
  /-- MIGSRC (17 Table D-14; reset: 0). -/
  src : BitVec 64 := 0
  /-- MIGDST of the running migration (17 Table D-14; reset: 0). -/
  frame : BitVec 36 := 0
  /-- MIGST.ERR (17 Table D-14; reset: 0). -/
  err : BitVec 8 := 0
  /-- MIGST.STATE (17 Table D-14; reset: 0). -/
  state : BitVec 2 := 0
  /-- the page entry as step 1 wrote it (17 R340; reset: 0). -/
  entry : BitVec 64 := 0
  /-- PART, OBJ and PAGE of the running migration, as MIGSRC stood at its start (17 R340; reset: 0). -/
  page : BitVec 64 := 0
  deriving DecidableEq, Repr, Inhabited

/-- Paging registers and the pager (17 Table D-14). -/
structure Paging where
  /-- HOTTH (17 Table D-14; reset: 0). -/
  hotth : BitVec 16 := 0
  /-- PGDEADLINE (17 Table D-14; reset: 1,000). -/
  deadline : BitVec 32 := 1000
  /-- FPCFG (17 Table D-14; reset: 0). -/
  fpcfg : BitVec 64 := 0
  /-- FPCOUNT (17 Table D-14; reset: 0). -/
  fpcount : BitVec 24 := 0
  /-- NQBASE (17 Table D-14; reset: 0). -/
  nqbase : BitVec 64 := 0
  /-- NQCTL (17 Table D-14; reset: LOG2N 4, the rest 0). -/
  nqctl : BitVec 64 := 0x400000000#64
  /-- NQHEAD (17 Table D-14; reset: 0). -/
  nqhead : BitVec 32 := 0
  /-- NQTAIL (17 Table D-14; reset: 0). -/
  nqtail : BitVec 32 := 0
  /-- NQLOST (17 Table D-14; reset: 0). -/
  nqlost : BitVec 32 := 0
  /-- LATEDROP (17 Table D-14; reset: 0). -/
  latedrop : BitVec 32 := 0
  /-- TLBINV under way (17 Table D-14; reset: none: BUSY 0). -/
  tlbinv : Option (BitVec 64) := none
  /-- next fault serial number (17 R332; reset: DESIGN CHOICE 0 (log 20)). -/
  fsn : BitVec 24 := 0
  /-- pending faults (17 R332; reset: empty). -/
  faults : List PageFault := []
  /-- migration (17 R340; reset: idle). -/
  mig : Migration := {}
  /-- second-level caches, key die (17 R330; reset: empty). -/
  l2 : List (Nat × List TlbEntry) := []
  deriving DecidableEq, Repr, Inhabited

/-- Gang schedule (16 R321, R322). -/
structure Gang where
  /-- GANGEPOCH (16 R321; reset: DESIGN CHOICE 0 (log 18)). -/
  epoch : BitVec 64 := 0
  /-- GANGN (16 R321; reset: DESIGN CHOICE 0: off (log 18)). -/
  n : BitVec 7 := 0
  /-- GANGENT (16 R321; reset: DESIGN CHOICE 0 (log 18)). -/
  ent : List (Nat × BitVec 64) := []
  /-- writes waiting for the next instant: offset and value (16 R322; reset: none). -/
  next : List (BitVec 20 × BitVec 64) := []
  /-- GANGSTAT.INDEX (16 Table D-10; reset: 0). -/
  index : BitVec 6 := 0
  /-- GANGSTAT.SKIPPED (16 Table D-10; reset: 0). -/
  skipped : Bool := false
  /-- GANGSTAT.RAISED (16 Table D-10; reset: 0). -/
  raised : Bool := false
  /-- the next slice instant (16 R321; reset: none: no schedule runs). -/
  due : Option Nat := none
  /-- partition of the current slice (16 R321; reset: none). -/
  part : Option (BitVec 6) := none
  deriving DecidableEq, Repr, Inhabited

/-- A launch asked for (16 R312, R319). -/
structure Ask where
  /-- dependence entry (16 R312; reset: -). -/
  entry : Nat := 0
  /-- counted in PENDING: it waits for the entry's instance to end (16 R312; reset: -). -/
  pending : Bool := false
  /-- bank and number of the trigger that asked (16 R309; reset: -). -/
  trigger : Option (Nat × BitVec 32) := none
  deriving DecidableEq, Repr, Inhabited

/-- A mash in Birgil's cache (15 R289), as placed in the shape of the grants that correspond. -/
structure CachedMash where
  /-- HASH of the grist and the request (14 R279; reset: -). -/
  hash : BitVec 256 := 0
  /-- the shape of the grants for which it was placed (15 R289; reset: -). -/
  grant : List Nat := []
  /-- what Birgil decided (15 R285; reset: -). -/
  mash : Config.Mash := default
  deriving DecidableEq, Repr, Inhabited

/-- Host-interface registers (16 R304-R325). -/
structure HostRegs where
  /-- DRAINTH (16 R318; reset: 20,000). -/
  drainth : BitVec 32 := 20000
  /-- LOADBUSY bit 0 (16 R306; reset: 0). -/
  loadBusy : Bool := false
  /-- LOADBUSY.CMDIGN (16 R306; reset: 0). -/
  cmdIgn : Bool := false
  /-- LOADCMD of the running load (16 R306; reset: none). -/
  loadcmd : Option (List (BitVec 8)) := none
  /-- DEPERR (16 R311; reset: DESIGN CHOICE 0 (log 18)). -/
  deperr : BitVec 12 := 0
  /-- BINDST (16 R324; reset: 0 (pending, R324 gives no reset: DESIGN CHOICE, log 18)). -/
  bindst : BitVec 8 := 0
  /-- DBST.ERR (16 R325; reset: DESIGN CHOICE 0 (log 18)). -/
  dbErr : Bool := false
  /-- doorbells held for a saved region: district, partition (16 R325; reset: none). -/
  bellHeld : List (Nat × BitVec 6) := []
  /-- UNLOADST (16 R307; reset: DESIGN CHOICE 0 (log 18)). -/
  unloadSt : BitVec 2 := 0
  /-- MSI-X vectors signalled, oldest first (16 R304; reset: empty). -/
  msix : List (BitVec 7) := []
  /-- bank the scheduler serves next (16 R309; reset: DESIGN CHOICE 0: bank 0 first (log 18)). -/
  rr : Nat := 0
  /-- the UNLOAD write that is pending (16 R307; reset: none). -/
  unload : Option (BitVec 64) := none
  /-- the BINDCMD write that is pending (16 R324; reset: none). -/
  bind : Option (BitVec 64) := none
  /-- launches asked for, in the order their counts reached zero; those that PENDING counts among them (16 R309, R312, R319; reset: empty). -/
  waiting : List Ask := []
  /-- Birgil's cache, the latest used first (15 R289; reset: empty: HBM lists nothing (DESIGN CHOICE, log 5)). -/
  mashes : List CachedMash := []
  /-- LOADID of the next successful load (16 R306; reset: DESIGN CHOICE 1 (log 18)). -/
  nextLoad : BitVec 32 := 1
  deriving DecidableEq, Repr, Inhabited

/-- The kiln controller and its management registers (19 R352-R361). -/
structure Kiln where
  /-- COOL.MEDIUM (19 Table D-29; reset: 0). -/
  medium : BitVec 4 := 0
  /-- COOL.FLOW (19 Table D-29; reset: 0). -/
  flow : BitVec 16 := 0
  /-- COOL.INLET (19 Table D-29; reset: 0). -/
  inlet : BitVec 16 := 0
  /-- COOL.STALE (19 Table D-29; reset: 1). -/
  stale : Bool := true
  /-- COOL.MODE (19 Table D-29; reset: 0). -/
  mode : BitVec 2 := 0
  /-- COOL.ROW (19 Table D-29; reset: 0). -/
  row : BitVec 3 := 0
  /-- TIMEBASE of the last board report (19 R356; reset: none). -/
  lastReport : Option Nat := none
  /-- LIMTAB, key 8 mode + row (19 Table D-31; reset: 0). -/
  limtab : List (Nat × BitVec 64) := []
  /-- the row in force, as latched at the latest 1 us interval (19 R356; reset: 0). -/
  limNow : BitVec 64 := 0
  /-- its key 8 mode + row (19 R356; reset: 0). -/
  limKey : Nat := 0
  /-- MODPWR (19 Table D-29; reset: 0). -/
  modpwr : BitVec 16 := 0
  /-- MODTHROT.STEP (19 Table D-29; reset: 0). -/
  modStep : Nat := 0
  /-- run above PCEIL (19 R355; reset: none). -/
  modHot : Option Nat := none
  /-- run below 95 % of PCEIL (19 R355; reset: none). -/
  modCool : Option Nat := none
  /-- BOOSTW (19 Table D-29; reset: 12). -/
  boostw : BitVec 16 := 12
  /-- ALERTST bits (19 Table D-29; reset: 0). -/
  alertst : BitVec 5 := 0
  /-- ALERTST.DIST (19 Table D-29; reset: 0). -/
  alertDist : BitVec 10 := 0
  /-- ALERTEN (19 Table D-29; reset: 0). -/
  alerten : BitVec 5 := 0
  /-- DGSTAT.HEAD (19 Table D-29; reset: 0). -/
  head : Vector (BitVec 16) 4 := Vector.replicate 4 0
  /-- DGSTAT.TIEPREF (19 Table D-29; reset: 0x3FF). -/
  tiepref : Vector (BitVec 10) 4 := Vector.replicate 4 0x3FF#10
  /-- DGSTAT.WATTS (19 Table D-29; reset: 0). -/
  gwatts : Vector (BitVec 16) 4 := Vector.replicate 4 0
  deriving DecidableEq, Repr, Inhabited

/-- Boot, crypto and attestation (19 R362-R366). -/
structure Boot where
  /-- BOOTST.STATE (19 R362; reset: 1 ROM). -/
  state : BitVec 4 := 1
  /-- BOOTST.SLOT (19 Table D-29; reset: DESIGN CHOICE 0: slot A is read first (log 21)). -/
  slot : Bool := false
  /-- BOOTST.ERRA (19 Table D-29; reset: 0 none). -/
  errA : BitVec 8 := 0
  /-- BOOTST.ERRB (19 Table D-29; reset: 0 none). -/
  errB : BitVec 8 := 0
  /-- BOOTST.GOREADY written (19 Table D-29; reset: 0). -/
  goready : Bool := false
  /-- SVN of the running image (19 R365; reset: DESIGN CHOICE 0: no image runs (log 21)). -/
  svn : BitVec 32 := 0
  /-- MEAS (19 R362; reset: DESIGN CHOICE 0 (log 21)). -/
  meas : Vector (BitVec 256) 8 := Vector.replicate 8 0
  /-- IDE stream keys (19 R364; reset: DESIGN CHOICE 0 (log 21)). -/
  ideKeys : Vector (BitVec 256) 8 := Vector.replicate 8 0
  /-- crypto command running (19 R364; reset: none: BUSY 0). -/
  cbusy : Option (List (BitVec 8)) := none
  /-- CRYPTOST.RESULT (19 Table D-29; reset: 0). -/
  cresult : Bool := false
  /-- CRYPTOST.ERR (19 Table D-29; reset: 0). -/
  cerr : BitVec 8 := 0
  /-- MEAS as it stood when the latest SIGN began (19 R366; reset: DESIGN CHOICE 0: no SIGN has begun (log 21)). -/
  signMeas : Vector (BitVec 256) 8 := Vector.replicate 8 0
  /-- ATTESTREQ address (19 R366; reset: DESIGN CHOICE 0 (log 21)). -/
  attReq : BitVec 64 := 0
  /-- ATTESTST (19 R366; reset: 0 idle). -/
  attSt : BitVec 2 := 0
  deriving DecidableEq, Repr, Inhabited

/-- Fleet registers (22 R377-R382). -/
structure Fleet where
  /-- REPLACE_REQUESTED (22 Table F-2; reset: 0). -/
  replace : Bool := false
  /-- SYSFAULT (22 Table F-2; reset: 0). -/
  sysfault : Bool := false
  /-- REPLTH (22 Table F-2; reset: 620). -/
  replth : BitVec 10 := 620
  /-- PERFSEL writes waiting for their 1 us boundary: its TIMEBASE and the value (22 R379; reset: none). -/
  perfsel : List (Nat × BitVec 64) := []
  /-- CTRQ under way: the TIMEBASE at which it latches and the value (22 R380; reset: none: BUSY 0). -/
  ctrq : Option (Nat × BitVec 64) := none
  /-- CTRRES (22 R380; reset: DESIGN CHOICE 0 (log 16)). -/
  ctrres : BitVec 64 := 0
  /-- CTRST.ERR (22 R380; reset: DESIGN CHOICE 0 (log 16)). -/
  ctrerr : BitVec 2 := 0
  /-- CTRST.N (22 R380; reset: DESIGN CHOICE 0 (log 16)). -/
  ctrn : BitVec 10 := 0
  /-- CPCAP (22 R381; reset: DESIGN CHOICE 0 (log 16)). -/
  cpcap : BitVec 64 := 0
  /-- CPST state (22 R381; reset: 0). -/
  cpst : BitVec 2 := 0
  /-- CPST records (22 R381; reset: DESIGN CHOICE 0 (log 16)). -/
  cpn : BitVec 7 := 0
  /-- sink of the armed capture (22 R381; reset: -). -/
  cpSink : Nat := 0
  /-- firing ordinal of the armed capture (22 R381; reset: -). -/
  cpOrd : Nat := 0
  /-- TRCCTL (22 R382; reset: DESIGN CHOICE 0: off (log 16)). -/
  trcctl : BitVec 64 := 0
  /-- TRCHEAD (22 R382; reset: 0 (as NQHEAD)). -/
  trchead : BitVec 32 := 0
  /-- TRCTAIL (22 R382; reset: 0 (as NQTAIL)). -/
  trctail : BitVec 32 := 0
  /-- TRCLOST (22 R382; reset: 0 (as NQLOST)). -/
  trclost : BitVec 32 := 0
  /-- TRCSAMP (22 R382; reset: DESIGN CHOICE 0: off (log 16)). -/
  trcsamp : BitVec 32 := 0
  deriving DecidableEq, Repr, Inhabited

/-- An unrecoverable fault to be sealed (17 R341, Table D-21). -/
structure Husk where
  /-- containment code (17 Table D-21; reset: -). -/
  code : BitVec 8 := 0
  /-- region scope (17 Table D-21; reset: -). -/
  region : Bool := false
  /-- faulted element number (its district's SEQ slot for a SEQ) (17 R342; reset: -). -/
  elem : Nat := 0
  /-- plane active on the channel of the fault (01 R39; reset: -). -/
  plane : BitVec 2 := 0
  /-- SEQID, PC and ECSN of the command or instruction whose access was at fault; none for an event of the fabric (01 R39; reset: none). -/
  name : Option (Nat × BitVec 32 × BitVec 32) := none
  deriving DecidableEq, Repr, Inhabited

/-- The whole module. -/
structure State where
  /-- districts 0-639; 1023 is the management core with its four-tile store (01 R11, 19 R349; reset: as listed). -/
  districts : List (Nat × District) := []
  /-- saved contexts, key 2 x district + slot (16 R320; reset: empty). -/
  cask : List (Nat × District) := []
  /-- LOADID whose context a cask slot holds (16 R320; reset: none). -/
  caskOwner : List (Nat × BitVec 32) := []
  /-- loaded regions (16 R306; reset: none loaded). -/
  regions : List Region := []
  /-- district registers (19 Table D-30; reset: as listed). -/
  regs : List (Nat × DistReg) := []
  /-- HBM bytes, by address (04, 17 R328; reset: DESIGN CHOICE 0 (log 5)). -/
  hbm : List Host.Cell := []
  /-- host memory bytes, by host physical address (04, 17 R328; reset: DESIGN CHOICE 0 (log 5)). -/
  host : List Host.Cell := []
  /-- weight stores, key die x 2^34 + offset (04 R100; reset: DESIGN CHOICE 0 (log 5)). -/
  ws : List Host.Cell := []
  /-- scheduler memory behind BAR 4: dependence and batch tables (16 Table D-2; reset: DESIGN CHOICE 0 (log 5)). -/
  sched : List Host.Cell := []
  /-- boot flash, key slot x 2^32 + offset (19 R362; reset: DESIGN CHOICE 0 (log 5)). -/
  flash : List Host.Cell := []
  /-- HOT of each die (04 R101 Table K-33; reset: 0). -/
  hot : Vector Bool 16 := Vector.replicate 16 false
  /-- trigger banks (16 R308; reset: as listed). -/
  banks : List (Nat × Bank) := []
  /-- partitions (16 R317; reset: as listed). -/
  parts : List (Nat × Partition) := []
  /-- host-interface registers (16; reset: as listed). -/
  hostif : HostRegs := {}
  /-- gang schedule (16 R321; reset: as listed). -/
  gang : Gang := {}
  /-- paging and the pager (17 Table D-14; reset: as listed). -/
  paging : Paging := {}
  /-- kiln controller (19 R352; reset: as listed). -/
  kiln : Kiln := {}
  /-- boot, crypto, attestation (19 R362; reset: as listed). -/
  boot : Boot := {}
  /-- fleet registers (22; reset: as listed). -/
  fleet : Fleet := {}
  /-- module time in ns (06 R128 TIMEBASE; reset: DESIGN CHOICE 0 (log 6)). -/
  timebase : Nat := 0
  /-- next 1 us interval (19 R354; reset: DESIGN CHOICE: first multiple after reset (log 6)). -/
  nextPower : Nat := 1000
  /-- next 10 us refresh (19 R355; reset: DESIGN CHOICE (log 6)). -/
  nextSense : Nat := 10000
  /-- next 4 us boundary (01 R29, 19 R358; reset: DESIGN CHOICE (log 6)). -/
  nextBoost : Nat := 4000
  /-- next HOT decision (04 R101; reset: first multiple of 64,000). -/
  nextHot : Nat := 64000
  /-- next 1 ms priority-token refill (16 R317; reset: DESIGN CHOICE (log 6)). -/
  nextTok : Nat := 1000000
  /-- next PC sample (22 R382; reset: DESIGN CHOICE (log 6)). -/
  nextTrace : Nat := 0
  /-- unrecoverable faults whose husk has not yet sealed, oldest first (17 R341, R342; reset: empty). -/
  husks : List Husk := []
  /-- steps taken; index of the free values (MODEL'S OWN (free values); reset: DESIGN CHOICE 0 (log 2)). -/
  tick : Nat := 0
  /-- the core that issues the next instruction (MODEL'S OWN (which core acts); reset: DESIGN CHOICE: the management core, the only core that runs at reset (log 3)). -/
  core : Nat := 1023
  /-- who acts next: cores and events, first first (MODEL'S OWN (which agent acts); reset: DESIGN CHOICE: empty (log 3)). -/
  agenda : List Turn := []
  deriving DecidableEq, Repr, Inhabited
/-- What stops the machine. Every trap, fabric fault and containment of the spec is a next state; these remain. -/
inductive Fault where
  /-- Raised by no meaning at present: kept for an access to an address that the spec says does not exist and for
  which it names neither a trap, an error reply nor a containment. Safe: the machine stops where hardware goes on. -/
  | noSuchAddress (space : String) (addr : Nat)
  deriving DecidableEq, Repr, Inhabited

/-- Why an instruction has no meaning in this model. -/
inductive Refusal where
  /-- Raised by a dispatch arm whose instruction is not modelled yet. Safe: the machine stops. -/
  | notModelled (mnemonic : String)
  /-- Raised by a decoder entry that a bare term outside the decoder's range reaches (an ill-formed term). Safe. -/
  | illFormed (what : String)
  deriving DecidableEq, Repr, Inhabited

/-- k0 of the management core: the four tiles of the management store, with the rights R, W, A, T, S and D (19 R349). -/
def mgmtK0 : BitVec 128 := 0#16 ++ 0x200000#40 ++ 0#40 ++ 0x3F#8 ++ 0xFFFFFF#24

/-- The module right after a cold reset, before the ROM has run (19 R362 step 1): the fabric holds nothing, no region
is loaded, BOOTST.STATE is 1 (ROM), and the management core, the one core of the machine that is not held, is at
address 0 with PRIV.LEVEL 1 (06 R127). The ROM's run is the event COLD_RESET. -/
def State.reset : State :=
  { districts := [(1023, { core := { level1 := true, running := true, k := (Vector.replicate 16 0).set 0 mgmtK0 } })] }

end Sys2Proof.Machine
end

