-- ==== Sys2Proof/Machine/Table.lean ====
section
/-! DEFINITION. Sparse tables kept as lists with rising keys, memories in their one canonical form, byte order
(00 R4: little-endian), sets of numbers. -/

namespace Sys2Proof.Machine

/-- The entry of a key. -/
def tget {α : Type} (k : Nat) : List (Nat × α) → Option α
  | [] => none
  | (j, a) :: t => if j = k then some a else tget k t

/-- The entry of a key, or the default. -/
def tgetD {α : Type} [Inhabited α] (k : Nat) (t : List (Nat × α)) : α := (tget k t).getD default

/-- Sets the entry of a key, keeping keys rising. -/
def tset {α : Type} (k : Nat) (a : α) : List (Nat × α) → List (Nat × α)
  | [] => [(k, a)]
  | (j, b) :: t => if k < j then (k, a) :: (j, b) :: t else if j = k then (k, a) :: t else (j, b) :: tset k a t

/-- Removes every entry of a key. -/
def terase {α : Type} (k : Nat) : List (Nat × α) → List (Nat × α)
  | [] => []
  | (j, b) :: t => if j = k then terase k t else (j, b) :: terase k t

/-- Changes the entry of a key, which counts as the default where it is not listed. -/
def tmod {α : Type} [Inhabited α] (k : Nat) (f : α → α) (t : List (Nat × α)) : List (Nat × α) := tset k (f (tgetD k t)) t

/-- Adds a number to a rising list of numbers. -/
def nadd (n : Nat) : List Nat → List Nat
  | [] => [n]
  | m :: t => if n < m then n :: m :: t else if m = n then m :: t else m :: nadd n t

/-- Removes a number. -/
def ndel (n : Nat) (l : List Nat) : List Nat := l.filter (· ≠ n)

/-- The byte at an address; an unlisted address reads 0 (log 5). -/
def mget (a : Nat) (m : Memory) : Byte := (tget a m).getD 0

/-- Writes one byte, keeping the canonical form: rising addresses, no zero listed. -/
def mput (a : Nat) (v : Byte) (m : Memory) : Memory := if v = 0 then terase a m else tset a v m

/-- Reads n bytes, lowest address first. -/
def mgets (a : Nat) : Nat → Memory → List Byte
  | 0, _ => []
  | n + 1, m => mget a m :: mgets (a + 1) n m

/-- Writes bytes, lowest address first. -/
def mputs (a : Nat) : List Byte → Memory → Memory
  | [], m => m
  | b :: bs, m => mputs (a + 1) bs (mput a b m)

/-- Keys rise strictly, starting above `lo`. -/
def risingFrom : Nat → List Nat → Bool
  | _, [] => true
  | lo, k :: t => decide (lo ≤ k) && risingFrom (k + 1) t

/-- The canonical form of a memory: addresses strictly rising, and no byte listed that an unlisted address reads as. -/
def Memory.wf (m : Memory) : Bool := risingFrom 0 (m.map Prod.fst) && m.all fun c => c.2 != 0

/-- The number a little-endian list of bytes holds (00 R4). -/
def leNat : List Byte → Nat
  | [] => 0
  | b :: bs => b.toNat + 256 * leNat bs

/-- The n low bytes of a number, little-endian. -/
def leBytes : Nat → Nat → List Byte
  | 0, _ => []
  | n + 1, v => BitVec.ofNat 8 v :: leBytes n (v / 256)

/-- The n bytes at an address as a number. -/
def mgetN (a n : Nat) (m : Memory) : Nat := leNat (mgets a n m)

/-- Writes the n low bytes of a number. -/
def mputN (a n v : Nat) (m : Memory) : Memory := mputs a (leBytes n v) m

/-- The 32-bit words of a list of bytes, four at a time; a last short group is padded with zeros. -/
def wordsOf : Nat → List Byte → List W32
  | 0, _ => []
  | n + 1, bs => BitVec.ofNat 32 (leNat (bs.take 4)) :: wordsOf n (bs.drop 4)

/-- The bytes of 32-bit words, little-endian. -/
def bytesOfWords (ws : List W32) : List Byte := ws.flatMap fun w => leBytes 4 w.toNat

/-- Bits [hi:lo] of a number. -/
def nbits (v hi lo : Nat) : Nat := v / 2 ^ lo % 2 ^ (hi - lo + 1)

/-- Element i of a list, or the default. -/
def nth {α : Type} [Inhabited α] (i : Nat) : List α → α
  | [] => default
  | a :: t => match i with
    | 0 => a
    | j + 1 => nth j t

/-- Replaces element i of a list. -/
def setNth {α : Type} (i : Nat) (x : α) : List α → List α
  | [] => []
  | a :: t => match i with
    | 0 => x :: t
    | j + 1 => a :: setNth j x t

/-- Removes element i of a list. -/
def delNth {α : Type} (i : Nat) : List α → List α
  | [] => []
  | a :: t => match i with
    | 0 => t
    | j + 1 => a :: delNth j t

/-- The first element that meets a test, with its position. -/
def findPos {α : Type} (p : α → Bool) : List α → Option (Nat × α)
  | [] => none
  | a :: t => if p a then some (0, a) else (findPos p t).map fun (i, x) => (i + 1, x)

/-- Removes the first element that meets a test. -/
def delFirst {α : Type} (p : α → Bool) : List α → List α
  | [] => []
  | a :: t => if p a then t else a :: delFirst p t

/-- Element i of a vector; beyond its end the default. -/
def vget {α : Type} [Inhabited α] {n : Nat} (v : Vector α n) (i : Nat) : α := if h : i < n then v[i]'h else default

/-- Replaces element i of a vector; beyond its end nothing happens. -/
def vset {α : Type} {n : Nat} (v : Vector α n) (i : Nat) (x : α) : Vector α n := if h : i < n then v.set i x h else v

end Sys2Proof.Machine
end

