-- ==== Sys2Proof/Machine/Geom.lean ====
section
/-! DEFINITION. Where things stand on the module: districts, squares, spine slots, links, tile ordinals
(00 R7, 01 R10-R12, 04 R97, 06 R132). -/

namespace Sys2Proof.Machine

/-- The kinds of element (01 R10, Table K-1). The copy engine shares the SEQ's slot. -/
inductive Kind where
  | pe
  | mt
  | mn
  | ro
  | sel
  | mon
  | dec
  | seq
  | port
  deriving DecidableEq, Repr, Inhabited

/-- The district of an element number. -/
def elemDist (e : Nat) : Nat := e / 520

/-- The element index within its district (06 R132). -/
def elemIdx (e : Nat) : Nat := e % 520

/-- The element number of an index in a district. -/
def elemAt (d idx : Nat) : Nat := 520 * d + idx

/-- The row offset of an element index. -/
def idxRow (i : Nat) : Nat := i / 26

/-- The column offset of an element index; 25 is the spine. -/
def idxCol (i : Nat) : Nat := i % 26

/-- The element index of the spine slot at a row offset (01 Table K-1). -/
def spineIdx (unit : Nat) : Nat := 26 * unit + 25

/-- The element index of the sequencer slot. -/
def seqIdx : Nat := spineIdx 18

/-- The number that stands for the copy engine among a district's sealed elements: it shares the SEQ's slot (08 R188). -/
def copierIdx : Nat := 520

/-- The element index of the PORT. -/
def portIdx : Nat := spineIdx 19

/-- The kind of an element index (01 R10, Table K-1). -/
def idxKind (i : Nat) : Kind :=
  let r := idxRow i
  if idxCol i = 25 then
    if r < 8 then .mn else if r < 12 then .ro else if r < 14 then .sel else if r < 16 then .mon
    else if r < 18 then .dec else if r = 18 then .seq else .port
  else if (r + idxCol i) % 2 = 0 then .pe else .mt

/-- The ordinal of a tile within its district (04 R97). -/
def tileOrd (i : Nat) : Nat := 25 * (idxRow i / 2) + 12 * (idxRow i % 2) + idxCol i / 2

/-- The element index of the tile of an ordinal: even rows hold 12 tiles, odd rows 13 (01 R10, 04 R97). -/
def tileIdx (ord : Nat) : Nat :=
  let h := ord % 25
  if h < 12 then 26 * (2 * (ord / 25)) + (2 * h + 1) else 26 * (2 * (ord / 25) + 1) + 2 * (h - 12)

/-- The die of a district (00 R7). -/
def distDie (d : Nat) : Nat := d / 40

/-- The band of rows of a district on its die. -/
def distBand (d : Nat) : Nat := d % 40 / 8

/-- The band of columns of a district on its die. -/
def distCol (d : Nat) : Nat := d % 8

/-- Row of an element on its die (00 R7). -/
def elemRow (e : Nat) : Nat := 20 * distBand (elemDist e) + idxRow (elemIdx e)

/-- Column of an element on its die (00 R7). -/
def elemCol (e : Nat) : Nat := 26 * distCol (elemDist e) + idxCol (elemIdx e)

/-- The element at a die, row and column (00 R7); none outside the module. -/
def elemOf (die row col : Nat) : Option Nat :=
  if die < 16 ∧ row < 100 ∧ col < 208 then
    some (elemAt (40 * die + 8 * (row / 20) + col / 26) (26 * (row % 20) + col % 26))
  else none

/-- The neighbour over a link: 0 north (the row above), 1 east, 2 south, 3 west; none at the die's edge (01 R12). -/
def neighbour (e link : Nat) : Option Nat :=
  let die := distDie (elemDist e)
  let r := elemRow e
  let c := elemCol e
  match link with
  | 0 => if r = 0 then none else elemOf die (r - 1) c
  | 1 => elemOf die r (c + 1)
  | 2 => elemOf die (r + 1) c
  | 3 => if c = 0 then none else elemOf die r (c - 1)
  | _ => none

/-- The link over which a token sent on a link arrives. -/
def opposite (link : Nat) : Nat := (link + 2) % 4

/-- The key of a skid buffer: link and channel of an element (01 R18). -/
def skidKey (idx link ch : Nat) : Nat := (4 * idx + link) * 32 + ch

end Sys2Proof.Machine
end

