-- ==== Sys2Proof/Machine/Links.lean ====
section
/-! DEFINITION. Access to the parts of the state, configuration fields, skid buffers, emission of tokens, and how a
fault of the fabric is recorded (01 R12-R20, R32; 06 R132; 17 R341). -/

namespace Sys2Proof.Machine

/-- The key of the management core in `State.districts` (19 R349). -/
def mgmtCore : Nat := 1023

/-- A district. -/
def State.dist (s : State) (d : Nat) : District := tgetD d s.districts

/-- Replaces a district. -/
def State.setDist (s : State) (d : Nat) (x : District) : State := { s with districts := tset d x s.districts }

/-- Changes a district. -/
def State.modDist (s : State) (d : Nat) (f : District → District) : State := s.setDist d (f (s.dist d))

/-- The SEQ core of a district, or the management core. -/
def State.coreOf (s : State) (c : Nat) : Core := (s.dist c).core

/-- Replaces a core. -/
def State.setCore (s : State) (c : Nat) (x : Core) : State := s.setDist c { s.dist c with core := x }

/-- Changes a core. -/
def State.modCore (s : State) (c : Nat) (f : Core → Core) : State := s.setCore c (f (s.coreOf c))

/-- The district registers of a district (19 R353). -/
def State.distReg (s : State) (d : Nat) : DistReg := tgetD d s.regs

/-- Changes the district registers of a district. -/
def State.modReg (s : State) (d : Nat) (f : DistReg → DistReg) : State := { s with regs := tmod d f s.regs }

/-- The loaded region that occupies a district now: not one whose context is in the cask (16 R320). -/
def State.regionAt (s : State) (d : Nat) : Option Region :=
  s.regions.find? fun r => !r.saved && r.districts.contains d

/-- The loaded region of a LOADID. -/
def State.regionOf (s : State) (load : BitVec 32) : Option Region := s.regions.find? fun r => r.loadId == load

/-- Changes a loaded region. -/
def State.modRegion (s : State) (load : BitVec 32) (f : Region → Region) : State :=
  { s with regions := s.regions.map fun r => if r.loadId == load then f r else r }

/-- The root SEQ of a region: that of its lowest-numbered district (01 R36). -/
def Region.root (r : Region) : Nat := r.districts.headD 0

/-- The place of a district among the districts of its region (04 R97). -/
def Region.ordinal (r : Region) (d : Nat) : Nat := r.districts.idxOf d

/-- The region plane in force in a district (07 R165); 0 without a region. -/
def State.planeAt (s : State) (d : Nat) : BitVec 2 := ((s.regionAt d).map (·.plane)).getD 0

/-- The active plane slot of a channel of an element (01 R32). -/
def District.slotOf (x : District) (idx ch : Nat) : BitVec 2 := (tget (32 * idx + ch) x.active).getD 0

/-- The image of a plane slot of an element. -/
def District.image (x : District) (idx slot : Nat) : Image := tgetD (4 * idx + slot) x.images

/-- A configuration field of an image, by page and number, with its reset value. -/
def Image.field (im : Image) (page f reset : Nat) : Nat :=
  match tget (64 * page + f) im.fields with
  | some v => v.toNat
  | none => reset

/-- A field of an element in the plane of one of its channels. -/
def District.chField (x : District) (idx ch page f reset : Nat) : Nat :=
  (x.image idx (x.slotOf idx ch).toNat).field page f reset

/-- A field of an element in the region plane: what belongs to no channel (07 R165; DEDUCED, log 32). -/
def State.planeField (s : State) (d idx page f reset : Nat) : Nat :=
  ((s.dist d).image idx (s.planeAt d).toNat).field page f reset

/-- The page of an element's router map (04 R83, 09 R205, 10 R233, R234). -/
def routerPage : Kind → Nat
  | .pe => 5
  | .seq => 0
  | .port => 0
  | _ => 1

/-- The route entry of a channel on a link at an element's router: 0 none, 1 to 4 a link, 5 deliver (09 Table K-103). -/
def District.route (x : District) (idx link ch : Nat) : Nat :=
  let i := 32 * link + ch
  x.chField idx ch (routerPage (idxKind idx)) (i / 4) 0 / 16 ^ (i % 4) % 16

/-- Tokens in a skid buffer, head first. -/
def District.buf (x : District) (idx link ch : Nat) : List Held := tgetD (skidKey idx link ch) x.skid

/-- Replaces a skid buffer. -/
def District.setBuf (x : District) (idx link ch : Nat) (b : List Held) : District :=
  { x with skid := if b.isEmpty then terase (skidKey idx link ch) x.skid else tset (skidKey idx link ch) b x.skid }

/-- The head of a skid buffer of an element. -/
def State.headAt (s : State) (e link ch : Nat) : Option Held := ((s.dist (elemDist e)).buf (elemIdx e) link ch).head?

/-- The route of an element number's link and channel. -/
def State.routeOf (s : State) (e link ch : Nat) : Nat := (s.dist (elemDist e)).route (elemIdx e) link ch

/-- Control-token codes (01 Table K-3). -/
abbrev ctlReconfig : Nat := 1
abbrev ctlResume : Nat := 2
abbrev ctlDone : Nat := 3
abbrev ctlSeal : Nat := 4

/-- The code of a control token; 0 for a token of any other kind. -/
def Token.code (t : Token) : Nat := if t.kind = 3 then nbits t.data.toNat 31 24 else 0

/-- The argument of a control token. -/
def Token.arg (t : Token) : BitVec 24 := t.data.setWidth 24

/-- Removes the head of a skid buffer. -/
def State.popAt (s : State) (e link ch : Nat) : State :=
  s.modDist (elemDist e) fun x => x.setBuf (elemIdx e) link ch ((x.buf (elemIdx e) link ch).drop 1)

/-- Records an unrecoverable fault, whose husk has still to seal, with the name of the command at fault (17 R341, R342; 01
R39). -/
def State.containAs (s : State) (code : BitVec 8) (region : Bool) (e : Nat) (plane : BitVec 2)
    (name : Option (Nat × BitVec 32 × BitVec 32)) : State :=
  { s with husks := s.husks ++ [{ code := code, region := region, elem := e, plane := plane, name := name }] }

/-- Records an unrecoverable fault of the fabric. -/
def State.contain (s : State) (code : BitVec 8) (region : Bool) (e : Nat) (plane : BitVec 2) : State :=
  s.containAs code region e plane none

/-- Containment codes (17 Table D-21). -/
abbrev codeKind : BitVec 8 := 0x01
abbrev codeMnctl : BitVec 8 := 0x02
abbrev codeRoute : BitVec 8 := 0x03
abbrev codeBind : BitVec 8 := 0x04
abbrev codeWsAccess : BitVec 8 := 0x05
abbrev codeWsReadonly : BitVec 8 := 0x06
abbrev codePageExhausted : BitVec 8 := 0x07
abbrev codeBadPte : BitVec 8 := 0x08
abbrev codeDoubleTrap : BitVec 8 := 0x09
abbrev codeSoftError : BitVec 8 := 0x0A
abbrev codeRetired : BitVec 8 := 0x0B

/-- Whether routers of a district's region accept tokens: not at V0 (01 R29). -/
def State.accepts (s : State) (d : Nat) : Bool :=
  match s.regionAt d with
  | some r => r.level != 0
  | none => true

/-- BOUND of a virtual-channel entry of a pipeline element (09 Table K-100). -/
def vceBound (v : Nat) : Bool := v.testBit 15

/-- The join channels that a handler's G word names (09 Table K-106). -/
def joinsOf (gword : Nat) : List Nat :=
  match nbits gword 31 26 with
  | 2 => [nbits gword 24 20]
  | 3 => [nbits gword 24 20, nbits gword 12 8]
  | _ => []

/-- Places behind a skid buffer of two: a pipeline element has a reply queue of 8 tokens for each reply-class channel that
it takes (15 R295). -/
def District.queuePlaces (x : District) (idx link ch : Nat) : Nat :=
  let im := x.image idx (x.slotOf idx ch).toNat
  if idxKind idx = .pe ∧ 24 ≤ ch ∧ x.route idx link ch = 5 ∧
      (vceBound (im.field 1 ch 0) = true ∨ ((List.range 8).any fun h => (joinsOf (im.field 0 (6 * h) 0)).contains ch) = true)
  then 8 else 0

/-- Whether the element over a link has room on a channel (01 R18). -/
def State.room (s : State) (e link ch : Nat) : Bool :=
  match neighbour e link with
  | none => true
  | some n =>
    let x := s.dist (elemDist n)
    s.accepts (elemDist n) &&
      decide ((x.buf (elemIdx n) (opposite link) ch).length < 2 + x.queuePlaces (elemIdx n) (opposite link) ch)

/-- Moves a token over a link into the next router's skid buffer. A link that the router does not have takes the
token to no router: it is discarded with the fault ROUTE (01 R12, 09 R205). -/
def State.hop (s : State) (e link : Nat) (t : Token) : State :=
  match neighbour e link with
  | none => s.contain codeRoute false e ((s.dist (elemDist e)).slotOf (elemIdx e) t.channel.toNat)
  | some n => s.modDist (elemDist n) fun x =>
      x.setBuf (elemIdx n) (opposite link) t.channel.toNat
        (x.buf (elemIdx n) (opposite link) t.channel.toNat ++ [{ arr := s.tick, ns := s.timebase, tok := t }])

/-- What an element has formed and not yet emitted: link and token, in order (09 R208). -/
def State.outOf (s : State) (e : Nat) : List (Nat × Token) := tgetD (elemIdx e) (s.dist (elemDist e)).outq

/-- Replaces it. -/
def State.setOut (s : State) (e : Nat) (l : List (Nat × Token)) : State :=
  s.modDist (elemDist e) fun x =>
    { x with outq := if l.isEmpty then terase (elemIdx e) x.outq else tset (elemIdx e) l x.outq }

/-- Emits what has room, in order on each link and channel; `stuck` holds the link and channel of earlier tokens that
wait, `kept` those tokens, latest first (01 R18, R19). -/
def drainGo (e : Nat) : List (Nat × Token) → List (Nat × BitVec 5) → List (Nat × Token) → State → State
  | [], _, kept, s => s.setOut e kept.reverse
  | (l, t) :: rest, stuck, kept, s =>
    if stuck.contains (l, t.channel) || !s.room e l t.channel.toNat then
      drainGo e rest ((l, t.channel) :: stuck) ((l, t) :: kept) s
    else drainGo e rest stuck kept (s.hop e l t)

/-- A region fires (20 R367). -/
def State.markFired (s : State) (d : Nat) : State :=
  match s.regionAt d with
  | some r => if r.firedNow then s else s.modRegion r.loadId fun r => { r with firedNow := true }
  | none => s

/-- Emits what an element has formed as far as there is room; a reorder or decompression element whose token leaves makes
its region fire (20 R367). -/
def State.drain (s : State) (e : Nat) : State :=
  if (s.outOf e).isEmpty then s
  else
    let s1 := drainGo e (s.outOf e) [] [] s
    let k := idxKind (elemIdx e)
    if (k = .ro ∨ k = .dec) ∧ (s1.outOf e).length < (s.outOf e).length then s1.markFired (elemDist e) else s1

/-- Adds tokens to what an element has formed and emits what has room. -/
def State.emit (s : State) (e : Nat) (ts : List (Nat × Token)) : State :=
  if ts.isEmpty then s else (s.setOut e (s.outOf e ++ ts)).drain e

/-- A data token. -/
def dataTok (ch : BitVec 5) (v : W32) (mk : BitVec 2 := 0) (ph : BitVec 6 := 0) : Token :=
  { kind := 0, phase := ph, marker := mk, channel := ch, data := v }

/-- An error end-of-stream token with a code (01 R17). -/
def errTok (ch : BitVec 5) (code : Nat) (ph : BitVec 6 := 0) : Token :=
  { kind := 0, phase := ph, marker := 3, channel := ch, data := BitVec.ofNat 32 code }

/-- The delivered token at the head of a channel of an element that meets a test: the oldest arrival among the links
whose route for that channel is code 5 (09 R205, 10 R235), with its link. -/
def District.delivered (x : District) (idx ch : Nat) (p : Token → Bool) : Option (Nat × Held) :=
  ([0, 1, 2, 3].filterMap fun l =>
    if x.route idx l ch = 5 then ((x.buf idx l ch).head?.filter fun h => p h.tok).map fun h => (l, h) else none).foldl
    (fun acc q => match acc with
      | none => some q
      | some r => if q.2.arr < r.2.arr then some q else some r) none

/-- A data token. -/
def Token.isData (t : Token) : Bool := t.kind == 0

/-- A token that a handler takes as an operand: data, or a reply (01 R14, R24). -/
def Token.isOperand (t : Token) : Bool := t.kind == 0 || t.kind == 2

/-- The delivered token of an element number's channel. -/
def State.deliveredAt (s : State) (e ch : Nat) (p : Token → Bool) : Option (Nat × Held) :=
  (s.dist (elemDist e)).delivered (elemIdx e) ch p

/-- The name of an event on a plane (01 R39): the latest configuration step of the launch on that plane, else the latest
engine command bound to it (DEDUCED, log 33), else the root SEQ with PC all ones and ECSN 0. -/
def Region.eventName (r : Region) (plane : BitVec 2) : Nat × BitVec 32 × BitVec 32 :=
  match tget plane.toNat r.evStep with
  | some e => e
  | none => match tget plane.toNat r.evCmd with
    | some e => e
    | none => (r.root, 0xFFFFFFFF#32, 0#32)

end Sys2Proof.Machine
end

