-- ==== Sys2Proof/Machine/Wait.lean ====
section
/-! DEFINITION. Ports of a memory tile and what waits at them for a granule's full/empty bit (04 R80-R85, R92-R95). -/

namespace Sys2Proof.Machine

/-- The key of a granule of a district's tiles. -/
def granKey (ord gran : Nat) : Nat := ord * 2 ^ 15 + gran

/-- Whether a granule is full. -/
def District.isFull (x : District) (ord gran : Nat) : Bool := x.full.contains (granKey ord gran)

/-- The tile of an element number. -/
def State.tile (s : State) (e : Nat) : Tile := tgetD (elemIdx e) (s.dist (elemDist e)).tiles

/-- A port of a tile. -/
def State.tport (s : State) (e p : Nat) : TilePort := vget (s.tile e).ports p

/-- Changes a tile. -/
def State.modTile (s : State) (e : Nat) (f : Tile → Tile) : State :=
  s.modDist (elemDist e) fun x => { x with tiles := tmod (elemIdx e) f x.tiles }

/-- Changes a port of a tile. -/
def State.modPort (s : State) (e p : Nat) (f : TilePort → TilePort) : State :=
  s.modTile e fun t => { t with ports := vset t.ports p (f (vget t.ports p)) }

/-- A field of a port of a tile in the region plane. -/
def State.portField (s : State) (e port f reset : Nat) : Nat :=
  s.planeField (elemDist e) (elemIdx e) 0 (12 * port + f) reset

/-- CFGBASE of a tile. -/
def State.tileCfgBase (s : State) (e : Nat) : Nat := s.planeField (elemDist e) (elemIdx e) 0 62 0x6000

/-- The granule that a request addresses. -/
def TileReq.gran (r : TileReq) : Nat := r.offset.toNat / 16

/-- One that waits for a granule's full/empty bit at a port: a request, or the port's own stream (none); class 0 keep,
1 take, 2 fill. -/
structure Wait where
  port : Nat
  req : Option TileReq
  gran : Nat
  cls : Nat
  deriving DecidableEq, Repr, Inhabited

/-- The class in which a request would wait (04 R92). -/
def TileReq.cls (r : TileReq) : Nat := if r.op = 1 then 2 else if r.feq = 1 then 0 else 1

/-- Whether a request must wait, the granule being full or not (04 R92). -/
def TileReq.mustWait (r : TileReq) (full : Bool) : Bool :=
  if r.op = 1 then r.feq == 2 && full else r.feq != 0 && !full

/-- The pattern that a streaming port walks: base, counts and strides, FEMODE (04 R82, 08 R186). -/
structure Pattern where
  base : Nat
  cnt0 : Nat
  str0 : Int
  cnt1 : Nat
  str1 : Int
  fe : Nat
  deriving DecidableEq, Repr, Inhabited

/-- The pattern in force at a port. -/
def State.pattern (s : State) (e p : Nat) : Pattern :=
  match (s.tport e p).stream.desc with
  | some d =>
    { base := nbits d.start.toNat 18 4, cnt0 := d.cnt[0].toNat, str0 := d.str[0].toInt / 16, cnt1 := d.cnt[1].toNat
      str1 := d.str[1].toInt / 16, fe := d.fe.toNat }
  | none =>
    { base := s.portField e p 4 0, cnt0 := s.portField e p 5 0, str0 := (BitVec.ofNat 16 (s.portField e p 6 1)).toInt
      cnt1 := s.portField e p 7 0, str1 := (BitVec.ofNat 16 (s.portField e p 8 0)).toInt, fe := s.portField e p 2 0 }

/-- The granule of a step of a pattern, the inner index running fastest. -/
def Pattern.gran (q : Pattern) (pos : Nat) : Int :=
  q.base + (pos / (q.cnt0 + 1) : Nat) * q.str1 + (pos % (q.cnt0 + 1) : Nat) * q.str0

/-- The steps of a pattern. -/
def Pattern.steps (q : Pattern) : Nat := (q.cnt0 + 1) * (q.cnt1 + 1)

/-- The granule at which a port's stream stands, where it may touch it (04 R84, R85). -/
def State.streamGran (s : State) (e p : Nat) : Option Nat :=
  let g := (s.pattern e p).gran (s.tport e p).stream.pos
  let lo := s.portField e p 9 0
  let hi := s.portField e p 10 0x5FFF
  if (lo : Int) ≤ g ∧ g ≤ (hi : Int) ∧ g < (s.tileCfgBase e : Int) then some g.toNat else none

/-- Whether a port is configured as a write stream. -/
def State.isWriteStream (s : State) (e p : Nat) : Bool := s.portField e p 0 0 == 1 && s.portField e p 1 0 == 1

/-- The stream of a port as one that waits (04 R95). -/
def State.streamWait (s : State) (e p : Nat) : Option Wait :=
  if (s.tport e p).stream.since.isSome then
    (s.streamGran e p).map fun g =>
      { port := p, req := none, gran := g
        cls := if s.isWriteStream e p then 2 else if (s.pattern e p).fe = 1 then 0 else 1 }
  else none

/-- What waits at a port, oldest first. Where a stream began to hold at the instant a request arrived the stream
stands first, and of waiters whose time is out the first unserved one of the list times out (DESIGN CHOICE, log 141:
04 R94 gives no order for equal instants). -/
def State.waits (s : State) (e p : Nat) : List Wait :=
  let t := s.tport e p
  let item (r : TileReq) : Wait := { port := p, req := some r, gran := r.gran, cls := r.cls }
  match s.streamWait e p, t.stream.since with
  | some w, some n =>
    ((t.waiters.filter fun r => r.since < n).map item) ++ [w] ++ ((t.waiters.filter fun r => n ≤ r.since).map item)
  | _, _ => t.waiters.map item

/-- What waits at a tile, ports in the order N, E, S, W, V. -/
def State.allWaits (s : State) (e : Nat) : List Wait := (List.range 5).flatMap (s.waits e)

/-- Whether a granule of a tile is full. -/
def State.granFull (s : State) (e g : Nat) : Bool := (s.dist (elemDist e)).isFull (tileOrd (elemIdx e)) g

/-- Whether a waiter may be served now: its granule has the bit that it waits for (04 R92, R93). -/
def State.servable (s : State) (e : Nat) (w : Wait) : Bool :=
  if w.cls = 2 then !s.granFull e w.gran else s.granFull e w.gran

/-- Whether a granule has waiters to be served before any request that arrived later (04 R93). -/
def State.waking (s : State) (e g : Nat) : Bool := (s.allWaits e).any fun w => w.gran == g && s.servable e w

/-- Whether waiters are to be served first at one of the granules that n bytes of a tile touch (04 R93). -/
def State.wakingSpan (s : State) (e off n : Nat) : Bool :=
  (List.range ((off + n + 15) / 16 - off / 16)).any fun i => s.waking e (off / 16 + i)

end Sys2Proof.Machine
end

