-- ==== Sys2Proof/Machine/Ops.lean ====
section
/-! DEFINITION. The named operations over registers and memory that meanings share: the acting core, register files,
capability checks, tile memory, host-memory rings, counters, taking a trap and returning from one. -/

namespace Sys2Proof.Machine

/-- What a step answers. -/
abbrev Out := Host.Outcome State Fault Refusal

/-- The core that acts. -/
def State.cr (s : State) : Core := s.coreOf s.core

/-- Replaces the core that acts. -/
def State.setCr (s : State) (c : Core) : State := s.setCore s.core c

/-- Reads a general register; g0 reads 0 (06 R127). -/
def Core.rdG (c : Core) (i : BitVec 5) : Word := if i = 0 then 0 else c.g[i.toNat]'(by have := i.isLt; omega)

/-- Writes a general register; a write to g0 is discarded (06 R127). -/
def Core.wrG (c : Core) (i : BitVec 5) (v : Word) : Core :=
  if i = 0 then c else { c with g := c.g.set i.toNat v (by have := i.isLt; omega) }

/-- Reads a condition bit; c0 reads 1 (06 R127). -/
def Core.rdC (c : Core) (i : BitVec 3) : Bool := if i = 0 then true else c.c[i.toNat]'(by have := i.isLt; omega)

/-- Writes a condition bit; a write to c0 is discarded (06 R127). -/
def Core.wrC (c : Core) (i : BitVec 3) (v : Bool) : Core :=
  if i = 0 then c else { c with c := c.c.set i.toNat v (by have := i.isLt; omega) }

/-- Reads a capability register. -/
def Core.rdK (c : Core) (i : BitVec 4) : Cap := c.k[i.toNat]'(by have := i.isLt; omega)

/-- Writes a capability register. -/
def Core.wrK (c : Core) (i : BitVec 4) (v : Cap) : Core := { c with k := c.k.set i.toNat v (by have := i.isLt; omega) }

/-- Reads a stream descriptor; none is invalid. -/
def Core.rdD (c : Core) (i : BitVec 4) : Option Descriptor := c.d[i.toNat]'(by have := i.isLt; omega)

/-- Writes a stream descriptor. -/
def Core.wrD (c : Core) (i : BitVec 4) (v : Option Descriptor) : Core :=
  { c with d := c.d.set i.toNat v (by have := i.isLt; omega) }

/-- The first address beyond the instruction store (06 R120). -/
def storeTop : Nat := 0x40000

/-- Moves PC past n words. PC never leaves the store: where the next instruction lies beyond it, PC stays at the one that
is complete, whose fetch of the next has still to trap (06 R120, log 9). -/
def Core.advance (c : Core) (n : Nat) : Core :=
  let next := c.pc + BitVec.ofNat 64 (4 * n)
  { c with
    pc := if next.toNat < storeTop then next else c.pc, past := c.past || decide (storeTop ≤ next.toNat), noInt := false }

/-- The address of the word being executed (07 R160: a repeated word stands at PC + 4 of its rep). -/
def Core.here (c : Core) : BitVec 32 := (if c.inRep then c.pc + 4 else c.pc).setWidth 32

/-- Adds conditions to FLAGS (07 R155). -/
def Core.raiseFlags (c : Core) (x : Conds) : Core := { c with flags := c.flags ||| x }

/-- The acting core changes and PC moves past its word: how most instructions complete. -/
def finish (s : State) (c : Core) : State := s.setCr (c.advance 1)

/-- The acting core changes and PC moves past the two words of its instruction (06 R120). -/
def finishTwo (s : State) (c : Core) : State := s.setCr (c.advance 2)

/-- The acting core writes a general register and PC moves past its word. -/
def finishG (s : State) (d : BitVec 5) (v : Word) : State := finish s (s.cr.wrG d v)

/-- The acting core writes a condition bit and PC moves past its word. -/
def finishC (s : State) (c : BitVec 3) (v : Bool) : State := finish s (s.cr.wrC c v)

/-- ACTIVE of TRAPCAUSE (08 Table K-92). -/
def Core.active (c : Core) : Bool := c.trapcause.getLsbD 32

/-! ### Capabilities (04 R103, R104) -/

def capObj (k : Cap) : BitVec 24 := k.extractLsb 23 0
def capRights (k : Cap) : BitVec 8 := k.extractLsb 31 24
def capBase (k : Cap) : BitVec 40 := k.extractLsb 71 32
def capLimit (k : Cap) : BitVec 40 := k.extractLsb 111 72
def capReserved (k : Cap) : BitVec 16 := k.extractLsb 127 112

/-- A capability from its fields. -/
def capMake (limit base : BitVec 40) (rights : BitVec 8) (obj : BitVec 24) : Cap :=
  (0 : BitVec 16) ++ limit ++ base ++ rights ++ obj

abbrev rightR : BitVec 8 := 0x01
abbrev rightW : BitVec 8 := 0x02
abbrev rightA : BitVec 8 := 0x04
abbrev rightT : BitVec 8 := 0x08
abbrev rightS : BitVec 8 := 0x10
abbrev rightD : BitVec 8 := 0x20
abbrev rightH : BitVec 8 := 0x40
abbrev rightK : BitVec 8 := 0x80

/-- The object id of the region's tile space. -/
abbrev tileSpace : BitVec 24 := 0xFFFFFF

/-- Trap causes (08 Table K-91). -/
abbrev causeIllegal : BitVec 8 := 0x01
abbrev causePrivilege : BitVec 8 := 0x02
abbrev causeFetchRange : BitVec 8 := 0x03
abbrev causeCapForm : BitVec 8 := 0x04
abbrev causeCapRights : BitVec 8 := 0x05
abbrev causeCapBounds : BitVec 8 := 0x06
abbrev causeTileError : BitVec 8 := 0x07
abbrev causeMemForm : BitVec 8 := 0x08
abbrev causePortDenied : BitVec 8 := 0x09
abbrev causeStepOpen : BitVec 8 := 0x0A
abbrev causeStepPlane : BitVec 8 := 0x0B
abbrev causeStepNone : BitVec 8 := 0x0C
abbrev causeSigRange : BitVec 8 := 0x0D
abbrev causeExitNoBarrier : BitVec 8 := 0x0E
abbrev causeSpargeRoot : BitVec 8 := 0x0F
abbrev causeStream : BitVec 8 := 0x10
abbrev causeEngineCmd : BitVec 8 := 0x11
abbrev causeEngineFault : BitVec 8 := 0x12
abbrev causeRack : BitVec 8 := 0x13
abbrev causeSched : BitVec 8 := 0x14
abbrev causeInterrupt : BitVec 8 := 0x15

/-- Check 1 of 04 R104: well formed. -/
def capWellFormed (k : Cap) : Bool :=
  capReserved k == 0 && decide ((capBase k).toNat ≤ (capLimit k).toNat) && capObj k != 0

/-- capchk of 04 R104: the cause of the first check that fails for n bytes at offset o with the rights needed. -/
def capchk (k : Cap) (o n : Nat) (need : BitVec 8) : Option (BitVec 8) :=
  if !capWellFormed k then some causeCapForm
  else if capRights k &&& need != need then some causeCapRights
  else if (capBase k).toNat ≤ o ∧ o + n ≤ (capLimit k).toNat then none
  else some causeCapBounds

/-! ### Tile memory (04 R80, R91, R97) -/

/-- The key of a tile byte in its district. -/
def tileKey (ord off : Nat) : Nat := ord * 2 ^ 19 + off

/-- Reads n bytes of a tile. -/
def District.tileRead (x : District) (ord off n : Nat) : List Byte := mgets (tileKey ord off) n x.tileMem

/-- Sets or clears a granule's full/empty bit. -/
def District.setFull (x : District) (ord gran : Nat) (f : Bool) : District :=
  { x with full := if f then nadd (granKey ord gran) x.full else ndel (granKey ord gran) x.full }

/-- Sets every granule from `g` on, n of them, full. -/
def fillGrans (ord g : Nat) : Nat → List Nat → List Nat
  | 0, l => l
  | n + 1, l => fillGrans ord (g + 1) n (nadd (granKey ord g) l)

/-- Writes bytes into a tile; every write to a granule sets it full (04 R91). -/
def District.tileWrite (x : District) (ord off : Nat) (bs : List Byte) : District :=
  if bs.isEmpty then x
  else { x with
    tileMem := mputs (tileKey ord off) bs x.tileMem
    full := fillGrans ord (off / 16) ((off + bs.length - 1) / 16 - off / 16 + 1) x.full }

/-- The bytes of a tile (04 R80). -/
def tileSize : Nat := 0x60000

/-- The place of a region tile address as seen by a core: district, tile ordinal, offset; none beyond the region
(04 R97; 19 R349 for the management store). -/
def State.tileAddr (s : State) (c addr : Nat) : Option (Nat × Nat × Nat) :=
  let idx := addr / 2 ^ 19 % 2 ^ 18
  let off := addr % 2 ^ 19
  if c = mgmtCore then (if idx < 4 then some (mgmtCore, idx, off) else none)
  else match s.regionAt c with
    | none => none
    | some r => if idx / 250 < r.districts.length then some (nth (idx / 250) r.districts, idx % 250, off) else none

/-- CFGBASE of a tile (04 Table K-27 field 62) in the region plane. -/
def State.cfgBase (s : State) (d ord : Nat) : Nat :=
  if d = mgmtCore then 0x6000 else s.planeField d (tileIdx ord) 0 62 0x6000

/-- Whether n bytes from an offset lie within one tile below its CFGBASE. -/
def State.tileFits (s : State) (d ord off n : Nat) : Bool := decide (off + n ≤ min tileSize (16 * s.cfgBase d ord))

/-! ### Signals to the host (16 R304, 17 R339, 22 R382) -/

/-- A host write reaches the device's registers: while the ROM runs only configuration space and BOOTST answer (19 R362). -/
def State.hostWrites (s : State) (f : State → State) : State := if s.boot.state = 1 then s else f s

/-- An MSI-X vector is signalled. -/
def State.signal (s : State) (v : Nat) : State :=
  { s with hostif := { s.hostif with msix := s.hostif.msix ++ [BitVec.ofNat 7 v] } }

/-- Writes bytes into host memory. -/
def State.hostWrite (s : State) (a : Nat) (bs : List Byte) : State := { s with host := mputs a bs s.host }

/-- A count that saturates. -/
def satInc {n : Nat} (x : BitVec n) : BitVec n := if x = BitVec.allOnes n then x else x + 1

/-- A notification entry is written, NQHEAD rises and VECTOR is signalled, or the notification is lost (17 R339). -/
def State.notify (s : State) (type part code : Nat) (fsn obj page count dist : Nat) : State :=
  let p := s.paging
  let n := 2 ^ nbits p.nqctl.toNat 35 32
  if !p.nqctl.getLsbD 63 || (p.nqhead - p.nqtail).toNat = n then { s with paging := { p with nqlost := satInc p.nqlost } }
  else
    let entry := leBytes 1 type ++ leBytes 1 part ++ leBytes 1 code ++ [0] ++ leBytes 4 fsn ++ leBytes 4 obj ++
      leBytes 4 page ++ leBytes 8 s.timebase ++ leBytes 2 count ++ leBytes 2 dist ++ leBytes 4 0
    let s1 := s.hostWrite (p.nqbase.toNat + 32 * (p.nqhead.toNat % n)) entry
    ({ s1 with paging := { p with nqhead := p.nqhead + 1 } }).signal (nbits p.nqctl.toNat 46 40)

/-- A trace record enters the ring, or counts as lost where the ring is full (22 R382). With EN = 0 nothing is recorded
(DEDUCED, log 34); with LOG2N at no assigned value the ring has the least size, 16 records (DESIGN CHOICE, log 85). -/
def State.trace (s : State) (type seqid : Nat) (pc ecsn data : BitVec 32) : State :=
  let f := s.fleet
  if !f.trcctl.getLsbD 0 then s
  else
    let n := 2 ^ max 4 (nbits f.trcctl.toNat 5 2)
    if (f.trchead - f.trctail).toNat = n then { s with fleet := { f with trclost := f.trclost + 1 } }
    else
      let entry := leBytes 1 type ++ [0, 0, 0] ++ leBytes 2 seqid ++ [0, 0] ++ leBytes 4 pc.toNat ++
        leBytes 4 ecsn.toNat ++ leBytes 8 s.timebase ++ leBytes 4 data.toNat ++ leBytes 4 0
      let s1 := s.hostWrite (f.trcctl.toNat / 64 * 64 + 32 * (f.trchead.toNat % n)) entry
      { s1 with fleet := { f with trchead := f.trchead + 1 } }

/-! ### Counters (08 R170) -/

/-- A class's counter. -/
def Core.count (c : Core) : OpClass → Nat
  | .ldc => c.ldc
  | .stc => c.stc
  | .cpc => c.cpc
  | .toc => c.toc

/-- Sets a class's counter. -/
def Core.setCount (c : Core) (k : OpClass) (n : Nat) : Core :=
  match k with
  | .ldc => { c with ldc := n }
  | .stc => { c with stc := n }
  | .cpc => { c with cpc := n }
  | .toc => { c with toc := n }

/-- A counter rises by one. -/
def Core.bump (c : Core) (k : OpClass) : Core := c.setCount k (c.count k + 1)

/-- A counter falls by one. -/
def Core.drop (c : Core) (k : OpClass) : Core := c.setCount k (c.count k - 1)

/-- No counter exceeds 62 (08 R170). -/
def Core.mayRaise (c : Core) (k : OpClass) : Bool := decide (c.count k < 62)

/-- The class of a memory instruction by its word (08 Table K-77). -/
def wordClass (w : W32) : OpClass :=
  match (fld w 31 25).toNat with
  | 0x18 => if (fld w 10 6).toNat < 8 then .ldc else .stc
  | 0x19 => if (fld w 10 6).toNat < 8 then .ldc else .stc
  | 0x20 => if (fld w 3 0).toNat = 0xB then .stc else .ldc
  | 0x1A => .toc
  | _ => .ldc

/-! ### Taking a trap (08 R194-R197) -/

/-- A double trap: the SEQ halts, and the region is contained, with the SEQ, the PC and the ECSN of what could not be taken;
the management core fails instead (08 R197; 01 R39; 19 R350). -/
def doubleTrap (s : State) (c : Nat) (pc ecsn : BitVec 32) : State :=
  let s1 := s.modCore c fun x => { x with halted := true, running := false, trapping := none, noInt := false }
  if c = mgmtCore then { s1 with boot := { s1.boot with state := 4 } }
  else s1.containAs codeDoubleTrap true (elemAt c seqIdx) (s.planeAt c) (some (c, pc, ecsn))

/-- The state code of an unfinished memory instruction in a frame (08 Table K-95). -/
def OpStatus.code : OpStatus → Nat
  | .errored => 2
  | .held => 3
  | _ => 1

/-- A replay entry (08 Table K-95). -/
def replayEntry (o : MemOp) : List Byte :=
  let st := if o.status = .errored then 2 else o.status.code
  let esub := if o.status = .errored then o.esub.toNat else 0
  leBytes 4 o.pc.toNat ++ leBytes 4 o.word.toNat ++ leBytes 4 (2 ^ 31 + esub * 2 ^ 16 + st) ++ leBytes 4 0 ++
    leBytes 8 o.addr.toNat ++ leBytes 8 o.data0.toNat ++ leBytes 8 o.data1.toNat ++ leBytes 8 0 ++ leBytes 16 o.cap.toNat

/-- CAUSEW of a cause (08 Table K-92). -/
def Cause.word (k : Cause) : BitVec 32 := k.sub ++ k.unit ++ (0 : BitVec 8) ++ k.cause

/-- A trap frame: header and entries (08 Tables K-94, K-95). -/
def trapFrame (k : Cause) (rpc : BitVec 32) (ents : List MemOp) : List Byte :=
  leBytes 4 k.word.toNat ++ leBytes 4 rpc.toNat ++ leBytes 4 k.epc.toNat ++ leBytes 4 k.eecsn.toNat ++
    leBytes 4 ents.length ++ leBytes 4 0 ++ leBytes 8 k.xaddr.toNat ++ leBytes 32 0 ++ ents.flatMap replayEntry

/-- BASE of TRAPQ as a region tile address (08 Table K-93). -/
def Core.frameBase (c : Core) : Nat := c.trapq.toNat % 2 ^ 37 / 64 * 64

/-- COUNT of TRAPQ. -/
def Core.frameCount (c : Core) : Nat := nbits c.trapq.toNat 46 40

/-- Where a frame of n bytes goes: in one tile of the SEQ's own district, below its CFGBASE; else none (08 R195). -/
def State.frameLoc (s : State) (c n : Nat) : Option (Nat × Nat) :=
  match s.tileAddr c (s.coreOf c).frameBase with
  | none => none
  | some (d, ord, off) => if d = c ∧ s.tileFits d ord off n = true then some (ord, off) else none

/-- The counters after the withdrawal of instructions that never finished (08 R196). -/
def Core.withdraw (c : Core) : List MemOp → Core
  | [] => c
  | o :: t => (if o.status = .errored then c else c.drop (wordClass o.word)).withdraw t

/-- Requests have settled: none that has left the SEQ is unanswered, but for a load held by an unmapped page (08 R196
step 2). -/
def Core.settled (c : Core) : Bool := c.ops.all fun o => o.status != .sent

/-- An unfinished instruction that a trap leaves outstanding: a store in a side log, which has retired (08 R175; DEDUCED,
log 58), and a load in a page hold, which INTERRUPT alone withdraws (08 R196 step 3; DEDUCED, log 122). -/
def MemOp.stays (k : Cause) (o : MemOp) : Bool :=
  o.status == .logged || (o.status == .held && k.cause != causeInterrupt)

/-- The entries of a trap's frame, in issue order (08 R196 step 3, R198). -/
def Core.entries (c : Core) (k : Cause) : List MemOp := (c.ops.filter fun o => !o.stays k) ++ c.reissue

/-- A cause with the event that it names: an INTERRUPT names the instruction at PC (21 R372). -/
def Cause.named (k : Cause) (c : Core) : Cause :=
  if k.cause = causeInterrupt then { k with epc := (c.pc &&& 0x3FFFC).setWidth 32, eecsn := c.ecsn } else k

/-- The trap may be entered: requests have settled, and no waiter is to be served before the frame is written (08 R196;
04 R93). -/
def State.mayEnter (s : State) (c : Nat) (k : Cause) : Bool :=
  let x := s.coreOf c
  let n := 64 + 64 * (x.entries k).length
  x.settled && match s.frameLoc c n with
    | none => true
    | some (ord, off) => !s.wakingSpan (elemAt c (tileIdx ord)) off n

/-- Steps 3 and 4 of 08 R196, once requests have settled: the frame, TRAPCAUSE, TRAPPC, TRAPQ.COUNT, PC. The cause is
pending no more; what stays outstanding still counts. -/
def enterTrap (s : State) (c : Nat) (cause : Cause) : State :=
  let x := s.coreOf c
  let k := cause.named x
  let ents := x.entries k
  let kept := x.ops.filter fun o => o.stays k
  let gone (a : Access) : Bool := a.issuer == .seq c && !(kept.any fun o => o.id == a.op)
  let rpc : BitVec 32 := (x.pc &&& 0x3FFFC).setWidth 32
  match s.frameLoc c (64 + 64 * ents.length) with
  | none => doubleTrap s c k.epc k.eecsn
  | some (ord, off) =>
    let s1 := s.modDist c fun d =>
      let d := d.tileWrite ord off (trapFrame k rpc ents)
      { d with port := { d.port with
          heldReads := d.port.heldReads.filter fun h => !gone h.acc
          accessQ := d.port.accessQ.filter fun a => !gone a } }
    let s2 := s1.modCore c fun x =>
      { x.withdraw (x.ops.filter fun o => !o.stays k) with
        ops := kept, reissue := [], trapping := none, held := kept.any fun o => o.status == .held
        noInt := false, past := false, idleSeen := none, pending := delFirst (· == cause) x.pending, trapOp := x.opId
        trapcause := (0 : BitVec 31) ++ (1 : BitVec 1) ++ k.word
        trappc := x.pc &&& 0x3FFFC
        trapq := x.trapq &&& ~~~(0x7F#64 <<< 40) ||| BitVec.ofNat 64 ents.length <<< 40
        pc := 0 }
    s2.trace 1 c k.epc k.eecsn k.word

/-- A trap is taken by a core: a double trap while ACTIVE = 1, else issue stops and the frame is written as soon as
requests have settled (08 R196, R197). TRAPPC is PC as it stands. -/
def takeTrap (s : State) (c : Nat) (k : Cause) : State :=
  if (s.coreOf c).active then doubleTrap s c k.epc k.eecsn
  else if s.mayEnter c k then enterTrap s c k
  else s.modCore c fun x => { x with trapping := some k, noInt := false }

/-- A synchronous trap of the acting core at its PC (08 R195: EPC is the trapping PC). In a word that rep repeats that is the
address of the rep (DEDUCED, log 166). -/
def syncTrap (s : State) (cause : BitVec 8) (sub : BitVec 8 := 0) (xaddr : Word := 0) : State :=
  takeTrap s s.core { cause := cause, sub := sub, epc := s.cr.pc.setWidth 32, eecsn := s.cr.ecsn, xaddr := xaddr, sync := true }

/-- An asynchronous cause becomes pending at a core (08 R196). -/
def State.post (s : State) (c : Nat) (k : Cause) : State := s.modCore c fun x => { x with pending := x.pending ++ [k] }

/-- An INTERRUPT is raised at a core; EPC and EECSN are set at entry (21 R372). -/
def State.interrupt (s : State) (c : Nat) (sub : BitVec 8) : State := s.post c { cause := causeInterrupt, sub := sub }

/-- The cause of an errored memory instruction (08 R174, R175, R183). -/
def MemOp.cause (o : MemOp) : Cause :=
  { cause := if capObj o.cap == tileSpace then causeTileError else causePortDenied
    sub := if capObj o.cap == tileSpace then o.esub else 0
    epc := o.pc, eecsn := o.eecsn, xaddr := o.addr }

/-- The causes with the priority of an ERRORED entry, with the serial number of the instruction at fault: errored
instructions, and descriptor images that were bad (08 R183, R196). -/
def Core.opCauses (c : Core) : List (Nat × Cause) :=
  (c.ops.filterMap fun o => if o.status = .errored then some (o.id, o.cause) else none) ++
    c.pending.filterMap fun k => k.opId.map fun n => (n, k)

/-- The earliest in issue order. -/
def earliestCause : List (Nat × Cause) → Option (Nat × Cause)
  | [] => none
  | q :: rest => match earliestCause rest with
    | none => some q
    | some r => if r.1 < q.1 then some r else some q

/-- The asynchronous cause that a core would take: the earliest errored instruction or descriptor error in issue order,
then a RACK refusal or engine fault, then an interrupt, which `noInt` holds back (08 R196, R199, R201). -/
def Core.nextCause (c : Core) : Option Cause :=
  match earliestCause c.opCauses with
  | some (_, k) => some k
  | none =>
    match c.pending.find? fun k => k.cause != causeInterrupt with
    | some k => some k
    | none => if c.noInt then none else c.pending.head?

/-- Enters the trap for which issue has stopped, once it may: a synchronous one as it is, else the first by 08 R196 of what
is pending by then. -/
def settleTrap (s : State) (c : Nat) : State :=
  match (s.coreOf c).trapping with
  | none => s
  | some k =>
    let k' := if k.sync then k else (s.coreOf c).nextCause.getD k
    if s.mayEnter c k' then enterTrap s c k' else s

/-- Takes the next asynchronous cause of a core, if there is one that may be taken now (08 R196, R197, R200, R201).
While ACTIVE = 1 only an error of the handler's own accesses, which it issued since the trap, acts, and it is a double
trap; a fetch beyond the store is a synchronous trap, which comes first. -/
def takePending (s : State) (c : Nat) : Option State :=
  let x := s.coreOf c
  if x.spargeWait.isSome ∨ x.past = true then none
  else if x.active then
    (earliestCause (x.opCauses.filter fun q => decide (x.trapOp ≤ q.1))).map fun (_, k) => doubleTrap s c k.epc k.eecsn
  else match x.nextCause with
    | none => none
    | some k =>
      let y := if x.idleSeen.isSome then { x.advance 1 with idleSeen := none } else x
      some (if y.past then s.setCore c y else takeTrap (s.setCore c y) c k)

/-! ### Descriptors (08 R182, R183) -/

/-- A descriptor image read from memory; none where it leaves the descriptor invalid (08 R183). -/
def parseDescriptor (bs : List Byte) (ks : Nat → Cap) : Option Descriptor :=
  let q0 := leNat (bs.take 8)
  let h := leNat ((bs.drop 8).take 2)
  let z := leNat ((bs.drop 10).take 6)
  let cnt := fun i => leNat ((bs.drop (16 + 12 * i)).take 4)
  let str := fun i => leNat ((bs.drop (20 + 12 * i)).take 8)
  if q0 / 2 ^ 40 ≠ 0 ∨ z ≠ 0 ∨ h.testBit 2 = true ∨ nbits h 15 14 = 3 ∨ nbits h 1 0 ≥ 2 ∨ nbits h 5 3 > 4 ∨
      nbits h 9 6 ≥ 12 ∨ cnt 0 / 2 ^ 24 ≠ 0 ∨ cnt 1 / 2 ^ 24 ≠ 0 ∨ cnt 2 / 2 ^ 24 ≠ 0 ∨ cnt 3 / 2 ^ 24 ≠ 0 then none
  else some {
    start := BitVec.ofNat 40 q0, fe := BitVec.ofNat 2 (nbits h 15 14), fmt := BitVec.ofNat 4 (nbits h 9 6)
    esz := BitVec.ofNat 3 (nbits h 5 3), dir := BitVec.ofNat 2 (nbits h 1 0)
    cnt := #v[BitVec.ofNat 24 (cnt 0), BitVec.ofNat 24 (cnt 1), BitVec.ofNat 24 (cnt 2), BitVec.ofNat 24 (cnt 3)]
    str := #v[BitVec.ofNat 64 (str 0), BitVec.ofNat 64 (str 1), BitVec.ofNat 64 (str 2), BitVec.ofNat 64 (str 3)]
    cap := ks (nbits h 13 10) }

end Sys2Proof.Machine
end

