-- ==== Sys2Proof/Machine/Operands.lean ====
section
/-! DEFINITION. The operand forms of sequencer words (06 R122): immediates, branch targets, stepped register fields,
limits, field positions. -/

namespace Sys2Proof.Machine

/-- sext(imm15, 15) of addi (07 R151). -/
def immSx (i : BitVec 15) : Word := i.signExtend 64

/-- zext(imm15, 15) of andi, ori and xori (07 R151). -/
def immZx (i : BitVec 15) : Word := i.setWidth 64

/-- The target of a branch or call, in integers, so that wrapping shows (07 R158). -/
def branchTarget (pc : Word) (o : BitVec 21) : Int := pc.toNat + 4 * o.toInt

/-- Whether an address can be jumped to (07 R159). -/
def jumpable (n : Word) : Bool := n.extractLsb 1 0 == 0 && decide (n.toNat < storeTop)

/-- The shift count g[gb][5:0] (07 R157). -/
def shiftCount (b : Word) : Nat := b.toNat % 64

/-- POS of a field form (07 R157). -/
def fieldPos (b : Word) : Nat := b.toNat % 64

/-- WM1 plus one of a field form (07 R157). -/
def fieldWidth (b : Word) : Nat := nbits b.toNat 13 8 + 1

/-- A limit of wait; 63 places none (06 R122, 08 R171). -/
def withinLimit (n : Nat) (l : BitVec 6) : Bool := l == 63 || decide (n ≤ l.toNat)

/-- A register field stepped by a rep word: field + i x step; none outside 0-31 (06 R126, 07 R160). -/
def steppedReg (f : BitVec 5) (i : Int) (step : BitVec 6) : Option (BitVec 5) :=
  let n : Int := f.toNat + i * step.toInt
  if 0 ≤ n ∧ n < 32 then some (BitVec.ofNat 5 n.toNat) else none

end Sys2Proof.Machine
end

