-- ==== Sys2Proof/Machine/Flags.lean ====
section
/-! DEFINITION. What sequencer instructions compute and the conditions they raise in FLAGS: the scalar floating-point
operations and relations (07 R153, R155, R156), integer division with its border cases (07 R150), bit fields
(07 R157). -/

namespace Sys2Proof.Machine

/-- The signed quotient, truncated toward zero, with its border cases (07 R150). -/
def divSigned (a b : Word) : Word := if b = 0 then BitVec.allOnes 64 else BitVec.ofInt 64 (a.toInt.tdiv b.toInt)

/-- The unsigned quotient; all ones on division by zero (07 R150). -/
def divUnsigned (a b : Word) : Word := if b = 0 then BitVec.allOnes 64 else BitVec.ofNat 64 (a.toNat / b.toNat)

/-- The signed remainder, with the sign of the dividend (07 R150). -/
def remSigned (a b : Word) : Word := if b = 0 then a else BitVec.ofInt 64 (a.toInt.tmod b.toInt)

/-- The unsigned remainder (07 R150). -/
def remUnsigned (a b : Word) : Word := if b = 0 then a else BitVec.ofNat 64 (a.toNat % b.toNat)

/-- Bits [127:64] of the signed product (07 R150). -/
def mulHighSigned (a b : Word) : Word := (BitVec.ofInt 128 (a.toInt * b.toInt)).extractLsb' 64 64

/-- Bits [127:64] of the unsigned product (07 R150). -/
def mulHighUnsigned (a b : Word) : Word := (BitVec.ofNat 128 (a.toNat * b.toNat)).extractLsb' 64 64

/-- Leading zeros of a (07 R157): 64 when a = 0. -/
def countLeading (a : Word) : Nat := if a = 0 then 64 else 63 - a.toNat.log2

/-- Trailing zeros of the low `n` bits of a, counted from bit `i` up. -/
def trailGo (a : Word) : Nat → Nat → Nat
  | 0, i => i
  | n + 1, i => if a.getLsbD i then i else trailGo a n (i + 1)

/-- Trailing zeros of a: 64 when a = 0. -/
def countTrailing (a : Word) : Nat := trailGo a 64 0

/-- Ones in the bits of a below `n`. -/
def onesGo (a : Word) : Nat → Nat
  | 0 => 0
  | n + 1 => (if a.getLsbD n then 1 else 0) + onesGo a n

/-- Ones in a. -/
def countOnes (a : Word) : Nat := onesGo a 64

/-- The eight bytes of a in reverse order (07 R157). -/
def byteSwap (a : Word) : Word := BitVec.ofNat 64 (leNat (leBytes 8 a.toNat).reverse)

/-- The field [POS+WM1 : POS], bits above 63 taken as 0 (07 R157). -/
def extractField (a b : Word) : Nat := a.toNat / 2 ^ fieldPos b % 2 ^ fieldWidth b

/-- The same field, sign-extended from its top bit (07 R157). -/
def extractSigned (a b : Word) : Word :=
  let n := extractField a b
  let w := fieldWidth b
  if n.testBit (w - 1) then BitVec.ofInt 64 ((n : Int) - 2 ^ w) else BitVec.ofNat 64 n

/-- A field inserted into d; bits of the field above 63 are dropped (07 R157). -/
def insertField (d a b : Word) : Word :=
  let mask : Word := BitVec.ofNat 64 ((2 ^ fieldWidth b - 1) * 2 ^ fieldPos b)
  (d &&& ~~~mask) ||| (BitVec.ofNat 64 (a.toNat % 2 ^ fieldWidth b * 2 ^ fieldPos b) &&& mask)

/-- The FP32 operand of a register: its low half (07 R156). -/
def fp (a : Word) : W32 := a.setWidth 32

/-- FP32 addition (07 R156). -/
def fpAdd (rm : RM) (a b : W32) : W32 × Conds := rnd32 rm (Val.add rm (val32 a) (val32 b))

/-- FP32 subtraction (07 R156). -/
def fpSub (rm : RM) (a b : W32) : W32 × Conds := rnd32 rm (Val.add rm (val32 a) (val32 b).negate)

/-- FP32 multiplication (07 R156). -/
def fpMul (rm : RM) (a b : W32) : W32 × Conds := rnd32 rm (Val.mul (val32 a) (val32 b))

/-- FP32 square root (07 R156). -/
def fpSqrt (rm : RM) (a : W32) : W32 × Conds := rnd32 rm (Val.sqrt (val32 a))

/-- FP32 a x b + c, exact and rounded once (07 R156). -/
def fpFma (rm : RM) (a b c : W32) : W32 × Conds := rnd32 rm (Val.add rm (Val.mul (val32 a) (val32 b)) (val32 c))

/-- A conversion between FP32 and itself keeps the pattern but for a signalling NaN (07 R156). -/
def fpSame (a : W32) : W32 × Conds := if (val32 a).isSNaN then (nan32, condV) else (a, 0)

/-- cvto: FP32 to the format of a code (07 R156); an INT32 result is sign-extended. -/
def fpCvto (f : BitVec 4) (rm : RM) (sat : Bool) (a : W32) : Word × Conds :=
  if f = 0 then let (r, c) := fpSame a; (r.setWidth 64, c)
  else let (r, c) := rndTo f rm sat (val32 a)
       (if f = 10 then r.signExtend 64 else r.setWidth 64, c)

/-- The width of a format code of cvfrom (03 R58). -/
def fmtWidth (f : BitVec 4) : Nat :=
  match f.toNat with
  | 1 => 16
  | 2 => 16
  | 3 => 8
  | 4 => 8
  | _ => 32

/-- cvfrom: the pattern g[ga][w-1:0] of a code's format to FP32 (07 R156). -/
def fpCvfrom (f : BitVec 4) (rm : RM) (a : Word) : W32 × Conds :=
  if f = 0 then fpSame (fp a) else rnd32 rm (valOf f (a.toNat % 2 ^ fmtWidth f))

/-- The relations feq, flt and fle with their V condition: quiet ones raise V only for a signalling NaN (07 R153). -/
def fpRel (rel : Val → Val → Bool) (quiet : Bool) (a b : W32) : Bool × Conds :=
  let x := val32 a
  let y := val32 b
  let nan := x.isNaN || y.isNaN
  (!nan && rel x y, condIf (x.isSNaN || y.isSNaN || (nan && !quiet)) condV)

/-- fun: either operand is a NaN (07 R153). -/
def fpUnordered (a b : W32) : Bool × Conds :=
  let x := val32 a
  let y := val32 b
  (x.isNaN || y.isNaN, condIf (x.isSNaN || y.isSNaN) condV)

/-- The acting core writes an FP32 result, zero-extended, and raises its conditions. -/
def finishF (s : State) (d : BitVec 5) (r : W32 × Conds) : State :=
  finish s ((s.cr.wrG d (r.1.setWidth 64)).raiseFlags r.2)

/-- The acting core writes a condition bit and raises the conditions of a relation. -/
def finishRel (s : State) (c : BitVec 3) (r : Bool × Conds) : State :=
  finish s ((s.cr.wrC c r.1).raiseFlags r.2)

end Sys2Proof.Machine
end

