-- ==== Sys2Proof/Machine/Alu.lean ====
section
/-! DEFINITION. Integer and address arithmetic: alu (07 R150). -/

namespace Sys2Proof.Machine

/-- alu.add (07 R150, Table K-55). -/
def execAluAdd (d a b : BitVec 5) (s : State) : Out :=
  .next (finishG s d ((s.cr.rdG a) + (s.cr.rdG b)))

/-- alu.sub (07 R150, Table K-55). -/
def execAluSub (d a b : BitVec 5) (s : State) : Out :=
  .next (finishG s d ((s.cr.rdG a) - (s.cr.rdG b)))

/-- alu.mul (07 R150, Table K-55). -/
def execAluMul (d a b : BitVec 5) (s : State) : Out :=
  .next (finishG s d ((s.cr.rdG a) * (s.cr.rdG b)))

/-- alu.mulhs (07 R150, Table K-55). -/
def execAluMulhs (d a b : BitVec 5) (s : State) : Out :=
  .next (finishG s d (mulHighSigned (s.cr.rdG a) (s.cr.rdG b)))

/-- alu.mulhu (07 R150, Table K-55). -/
def execAluMulhu (d a b : BitVec 5) (s : State) : Out :=
  .next (finishG s d (mulHighUnsigned (s.cr.rdG a) (s.cr.rdG b)))

/-- alu.divs (07 R150, Table K-55). -/
def execAluDivs (d a b : BitVec 5) (s : State) : Out :=
  .next (finishG s d (divSigned (s.cr.rdG a) (s.cr.rdG b)))

/-- alu.divu (07 R150, Table K-55). -/
def execAluDivu (d a b : BitVec 5) (s : State) : Out :=
  .next (finishG s d (divUnsigned (s.cr.rdG a) (s.cr.rdG b)))

/-- alu.rems (07 R150, Table K-55). -/
def execAluRems (d a b : BitVec 5) (s : State) : Out :=
  .next (finishG s d (remSigned (s.cr.rdG a) (s.cr.rdG b)))

/-- alu.remu (07 R150, Table K-55). -/
def execAluRemu (d a b : BitVec 5) (s : State) : Out :=
  .next (finishG s d (remUnsigned (s.cr.rdG a) (s.cr.rdG b)))

/-- alu.and (07 R150, Table K-55). -/
def execAluAnd (d a b : BitVec 5) (s : State) : Out :=
  .next (finishG s d ((s.cr.rdG a) &&& (s.cr.rdG b)))

/-- alu.or (07 R150, Table K-55). -/
def execAluOr (d a b : BitVec 5) (s : State) : Out :=
  .next (finishG s d ((s.cr.rdG a) ||| (s.cr.rdG b)))

/-- alu.xor (07 R150, Table K-55). -/
def execAluXor (d a b : BitVec 5) (s : State) : Out :=
  .next (finishG s d ((s.cr.rdG a) ^^^ (s.cr.rdG b)))

/-- alu.andn (07 R150, Table K-55). -/
def execAluAndn (d a b : BitVec 5) (s : State) : Out :=
  .next (finishG s d ((s.cr.rdG a) &&& ~~~(s.cr.rdG b)))

/-- alu.min (07 R150, Table K-55). -/
def execAluMin (d a b : BitVec 5) (s : State) : Out :=
  .next (finishG s d (if (s.cr.rdG a).slt (s.cr.rdG b) then (s.cr.rdG a) else (s.cr.rdG b)))

/-- alu.max (07 R150, Table K-55). -/
def execAluMax (d a b : BitVec 5) (s : State) : Out :=
  .next (finishG s d (if (s.cr.rdG b).slt (s.cr.rdG a) then (s.cr.rdG a) else (s.cr.rdG b)))

/-- alu.minu (07 R150, Table K-55). -/
def execAluMinu (d a b : BitVec 5) (s : State) : Out :=
  .next (finishG s d (if (s.cr.rdG a).ult (s.cr.rdG b) then (s.cr.rdG a) else (s.cr.rdG b)))

/-- alu.maxu (07 R150, Table K-55). -/
def execAluMaxu (d a b : BitVec 5) (s : State) : Out :=
  .next (finishG s d (if (s.cr.rdG b).ult (s.cr.rdG a) then (s.cr.rdG a) else (s.cr.rdG b)))

end Sys2Proof.Machine
end

