-- ==== Sys2Proof/Machine/Bits.lean ====
section
/-! DEFINITION. Bit fields and shifts: bit (07 R157). -/

namespace Sys2Proof.Machine

/-- bit.shl (07 R157, Table K-62). -/
def execBitShl (d a b : BitVec 5) (s : State) : Out :=
  .next (finishG s d (s.cr.rdG a <<< shiftCount (s.cr.rdG b)))

/-- bit.shr (07 R157, Table K-62). -/
def execBitShr (d a b : BitVec 5) (s : State) : Out :=
  .next (finishG s d (s.cr.rdG a >>> shiftCount (s.cr.rdG b)))

/-- bit.sar (07 R157, Table K-62). -/
def execBitSar (d a b : BitVec 5) (s : State) : Out :=
  .next (finishG s d ((s.cr.rdG a).sshiftRight (shiftCount (s.cr.rdG b))))

/-- bit.rol (07 R157, Table K-62). -/
def execBitRol (d a b : BitVec 5) (s : State) : Out :=
  .next (finishG s d ((s.cr.rdG a).rotateLeft (shiftCount (s.cr.rdG b))))

/-- bit.ror (07 R157, Table K-62). -/
def execBitRor (d a b : BitVec 5) (s : State) : Out :=
  .next (finishG s d ((s.cr.rdG a).rotateRight (shiftCount (s.cr.rdG b))))

/-- bit.clz (07 R157, Table K-62). -/
def execBitClz (d a : BitVec 5) (s : State) : Out :=
  .next (finishG s d (BitVec.ofNat 64 (countLeading (s.cr.rdG a))))

/-- bit.ctz (07 R157, Table K-62). -/
def execBitCtz (d a : BitVec 5) (s : State) : Out :=
  .next (finishG s d (BitVec.ofNat 64 (countTrailing (s.cr.rdG a))))

/-- bit.popc (07 R157, Table K-62). -/
def execBitPopc (d a : BitVec 5) (s : State) : Out :=
  .next (finishG s d (BitVec.ofNat 64 (countOnes (s.cr.rdG a))))

/-- bit.bswap (07 R157, Table K-62). -/
def execBitBswap (d a : BitVec 5) (s : State) : Out :=
  .next (finishG s d (byteSwap (s.cr.rdG a)))

/-- bit.extu (07 R157, Table K-62). -/
def execBitExtu (d a b : BitVec 5) (s : State) : Out :=
  .next (finishG s d (BitVec.ofNat 64 (extractField (s.cr.rdG a) (s.cr.rdG b))))

/-- bit.exts (07 R157, Table K-62). -/
def execBitExts (d a b : BitVec 5) (s : State) : Out :=
  .next (finishG s d (extractSigned (s.cr.rdG a) (s.cr.rdG b)))

/-- bit.ins (07 R157, Table K-62). -/
def execBitIns (d a b : BitVec 5) (s : State) : Out :=
  .next (finishG s d (insertField (s.cr.rdG d) (s.cr.rdG a) (s.cr.rdG b)))

end Sys2Proof.Machine
end

