-- ==== Sys2Proof/Machine/MgmtRegs.lean ====
section
/-! DEFINITION. Management registers and district registers, alerts (19 R352, R353, R361; 21 R371, R372; 22 R376). -/

namespace Sys2Proof.Machine

/-- Bits of ALERTST (19 Table D-29). -/
abbrev alertThrot : Nat := 0
abbrev alertCrit : Nat := 1
abbrev alertPceil : Nat := 2
abbrev alertCoolant : Nat := 3
abbrev alertVolt : Nat := 4

/-- Bit i of five. -/
def bit5 (i : Nat) : BitVec 5 := 1#5 <<< i

/-- An ALERTST bit becomes set; where it was clear and is enabled, INTERRUPT SUB 3 is raised once (19 R361). A district
alert names its district. -/
def State.alert (s : State) (i : Nat) (dist : Option Nat) : State :=
  let k := s.kiln
  let was := k.alertst.getLsbD i
  let s1 := { s with kiln := { k with alertst := k.alertst ||| bit5 i
                                      alertDist := match dist with
                                        | some d => BitVec.ofNat 10 d
                                        | none => k.alertDist } }
  if !was && k.alerten.getLsbD i then s1.interrupt mgmtCore 3 else s1

/-- A write to ALERTST: each 1 clears its bit (19 R361). -/
def alertstWrite (v : Word) (s : State) : State :=
  { s with kiln := { s.kiln with alertst := s.kiln.alertst &&& ~~~(v.setWidth 5) } }

/-- A write to ALERTEN: an EN bit that goes from 0 to 1 while its ALERTST bit is set raises INTERRUPT SUB 3; one raise
for the write (DEDUCED, log 37). Clearing a bit withdraws nothing (21 R371). -/
def alertenWrite (v : Word) (s : State) : State :=
  let en : BitVec 5 := v.setWidth 5
  let rising := en &&& ~~~s.kiln.alerten &&& s.kiln.alertst
  let s1 := { s with kiln := { s.kiln with alerten := en } }
  if rising ≠ 0 then s1.interrupt mgmtCore 3 else s1

/-- A write to BOOTST: GOREADY sets STATE 3 once, from Gwemer running (19 R352, R362). -/
def goreadyWrite (v : Word) (s : State) : State :=
  if v.getLsbD 63 && !s.boot.goready then
    { s with boot := { s.boot with goready := true, state := if s.boot.state = 2 then 3 else s.boot.state } }
  else s

/-- A write to a row of the limit table; reserved bits are discarded. It is in force from the next 1 us interval
(19 R356, R357). -/
def limtabWrite (key : Nat) (v : Word) (s : State) : State :=
  let w := v &&& 0x80FFFFFFFFFFF0FF
  { s with kiln := { s.kiln with limtab := if w = 0 then terase key s.kiln.limtab else tset key w s.kiln.limtab } }

/-- A write to RETIRE marks a district; one that names the system district or a number beyond 639 is ignored (22 R376,
00 R3). -/
def retireWrite (v : Word) (s : State) : State :=
  let d := v.toNat % 1024
  if 0 < d ∧ d < 640 then (if (s.distReg d).retired then s else s.modReg d fun r => { r with retiring := true }) else s

/-- BOOTST as it reads (19 Table D-29). -/
def Boot.status (b : Boot) : Word :=
  BitVec.ofNat 64 (b.state.toNat + (if b.slot then 16 else 0) + b.errA.toNat * 2 ^ 8 + b.errB.toNat * 2 ^ 16 +
    (if b.goready then 2 ^ 63 else 0))

/-- COOL as it reads. -/
def Kiln.cool (k : Kiln) : Word :=
  BitVec.ofNat 64 (k.mode.toNat + k.row.toNat * 2 ^ 4 + (if k.stale then 2 ^ 8 else 0) + k.inlet.toNat * 2 ^ 16 +
    k.flow.toNat * 2 ^ 32 + k.medium.toNat * 2 ^ 48)

/-- DGSTAT[g] as it reads. -/
def Kiln.dgstat (k : Kiln) (g : Nat) : Word :=
  BitVec.ofNat 64 ((vget k.head g).toNat + (vget k.tiepref g).toNat * 2 ^ 16 + (vget k.gwatts g).toNat * 2 ^ 32)

/-- A management register as it reads (19 Table D-29); unlisted registers and bits read zero (R352). -/
def mgmtRead (s : State) (n : Nat) : Word :=
  let k := s.kiln
  if n = 0x800 then s.boot.status
  else if n = 0x801 then Config.svnMin.setWidth 64
  else if n = 0x808 then k.cool
  else if n = 0x809 then k.modpwr.setWidth 64
  else if n = 0x80A then BitVec.ofNat 64 k.modStep
  else if n = 0x80B then k.boostw.setWidth 64
  else if n = 0x810 then BitVec.ofNat 64 (k.alertst.toNat + k.alertDist.toNat * 2 ^ 32)
  else if n = 0x811 then k.alerten.setWidth 64
  else if n = 0x818 then BitVec.ofNat 64 ((if s.boot.cbusy.isSome then 1 else 0) + (if s.boot.cresult then 2 else 0) +
    s.boot.cerr.toNat * 2 ^ 8)
  else if 0x820 ≤ n ∧ n < 0x824 then k.dgstat (n - 0x820)
  else if 0xA00 ≤ n ∧ n < 0xA18 then tgetD (n - 0xA00) k.limtab
  else 0

/-- A write to a management register (19 Table D-29); a write to any other is ignored (R352). -/
def mgmtWrite (n : Nat) (v : Word) (s : State) : State :=
  if n = 0x800 then goreadyWrite v s
  else if n = 0x80B then { s with kiln := { s.kiln with boostw := v.setWidth 16 } }
  else if n = 0x810 then alertstWrite v s
  else if n = 0x811 then alertenWrite v s
  else if n = 0x830 then retireWrite v s
  else if 0xA00 ≤ n ∧ n < 0xA18 then limtabWrite (n - 0xA00) v s
  else s

/-- DLEVEL of a district: of its region, or as the register last stood (19 Table D-30). -/
def State.dlevel (s : State) (d : Nat) : Nat × Nat × Nat :=
  match s.regionAt d with
  | some r => (r.level, r.want, r.permits)
  | none => let g := s.distReg d; (g.grant.toNat, g.want.toNat, g.permits.toNat)

/-- A district register as it reads (19 Table D-30); an unlisted number reads zero. -/
def distRead (s : State) (d n : Nat) : Word :=
  let g := s.distReg d
  match n with
  | 0x00 => g.temp.setWidth 64
  | 0x01 => g.mv.setWidth 64
  | 0x02 => g.ring.setWidth 64
  | 0x08 => BitVec.ofNat 64 (g.step + g.fwstep.toNat * 2 ^ 8)
  | 0x09 => let (c, w, p) := s.dlevel d; BitVec.ofNat 64 (c + w * 2 ^ 4 + p * 2 ^ 8)
  | 0x0A => g.allot.setWidth 64
  | _ => 0

/-- A write to a district register; a read-only or unlisted one is ignored (19 R353). -/
def distWrite (d n : Nat) (v : Word) (s : State) : State :=
  match n with
  | 0x08 => s.modReg d fun g => { g with fwstep := v.extractLsb' 8 3 }
  | 0x0A => s.modReg d fun g => { g with allot := v.setWidth 24 }
  | _ => s

end Sys2Proof.Machine
end

