-- ==== Sys2Proof/Machine/MgmtIns.lean ====
section
/-! DEFINITION. Management instructions: mgmt (19 R351, R364). -/

namespace Sys2Proof.Machine

/-- A management instruction traps PRIVILEGE at level 0 (06 R124, 19 R351). -/
def onLevel1 (s : State) (t : State) : State := if s.cr.level1 then t else syncTrap s causePrivilege

/-- mgmt.drd (19 Table D-28). -/
def execMgmtDrd (d : BitVec 5) (n : BitVec 8) (s : State) : Out :=
  let v := (s.cr.rdG d).toNat
  .next (onLevel1 s (finishG s d (if v < 640 then distRead s v n.toNat else BitVec.allOnes 64)))

/-- mgmt.dwr (19 Table D-28); the district is named by g[gd][9:0]. -/
def execMgmtDwr (d : BitVec 5) (n : BitVec 8) (s : State) : Out :=
  let x := s.cr
  let k := (x.rdG d).toNat % 1024
  .next (onLevel1 s (
    let s1 := if k < 640 then distWrite k n.toNat (x.rdG (d + 1)) s else s
    finish s1 s1.cr))

/-- mgmt.sint (19 Table D-28). -/
def execMgmtSint (d : BitVec 5) (s : State) : Out :=
  let k := (s.cr.rdG d).toNat % 1024
  .next (onLevel1 s (
    let s1 := if k < 640 then s.interrupt k 1 else s
    finish s1 s1.cr))

/-! ### The crypto engine -/

/-- Whether n bytes at a management-store address lie in the store: in one of its four tiles (19 R349). -/
def inStore (a n : Nat) : Bool := decide (a / 2 ^ 19 < 4 ∧ a % 2 ^ 19 + n ≤ tileSize)

/-- n bytes of the management store. -/
def State.storeRead (s : State) (a n : Nat) : List Byte := (s.dist mgmtCore).tileRead (a / 2 ^ 19) (a % 2 ^ 19) n

/-- Writes into the management store; granules become full. -/
def State.storeWrite (s : State) (a : Nat) (bs : List Byte) : State :=
  s.modDist mgmtCore fun x => x.tileWrite (a / 2 ^ 19) (a % 2 ^ 19) bs

/-- A field of a crypto block. -/
def blockField (b : List Byte) (off n : Nat) : Nat := leNat ((b.drop off).take n)

/-- The MAGIC of an attestation report (19 Table D-35). -/
def reportMagic : Nat := 0x53524B41

/-- ERR of a crypto block, 0 where it may run (19 R364, Table D-34). -/
def cryptoErr (s : State) (b : List Byte) : Nat :=
  let op := blockField b 0 1
  let len := blockField b 4 4
  let src := blockField b 8 8
  let dst := blockField b 16 8
  let key := blockField b 24 8
  let sig := blockField b 32 8
  let idx := blockField b 40 1
  let zero := blockField b 1 3 = 0 ∧ blockField b 41 23 = 0
  let okIdx := op ≠ 4 ∧ op ≠ 5 ∨ idx ≤ 7
  if op < 1 ∨ 5 < op ∨ ¬ zero ∨ ¬ okIdx then 1
  else
    let ranges : List (Nat × Nat) := match op with
      | 1 => [(src, len), (dst, 32)]
      | 2 => [(src, len), (key, 64), (sig, 29792)]
      | 3 => [(src, len), (dst, 29792)]
      | 4 => [(src, 32)]
      | _ => [(key, 32)]
    if !ranges.all fun (a, n) => inStore a n then 2
    else if op = 3 ∧ (len < 4 ∨ leNat (s.storeRead src 4) ≠ reportMagic) then 3
    else if op = 4 ∧ (idx = 0 ∨ len ≠ 32) then 4
    else 0

/-- mgmt.crypto (19 R351, R364): it waits while BUSY = 1; a refused block sets ERR and changes nothing else. -/
def execMgmtCrypto (d : BitVec 5) (s : State) : Out :=
  let a := (s.cr.rdG d).toNat
  .next (onLevel1 s (
    if s.boot.cbusy.isSome then s
    else
      let s1 := finish s s.cr
      let b := s.storeRead a 64
      let err := if a % 16 ≠ 0 then 1 else if !inStore a 64 then 2 else cryptoErr s b
      if err = 0 then { s1 with boot := { s1.boot with cbusy := some b, signMeas := s.boot.meas } }
      else { s1 with boot := { s1.boot with cerr := BitVec.ofNat 8 err } }))

end Sys2Proof.Machine
end

