-- ==== Sys2Proof/Machine/Shake.lean ====
section
/-! DEFINITION. SHAKE256 (FIPS 202), which the crypto engine and the ROM compute (19 R362, R364). -/

namespace Sys2Proof.Machine

/-- The 25 lanes of Keccak-f[1600], lane x + 5y. -/
abbrev Lanes := Vector (BitVec 64) 25

/-- Lane x + 5y, both taken modulo 5. -/
def Lanes.at (a : Lanes) (x y : Nat) : BitVec 64 := vget a (x % 5 + 5 * (y % 5))

/-- Round constants of iota. -/
def keccakRC : List (BitVec 64) :=
  [0x0000000000000001, 0x0000000000008082, 0x800000000000808A, 0x8000000080008000,
   0x000000000000808B, 0x0000000080000001, 0x8000000080008081, 0x8000000000008009,
   0x000000000000008A, 0x0000000000000088, 0x0000000080008009, 0x000000008000000A] ++
  [0x000000008000808B, 0x800000000000008B, 0x8000000000008089, 0x8000000000008003,
   0x8000000000008002, 0x8000000000000080, 0x000000000000800A, 0x800000008000000A,
   0x8000000080008081, 0x8000000000008080, 0x0000000080000001, 0x8000000080008008]

/-- Rotation offsets of rho, lane x + 5y. -/
def keccakRho : List Nat :=
  [0, 1, 62, 28, 27, 36, 44, 6, 55, 20, 3, 10, 43] ++ [25, 39, 41, 45, 15, 21, 8, 18, 2, 61, 56, 14]

/-- Lanes from a function of x and y. -/
def Lanes.ofFn (f : Nat → Nat → BitVec 64) : Lanes := Vector.ofFn fun (i : Fin 25) => f (i.val % 5) (i.val / 5)

/-- One round. -/
def keccakRound (a : Lanes) (rc : BitVec 64) : Lanes :=
  let col : Lanes := .ofFn fun x _ => a.at x 0 ^^^ a.at x 1 ^^^ a.at x 2 ^^^ a.at x 3 ^^^ a.at x 4
  let th : Lanes := .ofFn fun x y => a.at x y ^^^ col.at (x + 4) 0 ^^^ (col.at (x + 1) 0).rotateLeft 1
  let rho : Lanes := .ofFn fun x y => (th.at x y).rotateLeft (nth (x + 5 * y) keccakRho)
  let pi : Lanes := .ofFn fun x y => rho.at (x + 3 * y) x
  let chi : Lanes := .ofFn fun x y => pi.at x y ^^^ (~~~(pi.at (x + 1) y) &&& pi.at (x + 2) y)
  vset chi 0 (vget chi 0 ^^^ rc)

/-- Keccak-f[1600]. -/
def keccakF (a : Lanes) : Lanes := keccakRC.foldl keccakRound a

/-- XORs up to 136 bytes into the lanes. -/
def absorb : Nat → Nat → List Byte → Lanes → Lanes
  | 0, _, _, a => a
  | n + 1, i, bs, a =>
    if bs.isEmpty then a
    else absorb n (i + 1) (bs.drop 8) (vset a i (vget a i ^^^ BitVec.ofNat 64 (leNat (bs.take 8))))

/-- Absorbs whole blocks of 136 bytes; `n` bounds their number. -/
def sponge : Nat → List Byte → Lanes → Lanes
  | 0, _, a => a
  | n + 1, bs, a => if bs.isEmpty then a else sponge n (bs.drop 136) (keccakF (absorb 17 0 (bs.take 136) a))

/-- Sets the high bit of a byte in the last place. -/
def lastBit (l : List Byte) : List Byte := l.dropLast ++ (l.getLast?.map fun b => b ||| 0x80#8).toList

/-- The first 32 bytes of SHAKE256 of a message. -/
def shake256 (m : List Byte) : List Byte :=
  let padded := lastBit (m ++ [0x1F#8] ++ List.replicate (135 - m.length % 136) 0)
  let a := sponge (m.length / 136 + 1) padded (Vector.replicate 25 0)
  ((List.range 4).flatMap fun i => leBytes 8 (vget a i).toNat)

/-- SHAKE256-256 as a number, byte 0 lowest. -/
def shakeWord (m : List Byte) : BitVec 256 := BitVec.ofNat 256 (leNat (shake256 m))

end Sys2Proof.Machine
end

