-- ==== Sys2Proof/Machine/Boot.lean ====
section
/-! DEFINITION. Cold reset and the ROM, the crypto engine, attestation requests (19 R350, R362-R366). -/

namespace Sys2Proof.Machine

/-! ### Cold reset and the ROM (R362, R363) -/

/-- n bytes of a boot-flash image slot. -/
def State.flashRead (s : State) (slot off n : Nat) : List Byte := mgets (slot * 2 ^ 32 + off) n s.flash

/-- Size of an SLH-DSA-SHAKE-256s signature. -/
def sigSize : Nat := 29792

/-- A body length that the image layout allows (R363). -/
def bodyOk (n : Nat) : Bool := n % 4 == 0 && decide (n ≤ 262144)

/-- The first check of the ROM that an image slot fails; 0 for none. A BODYLEN that the layout forbids fails with MAGIC
and VERSION (DEDUCED, log 72). -/
def State.romCheck (s : State) (slot : Nat) : BitVec 8 :=
  let hdr := s.flashRead slot 0 96
  let f (off n : Nat) := blockField hdr off n
  let len := f 12 4
  let key := (hdr.drop 32).take 64
  if f 0 4 ≠ 0x45574B47 ∨ f 4 4 ≠ 1 ∨ bodyOk len = false then 1
  else if shakeWord key ≠ Config.keyHash then 2
  else if f 8 4 < Config.svnMin.toNat then 3
  else if Config.slhVerify key (hdr ++ s.flashRead slot (96 + sigSize) len) (s.flashRead slot 96 sigSize) then 0
  else 4

/-- The ROM reads an image slot into the management store, at address 0 (DESIGN CHOICE, log 73). -/
def State.romRead (s : State) (slot : Nat) : State :=
  let len := blockField (s.flashRead slot 0 96) 12 4
  s.storeWrite 0 (s.flashRead slot 0 (if bodyOk len then 96 + sigSize + len else 96))

/-- The ROM starts an image that passed its checks (R362 step 4). PC holds the bits [17:2] of ENTRY, its others being always 0
(06 R120; DEDUCED, log 156). -/
def State.romStart (s : State) (slot : Nat) : State :=
  let hdr := s.flashRead slot 0 96
  let body := s.flashRead slot (96 + sigSize) (blockField hdr 12 4)
  let s1 := s.modDist mgmtCore fun x =>
    { x with istore := mputs 0 body [], core := { x.core with pc := BitVec.ofNat 64 (blockField hdr 16 4) &&& 0x3FFFC } }
  { s1 with boot := { s1.boot with
      state := 2, slot := slot == 1, svn := BitVec.ofNat 32 (blockField hdr 8 4)
      meas := vset s1.boot.meas 0 (shakeWord (List.replicate 32 0 ++ shake256 (hdr ++ body))) } }

/-- The module as a cold reset finds it: everything at its reset value but what is not the module's own, the boot flash
and the host's memory, and the model's own counter and agenda. -/
def State.cold (s : State) : State :=
  { State.reset with flash := s.flash, host := s.host, tick := s.tick, agenda := s.agenda }

/-- COLD_RESET: the ROM tries image slot A, then B, and starts the first that passes its checks; if both fail STATE
becomes 4 and the core halts (R362). -/
def execColdReset (s : State) : Out :=
  let s1 := s.cold.romRead 0
  let a := s1.romCheck 0
  .next (if a = 0 then s1.romStart 0
  else
    let s2 := s1.romRead 1
    let b := s2.romCheck 1
    let s3 := { s2 with boot := { s2.boot with errA := a, errB := b } }
    if b = 0 then s3.romStart 1
    else { s3 with boot := { s3.boot with state := 4 } }.modCore mgmtCore fun c => { c with halted := true, running := false })

/-! ### The crypto engine (R364) -/

/-- A crypto command ends: BUSY = 0, ERR = 0. -/
def State.cryptoEnd (s : State) : State := { s with boot := { s.boot with cbusy := none, cerr := 0 } }

/-- The block of the running command, if it is of an operation. -/
def State.cryptoBlock (s : State) (op : Nat) : Option (List Byte) :=
  match s.boot.cbusy with
  | some b => if blockField b 0 1 = op then some b else none
  | none => none

/-- The LEN bytes at SRC of a block. -/
def State.cryptoSrc (s : State) (b : List Byte) : List Byte := s.storeRead (blockField b 8 8) (blockField b 4 4)

/-- CRYPTO_HASH: 32 bytes of SHAKE256 at DST (Table D-34). -/
def execCryptoHash (s : State) : Out :=
  .next (match s.cryptoBlock 1 with
    | some b => (s.storeWrite (blockField b 16 8) (shake256 (s.cryptoSrc b))).cryptoEnd
    | none => s)

/-- CRYPTO_VERIFY: RESULT (Table D-34). -/
def execCryptoVerify (s : State) : Out :=
  .next (match s.cryptoBlock 2 with
    | some b =>
      let ok := Config.slhVerify (s.storeRead (blockField b 24 8) 64) (s.cryptoSrc b) (s.storeRead (blockField b 32 8) sigSize)
      { s with boot := { s.boot with cresult := ok } }.cryptoEnd
    | none => s)

/-- Bytes cut, or filled with zeros, to a length. -/
def padTo (n : Nat) (bs : List Byte) : List Byte := (bs ++ List.replicate n 0).take n

/-- A signature with the identity key. -/
def State.signature (s : State) (m : List Byte) : List Byte := padTo sigSize (Config.slhSign s.tick m)

/-- Bytes 0 to 383 of the attestation report for the request in hand (Table D-35): the nonce is that of the host's request,
MEAS as it stood when the SIGN in hand began (R366). -/
def State.reportBody (s : State) : List Byte :=
  leBytes 4 reportMagic ++ leBytes 4 1 ++ leBytes 8 Config.serial.toNat ++ leBytes 4 s.boot.svn.toNat ++
    leBytes 1 (if s.boot.slot then 1 else 0) ++ List.replicate 11 0 ++ mgets s.boot.attReq.toNat 32 s.host ++
    s.boot.signMeas.toList.flatMap (fun m => leBytes 32 m.toNat) ++ padTo 64 Config.identityKey

/-- The report of 30,176 bytes (R365). -/
def State.report (s : State) : List Byte := s.reportBody ++ s.signature s.reportBody

/-- Gwemer's report for the request in hand reaches the host, and ATTESTST reads 2 (R366). -/
def State.attested (s : State) : State :=
  { s.hostWrite (s.boot.attReq.toNat + 64) s.report with boot := { s.boot with attSt := 2 } }

/-- CRYPTO_SIGN: the signature with the identity key at DST (Table D-34). A SIGN over the 384 bytes of a report while a
request is in hand completes that request: the firmware has no register for MEAS or ATTESTST (DESIGN CHOICE, log 45). -/
def execCryptoSign (s : State) : Out :=
  .next (match s.cryptoBlock 3 with
    | some b =>
      let s1 := s.storeWrite (blockField b 16 8) (s.signature (s.cryptoSrc b))
      (if s.boot.attSt = 1 ∧ blockField b 4 4 = 384 then s1.attested else s1).cryptoEnd
    | none => s)

/-- CRYPTO_EXTEND: a measurement register (Table D-34). -/
def execCryptoExtend (s : State) : Out :=
  .next (match s.cryptoBlock 4 with
    | some b =>
      let i := blockField b 40 1
      let m := shakeWord (leBytes 32 (vget s.boot.meas i).toNat ++ s.storeRead (blockField b 8 8) 32)
      { s with boot := { s.boot with meas := vset s.boot.meas i m } }.cryptoEnd
    | none => s)

/-- CRYPTO_IDEKEY: the key of an IDE stream (Table D-34). -/
def execCryptoIdekey (s : State) : Out :=
  .next (match s.cryptoBlock 5 with
    | some b =>
      let k := BitVec.ofNat 256 (leNat (s.storeRead (blockField b 24 8) 32))
      { s with boot := { s.boot with ideKeys := vset s.boot.ideKeys (blockField b 40 1) k } }.cryptoEnd
    | none => s)

/-! ### Attestation (R350, R366) -/

/-- A write to ATTESTREQ: it interrupts the management core, is ignored while a report is being made, and fails at once
where the management core has failed. Gwemer makes the report (log 45). -/
def attestWrite (v : Word) (s : State) : State :=
  if s.boot.state = 4 then { s with boot := { s.boot with attSt := 3 } }
  else if s.boot.attSt = 1 then s
  else { s with boot := { s.boot with attReq := v &&& ~~~0x3F#64, attSt := 1 } }.interrupt mgmtCore 4

end Sys2Proof.Machine
end

