-- ==== Sys2Proof/Machine/Branch.lean ====
section
/-! DEFINITION. Branches, calls and jumps (07 R158, R159). -/

namespace Sys2Proof.Machine

/-- Whether a branch word is taken (07 R158). -/
def taken (s : State) (c : BitVec 3) (sense : BitVec 1) : Bool := s.cr.rdC c == (sense == 1)

/-- A taken branch: FETCH_RANGE where the target leaves the store, else PC, with the link if asked (07 R158). -/
def branchTo (s : State) (t : Int) (link : Bool) : State :=
  if 0 ≤ t ∧ t < storeTop then
    let x := s.cr
    let y := if link then x.wrG 31 (x.pc + 4) else x
    s.setCr { y with pc := BitVec.ofInt 64 t }
  else syncTrap s causeFetchRange

/-- br (07 R158). -/
def execBr (c : BitVec 3) (sense : BitVec 1) (o : BitVec 21) (s : State) : Out :=
  .next (if taken s c sense then branchTo s (branchTarget s.cr.pc o) false else finish s s.cr)

/-- call: links in g31 (07 R158). -/
def execCall (c : BitVec 3) (sense : BitVec 1) (o : BitVec 21) (s : State) : Out :=
  .next (if taken s c sense then branchTo s (branchTarget s.cr.pc o) true else finish s s.cr)

/-- A jump to n, with a link register; FETCH_RANGE where n is misaligned or leaves the store (07 R159). -/
def jumpTo (s : State) (n : Word) (link : Option (BitVec 5)) : State :=
  if jumpable n then
    let x := s.cr
    let y := match link with
      | some d => x.wrG d (x.pc + 4)
      | none => x
    s.setCr { y with pc := n }
  else syncTrap s causeFetchRange

/-- jmp.jr (07 R159). -/
def execJmpJr (a : BitVec 5) (s : State) : Out := .next (jumpTo s (s.cr.rdG a) none)

/-- jmp.jalr: n is read before the link is written (07 R159). -/
def execJmpJalr (d a : BitVec 5) (s : State) : Out := .next (jumpTo s (s.cr.rdG a) (some d))

/-- jmp.ret (07 R159). -/
def execJmpRet (s : State) : Out := .next (jumpTo s (s.cr.rdG 31) none)

end Sys2Proof.Machine
end

