-- ==== Sys2Proof/Machine/Trans.lean ====
section
/-! DEFINITION. Objects, page entries, translation caches and access counters (17 R327-R330, R337, R338; 18 R345). -/

namespace Sys2Proof.Machine

/-- Whether an access is data-class: a stream bound at a PORT, or fabric tokens through one (17 R335). -/
def Issuer.dataClass : Issuer → Bool
  | .pe _ => true
  | .stream _ => true
  | _ => false

/-- Whether an access is a scalar one of a SEQ or a pipeline element. -/
def Issuer.scalar : Issuer → Bool
  | .seq _ => true
  | .pe _ => true
  | _ => false

/-- An object entry (17 Table D-15). -/
structure Obj where
  limit : Nat
  ceil : BitVec 8
  large : Bool
  ptaddr : Nat
  deriving DecidableEq, Repr, Inhabited

/-- Bytes of a page of an object. -/
def Obj.pageSize (o : Obj) : Nat := if o.large then 2 ^ 24 else 65536

/-- Pages of an object (17 R328). -/
def Obj.pages (o : Obj) : Nat := (o.limit + o.pageSize - 1) / o.pageSize

/-- An object of a partition: within NOBJ, VALID, owned by the partition (17 R327, R329 check 1). -/
def State.objectOf (s : State) (part o : Nat) : Option Obj :=
  let c := (tgetD part s.parts).otcfg.toNat
  if nbits c 63 40 ≤ o then none
  else
    let a := nbits c 39 4 * 16 + 16 * o
    let lo := mgetN a 8 s.hbm
    let hi := mgetN (a + 8) 8 s.hbm
    if hi.testBit 15 = false ∨ nbits hi 13 8 ≠ part then none
    else some { limit := nbits hi 63 24, ceil := BitVec.ofNat 8 (nbits hi 23 16), large := hi.testBit 14
                ptaddr := nbits lo 39 3 * 8 }

/-- Fields of a page entry (17 Table D-16). -/
def pteFrame (e : Nat) : Nat := nbits e 63 28
def pteLoc (e : Nat) : Nat := nbits e 27 26
def pteAttr (e : Nat) : Nat := nbits e 25 24
def pteValid (e : Nat) : Bool := e.testBit 23
def pteDirty (e : Nat) : Bool := e.testBit 22
def ptePinned (e : Nat) : Bool := e.testBit 21
def pteMigrating (e : Nat) : Bool := e.testBit 20
def pteWb (e : Nat) : Bool := e.testBit 19
def pteZero (e : Nat) : Bool := e.testBit 18
def pteAcc (e : Nat) : Nat := nbits e 15 0

/-- The page entry of a page, as it stands in memory. -/
def State.pte (s : State) (o : Obj) (page : Nat) : Nat := mgetN (o.ptaddr + 8 * page) 8 s.hbm

/-- Writes a page entry. -/
def State.setPte (s : State) (o : Obj) (page e : Nat) : State := { s with hbm := mputN (o.ptaddr + 8 * page) 8 e s.hbm }

/-- What BAD_PTE names in a VALID entry (17 R329 check 3). -/
def pteBad (o : Obj) (e : Nat) : Bool :=
  pteLoc e == 3 || pteAttr e == 3 || (o.large && pteFrame e % 256 != 0) ||
    (pteLoc e == 2 && (decide (196608 ≤ pteFrame e % 2 ^ 18) || nbits (pteFrame e) 31 18 != 0))

/-- The byte that an offset of a page lies at: HBM address, host physical address, or weight-store key (17 Table D-16). -/
def frameByte (loc frame off : Nat) : Nat :=
  match loc with
  | 1 => frame * 65536 + off
  | 2 => frame / 2 ^ 32 * 2 ^ 34 + frame % 2 ^ 18 * 65536 + off
  | _ => frame % 2 ^ 24 * 65536 + off

/-- Reads n bytes of a page's memory. -/
def State.locRead (s : State) (loc a n : Nat) : List Byte :=
  mgets a n (if loc = 1 then s.host else if loc = 2 then s.ws else s.hbm)

/-- Writes bytes of a page's memory. -/
def State.locWrite (s : State) (loc a : Nat) (bs : List Byte) : State :=
  if loc = 1 then { s with host := mputs a bs s.host }
  else if loc = 2 then { s with ws := mputs a bs s.ws }
  else { s with hbm := mputs a bs s.hbm }

/-- Whether a cached entry is that of a page. -/
def TlbEntry.isFor (t : TlbEntry) (part obj page : Nat) : Bool :=
  t.part.toNat == part && t.obj.toNat == obj && t.page.toNat == page

/-- A count is added to ACC by the read-and-swap of 17 R337, and discarded where the entry migrates or is no host page;
the write-back that takes ACC to THRESH or above writes a HOT notification (17 R338, 18 R345). -/
def State.writeBack (s : State) (d : Nat) (t : TlbEntry) : State :=
  match s.objectOf t.part.toNat t.obj.toNat with
  | none => s
  | some o =>
    let e := s.pte o t.page.toNat
    if t.count = 0 ∨ pteValid e = false ∨ pteMigrating e = true ∨ pteLoc e ≠ 1 then s
    else
      let acc := min 0xFFFF (pteAcc e + t.count)
      let s1 := s.setPte o t.page.toNat (e - pteAcc e + acc)
      let thr := s.paging.hotth.toNat
      if thr ≠ 0 ∧ pteAcc e < thr ∧ thr ≤ acc then s1.notify 1 t.part.toNat 0 0 t.obj.toNat t.page.toNat acc d else s1

/-- Puts an entry into a cache of n entries; the entry that has been there longest leaves a full one (DESIGN CHOICE, log
56). -/
def tlbPut (n : Nat) (t : TlbEntry) (l : List TlbEntry) : List TlbEntry × Option TlbEntry :=
  let k := l.filter fun u => !u.isFor t.part.toNat t.obj.toNat t.page.toNat
  if k.length < n then (k ++ [t], none) else (k.drop 1 ++ [t], k.head?)

/-- Changes the translation cache of a PORT. -/
def State.modTlb (s : State) (d : Nat) (f : List TlbEntry → List TlbEntry) : State :=
  s.modDist d fun x => { x with port := { x.port with tlb := f x.port.tlb } }

/-- Caches an entry at a PORT, at its SEQ where that issued the access, and in the die's second level (17 R330). -/
def State.cacheEntry (s : State) (d : Nat) (i : Issuer) (t : TlbEntry) : State :=
  let (l, out) := tlbPut 64 t (s.dist d).port.tlb
  let s1 := s.modTlb d fun _ => l
  let s2 := match out with
    | some u => s1.writeBack d u
    | none => s1
  let s3 := match i with
    | .seq c => s2.modCore c fun x => { x with tlb := (tlbPut 64 { t with count := 0 } x.tlb).1 }
    | _ => s2
  { s3 with paging := { s3.paging with
      l2 := tmod (distDie d) (fun l => (tlbPut 4096 { t with count := 0 } l).1) s3.paging.l2 } }

/-- A cached entry of a page: the issuer's first level, then the die's second level (17 R330). -/
def State.lookup (s : State) (d : Nat) (i : Issuer) (part obj page : Nat) : Option TlbEntry :=
  let find (l : List TlbEntry) := l.find? fun t => t.isFor part obj page
  let first := match i with
    | .seq c => find (s.coreOf c).tlb
    | _ => none
  (first.orElse fun _ => find (s.dist d).port.tlb).orElse fun _ => find (tgetD (distDie d) s.paging.l2)

/-- The partition of the region that occupies a district. -/
def State.partAt (s : State) (d : Nat) : Nat := ((s.regionAt d).map (·.part.toNat)).getD 0

/-- The page that an access touches, as an object and a page number. -/
def Access.page (a : Access) (o : Obj) : Nat := a.offset.toNat / o.pageSize

/-- The page number of an access in its object. -/
def State.pageOf (s : State) (part : Nat) (a : Access) : Nat :=
  match s.objectOf part a.obj.toNat with
  | some o => a.page o
  | none => 0

/-- The ordering attribute of an access's page, cached or as it stands in memory (05 R110). -/
def State.attrOf (s : State) (d part : Nat) (a : Access) : Nat :=
  match s.objectOf part a.obj.toNat with
  | none => 1
  | some o =>
    match s.lookup d a.issuer part a.obj.toNat (a.page o) with
    | some t => t.attr.toNat
    | none => pteAttr (s.pte o (a.page o))

/-- Whether two accesses overlap. -/
def overlaps (a b : Access) : Bool :=
  a.obj == b.obj && decide (a.offset.toNat < b.offset.toNat + b.size) && decide (b.offset.toNat < a.offset.toNat + a.size)

/-- Every entry leaves the first-level caches of a district. -/
def State.flushTlb (s : State) (d : Nat) : State :=
  let s1 := (s.dist d).port.tlb.foldl (fun s t => s.writeBack d t) s
  s1.modDist d fun x => { x with port := { x.port with tlb := [] }, core := { x.core with tlb := [] } }

/-- Entries that meet a test leave every cache (17 R331). -/
def State.dropTlb (s : State) (p : TlbEntry → Bool) : State :=
  let s1 := s.districts.foldl (fun s (d, _) =>
    let s1 := ((s.dist d).port.tlb.filter p).foldl (fun s t => s.writeBack d t) s
    s1.modDist d fun x =>
      { x with port := { x.port with tlb := x.port.tlb.filter fun t => !p t }
               core := { x.core with tlb := x.core.tlb.filter fun t => !p t } }) s
  { s1 with paging := { s1.paging with l2 := s1.paging.l2.map fun (k, l) => (k, l.filter fun t => !p t) } }

/-- ACC of a page as its entry holds it. -/
def State.accOf (s : State) (part obj page : Nat) : BitVec 16 :=
  match s.objectOf part obj with
  | none => 0
  | some o => BitVec.ofNat 16 (pteAcc (s.pte o page))

/-- One more access of a PORT to a host page, counted in its cached entry, and written back at a count of 32 or where ACC
as read, being below THRESH, reaches it with the count (17 R338, 18 R345). -/
def State.countHost (s : State) (d part obj page : Nat) : State :=
  match (s.dist d).port.tlb.find? fun t => t.isFor part obj page with
  | none => s
  | some t =>
    let n := t.count + 1
    let thr := s.paging.hotth.toNat
    let put (k : Nat) (acc : BitVec 16) (s : State) : State :=
      s.modTlb d fun l => l.map fun t => if t.isFor part obj page then { t with count := k, acc := acc } else t
    if n = 32 ∨ (t.acc.toNat < thr ∧ thr ≤ t.acc.toNat + n) then
      let s1 := s.writeBack d { t with count := n }
      put 0 (s1.accOf part obj page) s1
    else put n t.acc s

end Sys2Proof.Machine
end

