-- ==== Sys2Proof/Machine/MemOps.lean ====
section
/-! DEFINITION. Memory instructions of a SEQ: what each word asks for, the checks of 08 R173, the memory issue queue,
how requests leave in the order 05 R108-R117 allow, and how a reply completes them (08 R170-R177, 07 R162, R164). -/

namespace Sys2Proof.Machine

/-- What a memory instruction asks for, apart from its registers. -/
structure MemForm where
  /-- bytes -/
  n : Nat := 4
  /-- a load's result is sign-extended -/
  sx : Bool := false
  /-- rights of 04 R104 -/
  rights : BitVec 8 := rightR
  /-- OP of 04 Table K-29 -/
  tileOp : BitVec 4 := 0
  /-- FEQ of 04 Table K-28 -/
  feq : BitVec 2 := 0
  /-- ord (06 R122) -/
  ord : BitVec 4 := 0
  /-- REPLY of 04 Table K-28 -/
  rep : Bool := false
  /-- rmem -/
  remote : Bool := false
  /-- amo -/
  amo : Bool := false
  /-- writes a register when the reply arrives -/
  writes : Bool := false
  /-- cap.ld or cap.st -/
  cap : Bool := false
  /-- counter -/
  cls : OpClass := .ldc
  deriving DecidableEq, Repr, Inhabited

/-- The form of a load (08 Table K-81; rights 04 R104). -/
def loadForm (n : Nat) (sx remote : Bool) (f : BitVec 2) (o : BitVec 4) : MemForm :=
  { n := n, sx := sx, feq := f, ord := o, remote := remote, writes := true
    rights := rightR ||| (if f = 0 then 0 else rightT) ||| (if f = 2 then rightW else 0) }

/-- The form of a store. A remote store is acknowledged, so that STC can fall (DEDUCED, log 35). -/
def storeForm (n : Nat) (remote : Bool) (f : BitVec 2) (o : BitVec 4) : MemForm :=
  { n := n, tileOp := 1, feq := f, ord := o, remote := remote, rep := remote, cls := .stc
    rights := rightW ||| (if f = 0 then 0 else rightT) }

/-- The form of an update (08 Table K-82, R177). -/
def amoForm (op : BitVec 4) (n : Nat) (ret : Bool) (f : BitVec 2) (o : BitVec 4) : MemForm :=
  { n := n, tileOp := op, feq := f, ord := o, amo := true, rep := ret, writes := ret, cls := .toc
    rights := rightW ||| rightA ||| (if ret then rightR else 0) }

/-- A memory instruction with its registers: form, gd (or kd), ga, ka. -/
structure MemInstr where
  form : MemForm
  d : BitVec 5
  a : BitVec 5
  k : BitVec 4
  deriving DecidableEq, Repr, Inhabited

/-- The memory instruction of a word's instruction (07 Table K-69, 08 Tables K-81, K-82); none for any other. -/
def memInstr : Instr → Option MemInstr
  | .memLdH d a k f o => some ⟨loadForm 2 false false f o, d, a, k⟩
  | .memLdHs d a k f o => some ⟨loadForm 2 true false f o, d, a, k⟩
  | .memLdW d a k f o => some ⟨loadForm 4 false false f o, d, a, k⟩
  | .memLdWs d a k f o => some ⟨loadForm 4 true false f o, d, a, k⟩
  | .memLdD d a k f o => some ⟨loadForm 8 false false f o, d, a, k⟩
  | .memLdQ d a k f o => some ⟨loadForm 16 false false f o, d, a, k⟩
  | .memStH d a k f o => some ⟨storeForm 2 false f o, d, a, k⟩
  | .memStW d a k f o => some ⟨storeForm 4 false f o, d, a, k⟩
  | .memStD d a k f o => some ⟨storeForm 8 false f o, d, a, k⟩
  | .memStQ d a k f o => some ⟨storeForm 16 false f o, d, a, k⟩
  | .rmemLdH d a k f o => some ⟨loadForm 2 false true f o, d, a, k⟩
  | .rmemLdHs d a k f o => some ⟨loadForm 2 true true f o, d, a, k⟩
  | .rmemLdW d a k f o => some ⟨loadForm 4 false true f o, d, a, k⟩
  | .rmemLdWs d a k f o => some ⟨loadForm 4 true true f o, d, a, k⟩
  | .rmemLdD d a k f o => some ⟨loadForm 8 false true f o, d, a, k⟩
  | .rmemLdQ d a k f o => some ⟨loadForm 16 false true f o, d, a, k⟩
  | .rmemStH d a k f o => some ⟨storeForm 2 true f o, d, a, k⟩
  | .rmemStW d a k f o => some ⟨storeForm 4 true f o, d, a, k⟩
  | .rmemStD d a k f o => some ⟨storeForm 8 true f o, d, a, k⟩
  | .rmemStQ d a k f o => some ⟨storeForm 16 true f o, d, a, k⟩
  | .amoAdd d a k f o => some ⟨amoForm 2 4 true f o, d, a, k⟩
  | .amoMin d a k f o => some ⟨amoForm 3 4 true f o, d, a, k⟩
  | .amoMax d a k f o => some ⟨amoForm 4 4 true f o, d, a, k⟩
  | .amoAmax d a k f o => some ⟨amoForm 5 4 true f o, d, a, k⟩
  | .amoAmaxr d a k f o => some ⟨amoForm 6 4 true f o, d, a, k⟩
  | .amoFaddW d a k f o => some ⟨amoForm 7 4 true f o, d, a, k⟩
  | .amoFaddH d a k f o => some ⟨amoForm 7 2 true f o, d, a, k⟩
  | .amoAnd d a k f o => some ⟨amoForm 8 4 true f o, d, a, k⟩
  | .amoOr d a k f o => some ⟨amoForm 9 4 true f o, d, a, k⟩
  | .amoXchg d a k f o => some ⟨amoForm 10 4 true f o, d, a, k⟩
  | .amoCas d a k f o => some ⟨amoForm 11 4 true f o, d, a, k⟩
  | .amoAddPosted d a k f o => some ⟨amoForm 2 4 false f o, d, a, k⟩
  | .amoMinPosted d a k f o => some ⟨amoForm 3 4 false f o, d, a, k⟩
  | .amoMaxPosted d a k f o => some ⟨amoForm 4 4 false f o, d, a, k⟩
  | .amoAmaxPosted d a k f o => some ⟨amoForm 5 4 false f o, d, a, k⟩
  | .amoFaddWPosted d a k f o => some ⟨amoForm 7 4 false f o, d, a, k⟩
  | .amoFaddHPosted d a k f o => some ⟨amoForm 7 2 false f o, d, a, k⟩
  | .amoAndPosted d a k f o => some ⟨amoForm 8 4 false f o, d, a, k⟩
  | .amoOrPosted d a k f o => some ⟨amoForm 9 4 false f o, d, a, k⟩
  | .capLd d k a => some ⟨{ loadForm 16 false false 0 0 with cap := true }, d.setWidth 5, a, k⟩
  | .capSt d k a => some ⟨{ storeForm 16 false 0 0 with cap := true }, d.setWidth 5, a, k⟩
  | _ => none

/-- The memory instruction that a captured word names. -/
def wordInstr (w : W32) : Option MemInstr := (decodeOne w).bind memInstr

/-- Whether a tile address lies in the acting SEQ's own district; every tile of the management store counts as its own
(08 R173, 19 R349). -/
def State.ownTile (s : State) (c : Nat) (addr : Nat) : Bool :=
  c = mgmtCore || match s.regionAt c with
    | none => false
    | some r => decide (addr / 2 ^ 19 % 2 ^ 18 / 250 = r.ordinal c)

/-- The checks of 08 R173 and R177, and of 07 R162 for cap.ld and cap.st, in order: the first that fails, with its SUB. -/
def memCheck (s : State) (c : Nat) (m : MemForm) (k : Cap) (o : Nat) (data0 : Word) : Option (BitVec 8 × BitVec 8) :=
  match capchk k o m.n m.rights with
  | some cause => some (cause, 0)
  | none =>
    if m.cap ∧ m.cls = .stc ∧ data0.getLsbD 31 = false then some (causeCapRights, 0)
    else if o % m.n ≠ 0 then some (if m.cap then (causeCapBounds, 0) else (causeMemForm, 1))
    else if capObj k = tileSpace then
      (if m.n = 8 then some (causeMemForm, 2)
       else if ¬ m.remote ∧ ¬ m.amo ∧ s.ownTile c o = false then some (causeMemForm, 4)
       else none)
    else if m.remote ∨ m.amo then some (causeMemForm, 5)
    else if m.feq ≠ 0 then some (causeMemForm, 3)
    else none

/-- Whether a memory instruction carries .acq (06 R122). -/
def isAcq (o : BitVec 4) : Bool := decide (1 ≤ o.toNat ∧ o.toNat ≤ 5)

/-- Whether a memory instruction carries .rel (06 R122). -/
def isRel (o : BitVec 4) : Bool := decide (6 ≤ o.toNat ∧ o.toNat ≤ 10)

/-- The form of an unfinished memory instruction; a descriptor read counts as a plain load. -/
def MemOp.form (o : MemOp) : MemForm :=
  if o.dld.isSome then { loadForm 16 false false 0 0 with n := 64 } else ((wordInstr o.word).map (·.form)).getD {}

/-- Whether the access of an unfinished instruction leaves the district as a remote request (08 R174, R176). -/
def State.isRemote (s : State) (c : Nat) (o : MemOp) : Bool :=
  capObj o.cap == tileSpace && (o.form.remote || (o.form.amo && !s.ownTile c o.addr.toNat))

/-- Whether two unfinished instructions touch a common granule of one object (05 R108). -/
def sameGranule (a b : MemOp) : Bool :=
  capObj a.cap == capObj b.cap && decide (a.addr.toNat / 16 * 16 < b.addr.toNat + b.form.n) &&
    decide (b.addr.toNat / 16 * 16 < a.addr.toNat + a.form.n)

/-- The ordering attribute of the page that an unfinished instruction accesses; none in tile space (05 R110). -/
def State.opAttr (s : State) (c : Nat) (o : MemOp) : Option Nat :=
  if capObj o.cap = tileSpace then none
  else some (s.attrOf c (s.partAt c) { obj := capObj o.cap, offset := o.addr.setWidth 40, issuer := .seq c })

/-- Whether a fence lies between an earlier instruction and a later one: that as which an .acq load on a UO page acts once
it has read, or the one before an unfinished .rel store to a UO page (05 R113). A fence at element scope holds nothing
back (05 R114). -/
def State.fencedOff (s : State) (c : Nat) (p o : MemOp) : Bool :=
  let x := s.coreOf c
  (match x.fenceMark with
    | some n => decide (p.id < n ∧ n < o.id)
    | none => false) ||
  x.ops.any fun q => decide (p.id < q.id ∧ q.id < o.id) && q.status != .errored &&
    decide (7 ≤ q.form.ord.toNat ∧ q.form.ord.toNat ≤ 10) && s.opAttr c q == some 2

/-- Whether a queued instruction may leave: no acquire before it is unread, nothing before a release is unfinished, no
access to its granule before it is on another way to memory, no fence between it and an unfinished access before it, and no
strongly ordered access before it has still to leave where it is one itself (05 R108, R111, R113). A descriptor image has
left with the last of its granules. One answered with an error holds nothing back. -/
def State.mayLeave (s : State) (c : Nat) (o : MemOp) : Bool :=
  let x := s.coreOf c
  (x.ops.takeWhile fun p => p.id != o.id).all fun p =>
    p.status == .errored ||
      (!isAcq p.form.ord && !isRel o.form.ord && !s.fencedOff c p o &&
        (!sameGranule p o || (p.status != .queued && p.dld.isNone && s.isRemote c p == s.isRemote c o)) &&
        ((p.status != .queued && p.dld.isNone) || s.opAttr c p != some 0 || s.opAttr c o != some 0))

/-- Changes an unfinished instruction. -/
def Core.modOp (c : Core) (id : Nat) (f : MemOp → MemOp) : Core :=
  { c with ops := c.ops.map fun o => if o.id = id then f o else o }

/-- The operand words of a request (04 R86, 08 R176). -/
def MemOp.operandWords (o : MemOp) : List W32 :=
  let m := o.form
  let v := o.data0
  if m.tileOp = 0 ∨ m.tileOp = 6 then []
  else if m.tileOp = 11 then [v.setWidth 32, v.extractLsb' 32 32]
  else if m.n = 2 then [(v &&& 0xFFFF).setWidth 32]
  else if m.n = 4 then [v.setWidth 32]
  else [v.setWidth 32, v.extractLsb' 32 32, o.data1.setWidth 32, o.data1.extractLsb' 32 32]

/-- WIDTH of a request (04 Table K-28). -/
def widthCode (n : Nat) : BitVec 2 := if n = 2 then 0 else if n = 4 then 1 else 2

/-- The DATA of a request token (04 Table K-28). -/
def requestWord (op : BitVec 4) (feq width : BitVec 2) (rep : Bool) (off : BitVec 19) : W32 :=
  op ++ feq ++ width ++ (if rep then 1#1 else 0#1) ++ (0 : BitVec 4) ++ off

/-- The DATA of a route token to a tile (04 Table K-28). -/
def routeWord (rch : BitVec 5) (tile : BitVec 18) : W32 := (15 : BitVec 4) ++ (rch ++ ((0 : BitVec 5) ++ tile))

/-- The bytes a page store writes. -/
def MemOp.storeBytes (o : MemOp) : List Byte :=
  leBytes o.form.n (o.data0.toNat + 2 ^ 64 * o.data1.toNat)

/-- An instruction is answered with an error: it stands ERRORED and its counter falls (08 R170, R174). -/
def errorOp (s : State) (c id : Nat) (esub : BitVec 8) : State :=
  s.modCore c fun x =>
    match x.ops.find? fun o => o.id = id with
    | none => x
    | some o =>
      if o.status = .errored then x
      else
        let y := (x.modOp id fun o => { o with status := .errored, esub := esub }).drop (wordClass o.word)
        { y with held := y.ops.any fun p => p.status == .held }

/-- Puts a request straight into a tile of the district at V (08 R174). -/
def District.toTile (x : District) (ord : Nat) (r : TileReq) : District :=
  { x with tiles := tmod (tileIdx ord) (fun t => { t with seqQ := t.seqQ ++ [r] }) x.tiles }

/-- An instruction leaves the issue queue: to a tile of its own district at V, over the fabric behind a route token, or to
the district's PORT (08 R174, R175). A descriptor image is four granule reads, one after the other (05 R109): at V of its
tile, whichever district of the region that stands in (08 R183; DEDUCED, log 39), or, where k0 names an object, through the
PORT (DESIGN CHOICE, log 155). The issuer itself answers a tile beyond the region (04 R98). The management core has no PORT:
its page access is denied (DESIGN CHOICE, log 36). -/
def sendOp (s : State) (c : Nat) (o : MemOp) : State :=
  let m := o.form
  let n := min 16 m.n
  let place := if o.dld.isSome then o.addr.toNat + 4 * o.reply.length else o.addr.toNat
  let s1 := s.modCore c fun x => x.modOp o.id fun o => { o with status := .sent }
  if capObj o.cap = tileSpace then
    if s.isRemote c o then
      let tile := o.addr.toNat / 2 ^ 19 % 2 ^ 18
      match s.tileAddr c o.addr.toNat with
      | none => errorOp s1 c o.id 6
      | some _ =>
        let ch := BitVec.ofNat 5 (s.planeField c seqIdx 0 32 16)
        let rch := BitVec.ofNat 5 (s.planeField c seqIdx 0 33 24)
        let link := s.planeField c seqIdx 0 34 0
        let req (v : W32) : Nat × Token := (link, { kind := 1, channel := ch, data := v, tag := some (c, o.id) })
        s1.emit (elemAt c seqIdx)
          ([req (routeWord rch (BitVec.ofNat 18 tile)),
            req (requestWord m.tileOp m.feq (widthCode m.n) m.rep (o.addr.setWidth 19))] ++
           o.operandWords.map fun v => (link, { dataTok ch v with tag := some (c, o.id) }))
    else
      match s.tileAddr c place with
      | none => errorOp s1 c o.id 2
      | some (d, ord, off) => s1.modDist d fun x => x.toTile ord
          { op := m.tileOp, feq := m.feq, width := widthCode n, rep := m.rep, offset := BitVec.ofNat 19 off
            operands := o.operandWords, origin := .seq o.id }
  else if c = mgmtCore then errorOp s1 c o.id 0
  else
    s1.modDist c fun x => { x with port := { x.port with accessQ := x.port.accessQ ++
      [{ obj := capObj o.cap, offset := BitVec.ofNat 40 place, size := n
         write := if m.tileOp = 1 then some o.storeBytes else none
         rights := capRights o.cap, issuer := .seq c, op := o.id
         inc := (s.distReg c).incarnation }] } }

/-- Sends those of the listed instructions that may leave. -/
def pumpGo (c : Nat) : List Nat → State → State
  | [], s => s
  | id :: t, s =>
    pumpGo c t (match (s.coreOf c).ops.find? fun o => o.id = id with
      | some o => if o.status = .queued ∧ s.mayLeave c o = true then sendOp s c o else s
      | none => s)

/-- Every queued instruction that may leave does; none does once a trap stops issue (08 R196 step 1). -/
def pump (s : State) (c : Nat) : State :=
  let x := s.coreOf c
  if x.trapping.isSome then s else pumpGo c (x.ops.map (·.id)) s

/-- A memory instruction enters the issue queue: its counter rises, it takes the next serial number, and what may leave
leaves (08 R170). -/
def enqueue (s : State) (c : Nat) (o : MemOp) (cls : OpClass) : State :=
  let s1 := s.modCore c fun x =>
    { x.bump cls with ops := x.ops ++ [{ o with id := x.opId }], opId := x.opId + 1
                      remote := x.remote || s.isRemote c o }
  pump s1 c

/-- Every access of a core is performed: its memory instructions are finished, or were answered with an error. -/
def Core.performed (c : Core) : Bool := c.ops.all fun o => o.status == .errored

/-- Whether the acting core may issue one more memory instruction (08 R170). An entry of the issue queue is counted until
its instruction is finished (DESIGN CHOICE, log 123: the rule does not say when an entry is free again). -/
def Core.mayIssue (c : Core) (cls : OpClass) : Bool := c.mayRaise cls && decide (c.ops.length < 64)

/-- Issues a memory instruction of the acting core: the checks of 08 R173, then a wait for room, then the queue. What a replay
entry gives as DATA0 is g[gd]; of cap.ld, and of strm.dld, which have no such register, it is 0 (DESIGN CHOICE, log 165). -/
def memExec (i : Instr) (s : State) : State :=
  match memInstr i with
  | none => s
  | some m =>
    let x := s.cr
    let o := x.rdG m.a
    let k := x.rdK m.k
    let kd := x.rdK (m.d.setWidth 4)
    let store := m.form.cls = .stc
    let d0 := if m.form.cap then (if store then kd.setWidth 64 else 0) else x.rdG m.d
    let d1 := if m.form.cap then (if store then kd.extractLsb' 64 64 else 0)
      else if m.form.n = 16 ∧ store then x.rdG (m.d + 1) else 0
    match memCheck s s.core m.form k o.toNat d0 with
    | some (cause, sub) => syncTrap s cause sub o
    | none =>
      if x.mayIssue m.form.cls then
        let op : MemOp := { pc := x.here, word := nth 0 (encode i), addr := o, data0 := d0, data1 := d1, cap := k
                            eecsn := x.ecsn }
        enqueue (s.setCr (x.advance 1)) s.core op m.form.cls
      else s

/-- The number that reply words hold, low word first. -/
def replyValue (ws : List W32) : Nat := leNat (bytesOfWords ws)

/-- The registers that a finished load or update writes (08 Tables K-81, K-82; 07 R164). A descriptor takes the capability
that its image names as it stands when the reply comes (DESIGN CHOICE, log 154). -/
def Core.writeBack (c : Core) (o : MemOp) (ws : List W32) : Core :=
  let v := replyValue ws
  match o.dld with
  | some d => c.wrD d (parseDescriptor (bytesOfWords ws) fun i => c.rdK (BitVec.ofNat 4 i))
  | none =>
    match wordInstr o.word with
    | none => c
    | some m =>
      if !m.form.writes then c
      else if m.form.cap then c.wrK (m.d.setWidth 4) (BitVec.ofNat 128 v)
      else if m.form.n = 16 then
        (c.wrG m.d (BitVec.ofNat 64 v)).wrG (m.d + 1) (BitVec.ofNat 64 (v / 2 ^ 64))
      else
        let n := 8 * m.form.n
        let w := v % 2 ^ n
        c.wrG m.d (if m.form.sx ∧ w.testBit (n - 1) = true then BitVec.ofInt 64 ((w : Int) - 2 ^ n) else BitVec.ofNat 64 w)

/-- A memory instruction finishes with its reply: registers are written, its counter falls, it leaves the list, and what
waited for it may leave. An .acq load of a UO page then acts as a fence behind it (05 R113). A descriptor image that breaks
08 R183 makes STREAM sub 1 pending. -/
def finishOp (s : State) (c id : Nat) (ws : List W32) : State :=
  match (s.coreOf c).ops.find? fun o => o.id = id with
  | none => s
  | some o =>
    let fenced := decide (2 ≤ o.form.ord.toNat ∧ o.form.ord.toNat ≤ 5) && s.opAttr c o == some 2
    let s1 := s.modCore c fun x =>
      let x := (x.writeBack o ws).drop (wordClass o.word)
      let ops := x.ops.filter fun p => p.id != id
      { x with ops := ops, held := ops.any fun p => p.status == .held
               fenceMark := if fenced then some id else x.fenceMark }
    let bad := match o.dld with
      | some d => ((s1.coreOf c).rdD d).isNone
      | none => false
    let s2 := if bad then s1.post c { cause := causeStream, sub := 1, epc := o.pc, eecsn := o.eecsn, xaddr := o.addr, opId := some o.id }
      else s1
    pump s2 c

/-- The reply words that an instruction needs before it is finished (04 R87). -/
def MemOp.needs (o : MemOp) : Nat := if o.dld.isSome then 16 else if o.form.writes then max 1 (o.form.n / 4) else 0

/-- A part of a reply has come: a word of a granule over the fabric, or a granule of a descriptor image, whose next granule
is then read (05 R109). -/
def partReply (s : State) (c : Nat) (o : MemOp) (ws : List W32) : State :=
  let s1 := s.modCore c fun x =>
    let y := x.modOp o.id fun o => { o with reply := ws, status := .sent }
    { y with held := y.ops.any fun p => p.status == .held }
  if o.dld.isSome then sendOp s1 c { o with reply := ws } else s1

/-- The completion of an operation that a SEQ started: a memory instruction's reply (a part of it, for a granule over
the fabric or a descriptor image), error or acknowledgement, or an engine's (08 R170). -/
def complete (s : State) (c : Nat) (k : Completion) : State :=
  match k.op with
  | some id =>
    match (s.coreOf c).ops.find? fun o => o.id = id with
    | none => s
    | some o =>
      let ws := o.reply ++ k.words
      if o.status = .errored then s
      else if k.esub ≠ 0 ∨ k.denied = true then errorOp s c id k.esub
      else if ws.length < o.needs then partReply s c o ws
      else finishOp s c id ws
  | none =>
    let s1 := match k.cause with
      | some x => s.post c x
      | none => s
    s1.modCore c fun x => x.drop k.counter

/-- A completion is on its way to a SEQ's slot. -/
def State.reply (s : State) (c : Nat) (k : Completion) : State := s.modCore c fun x => { x with inbox := x.inbox ++ [k] }

end Sys2Proof.Machine
end

