-- ==== Sys2Proof/Machine/Caps.lean ====
section
/-! DEFINITION. Capabilities: cap (07 R162-R164). -/

namespace Sys2Proof.Machine

/-- The acting core writes a capability register and PC moves past its word. -/
def finishK (s : State) (d : BitVec 4) (v : Cap) : State := finish s (s.cr.wrK d v)

/-- cap.mov (07 R162). -/
def execCapMov (d k : BitVec 4) (s : State) : Out := .next (finishK s d (s.cr.rdK k))

/-- cap.null (07 R162). -/
def execCapNull (d : BitVec 4) (s : State) : Out := .next (finishK s d 0)

/-- The checks that base, len and and share: form, then D (07 R162). -/
def deriveCheck (k : Cap) : Option (BitVec 8) :=
  if !capWellFormed k then some causeCapForm
  else if capRights k &&& rightD == 0 then some causeCapRights
  else none

/-- cap.base: BASE raised by g[ga], at most to LIMIT, without wrap (07 R162). -/
def execCapBase (d k : BitVec 4) (a : BitVec 5) (s : State) : Out :=
  let c := s.cr.rdK k
  let nb := (capBase c).toNat + (s.cr.rdG a).toNat
  .next (match deriveCheck c with
    | some cause => syncTrap s cause
    | none =>
      if nb ≤ (capLimit c).toNat then finishK s d (capMake (capLimit c) (BitVec.ofNat 40 nb) (capRights c) (capObj c))
      else syncTrap s causeCapBounds)

/-- cap.len: LIMIT set to BASE plus g[ga], at most the old LIMIT, without wrap (07 R162). -/
def execCapLen (d k : BitVec 4) (a : BitVec 5) (s : State) : Out :=
  let c := s.cr.rdK k
  let nl := (capBase c).toNat + (s.cr.rdG a).toNat
  .next (match deriveCheck c with
    | some cause => syncTrap s cause
    | none =>
      if nl ≤ (capLimit c).toNat then finishK s d (capMake (BitVec.ofNat 40 nl) (capBase c) (capRights c) (capObj c))
      else syncTrap s causeCapBounds)

/-- cap.and: the rights cut to a mask (07 R162). -/
def execCapAnd (d k : BitVec 4) (r : BitVec 8) (s : State) : Out :=
  let c := s.cr.rdK k
  .next (match deriveCheck c with
    | some cause => syncTrap s cause
    | none => finishK s d (capMake (capLimit c) (capBase c) (capRights c &&& r) (capObj c)))

/-- cap.test: whether a 1-byte capchk would pass; never traps (07 R162, R163). -/
def execCapTest (c : BitVec 3) (k : BitVec 4) (a : BitVec 5) (r : BitVec 8) (s : State) : Out :=
  .next (finishC s c (capchk (s.cr.rdK k) (s.cr.rdG a).toNat 1 r).isNone)

/-- cap.gbase (07 R162). -/
def execCapGbase (k : BitVec 4) (a : BitVec 5) (s : State) : Out :=
  .next (finishG s a ((capBase (s.cr.rdK k)).setWidth 64))

/-- cap.glimit (07 R162). -/
def execCapGlimit (k : BitVec 4) (a : BitVec 5) (s : State) : Out :=
  .next (finishG s a ((capLimit (s.cr.rdK k)).setWidth 64))

/-- cap.gmeta: rights and OBJ (07 R162). -/
def execCapGmeta (k : BitVec 4) (a : BitVec 5) (s : State) : Out :=
  .next (finishG s a (BitVec.setWidth 64 (capRights (s.cr.rdK k) ++ capObj (s.cr.rdK k))))

/-- cap.ld: a 16-byte load into k[kd] (07 R162, R164). -/
def execCapLd (d k : BitVec 4) (a : BitVec 5) (s : State) : Out := .next (memExec (.capLd d k a) s)

/-- cap.st: a 16-byte store of k[kd], which needs its K right (07 R162, R164). -/
def execCapSt (d k : BitVec 4) (a : BitVec 5) (s : State) : Out := .next (memExec (.capSt d k a) s)

end Sys2Proof.Machine
end

