-- ==== Sys2Proof/Machine/MemIns.lean ====
section
/-! DEFINITION. Loads, stores and updates: mem, rmem, amo (08 R172-R177). -/

namespace Sys2Proof.Machine

/-- An instruction that has no meaning on the management core traps ILLEGAL there (19 R349). -/
def onFabric (s : State) (t : State) : State := if s.core = mgmtCore then syncTrap s causeIllegal else t

/-- mem.ld.h (08 R172). -/
def execMemLdH (d a : BitVec 5) (k : BitVec 4) (f : BitVec 2) (o : BitVec 4) (s : State) : Out :=
  .next (memExec (.memLdH d a k f o) s)

/-- mem.ld.hs (08 R172). -/
def execMemLdHs (d a : BitVec 5) (k : BitVec 4) (f : BitVec 2) (o : BitVec 4) (s : State) : Out :=
  .next (memExec (.memLdHs d a k f o) s)

/-- mem.ld.w (08 R172). -/
def execMemLdW (d a : BitVec 5) (k : BitVec 4) (f : BitVec 2) (o : BitVec 4) (s : State) : Out :=
  .next (memExec (.memLdW d a k f o) s)

/-- mem.ld.ws (08 R172). -/
def execMemLdWs (d a : BitVec 5) (k : BitVec 4) (f : BitVec 2) (o : BitVec 4) (s : State) : Out :=
  .next (memExec (.memLdWs d a k f o) s)

/-- mem.ld.d (08 R172). -/
def execMemLdD (d a : BitVec 5) (k : BitVec 4) (f : BitVec 2) (o : BitVec 4) (s : State) : Out :=
  .next (memExec (.memLdD d a k f o) s)

/-- mem.ld.q (08 R172). -/
def execMemLdQ (d a : BitVec 5) (k : BitVec 4) (f : BitVec 2) (o : BitVec 4) (s : State) : Out :=
  .next (memExec (.memLdQ d a k f o) s)

/-- mem.st.h (08 R172). -/
def execMemStH (d a : BitVec 5) (k : BitVec 4) (f : BitVec 2) (o : BitVec 4) (s : State) : Out :=
  .next (memExec (.memStH d a k f o) s)

/-- mem.st.w (08 R172). -/
def execMemStW (d a : BitVec 5) (k : BitVec 4) (f : BitVec 2) (o : BitVec 4) (s : State) : Out :=
  .next (memExec (.memStW d a k f o) s)

/-- mem.st.d (08 R172). -/
def execMemStD (d a : BitVec 5) (k : BitVec 4) (f : BitVec 2) (o : BitVec 4) (s : State) : Out :=
  .next (memExec (.memStD d a k f o) s)

/-- mem.st.q (08 R172). -/
def execMemStQ (d a : BitVec 5) (k : BitVec 4) (f : BitVec 2) (o : BitVec 4) (s : State) : Out :=
  .next (memExec (.memStQ d a k f o) s)

/-- rmem.ld.h (08 R174). -/
def execRmemLdH (d a : BitVec 5) (k : BitVec 4) (f : BitVec 2) (o : BitVec 4) (s : State) : Out :=
  .next (onFabric s (memExec (.rmemLdH d a k f o) s))

/-- rmem.ld.hs (08 R174). -/
def execRmemLdHs (d a : BitVec 5) (k : BitVec 4) (f : BitVec 2) (o : BitVec 4) (s : State) : Out :=
  .next (onFabric s (memExec (.rmemLdHs d a k f o) s))

/-- rmem.ld.w (08 R174). -/
def execRmemLdW (d a : BitVec 5) (k : BitVec 4) (f : BitVec 2) (o : BitVec 4) (s : State) : Out :=
  .next (onFabric s (memExec (.rmemLdW d a k f o) s))

/-- rmem.ld.ws (08 R174). -/
def execRmemLdWs (d a : BitVec 5) (k : BitVec 4) (f : BitVec 2) (o : BitVec 4) (s : State) : Out :=
  .next (onFabric s (memExec (.rmemLdWs d a k f o) s))

/-- rmem.ld.d (08 R173). -/
def execRmemLdD (d a : BitVec 5) (k : BitVec 4) (f : BitVec 2) (o : BitVec 4) (s : State) : Out :=
  .next (onFabric s (memExec (.rmemLdD d a k f o) s))

/-- rmem.ld.q (08 R174). -/
def execRmemLdQ (d a : BitVec 5) (k : BitVec 4) (f : BitVec 2) (o : BitVec 4) (s : State) : Out :=
  .next (onFabric s (memExec (.rmemLdQ d a k f o) s))

/-- rmem.st.h (08 R174). -/
def execRmemStH (d a : BitVec 5) (k : BitVec 4) (f : BitVec 2) (o : BitVec 4) (s : State) : Out :=
  .next (onFabric s (memExec (.rmemStH d a k f o) s))

/-- rmem.st.w (08 R174). -/
def execRmemStW (d a : BitVec 5) (k : BitVec 4) (f : BitVec 2) (o : BitVec 4) (s : State) : Out :=
  .next (onFabric s (memExec (.rmemStW d a k f o) s))

/-- rmem.st.d (08 R173). -/
def execRmemStD (d a : BitVec 5) (k : BitVec 4) (f : BitVec 2) (o : BitVec 4) (s : State) : Out :=
  .next (onFabric s (memExec (.rmemStD d a k f o) s))

/-- rmem.st.q (08 R174). -/
def execRmemStQ (d a : BitVec 5) (k : BitVec 4) (f : BitVec 2) (o : BitVec 4) (s : State) : Out :=
  .next (onFabric s (memExec (.rmemStQ d a k f o) s))

/-- amo.add (08 R176). -/
def execAmoAdd (d a : BitVec 5) (k : BitVec 4) (f : BitVec 2) (o : BitVec 4) (s : State) : Out :=
  .next (memExec (.amoAdd d a k f o) s)

/-- amo.min (08 R176). -/
def execAmoMin (d a : BitVec 5) (k : BitVec 4) (f : BitVec 2) (o : BitVec 4) (s : State) : Out :=
  .next (memExec (.amoMin d a k f o) s)

/-- amo.max (08 R176). -/
def execAmoMax (d a : BitVec 5) (k : BitVec 4) (f : BitVec 2) (o : BitVec 4) (s : State) : Out :=
  .next (memExec (.amoMax d a k f o) s)

/-- amo.amax (08 R176). -/
def execAmoAmax (d a : BitVec 5) (k : BitVec 4) (f : BitVec 2) (o : BitVec 4) (s : State) : Out :=
  .next (memExec (.amoAmax d a k f o) s)

/-- amo.amaxr (08 R176). -/
def execAmoAmaxr (d a : BitVec 5) (k : BitVec 4) (f : BitVec 2) (o : BitVec 4) (s : State) : Out :=
  .next (memExec (.amoAmaxr d a k f o) s)

/-- amo.fadd.w (08 R176). -/
def execAmoFaddW (d a : BitVec 5) (k : BitVec 4) (f : BitVec 2) (o : BitVec 4) (s : State) : Out :=
  .next (memExec (.amoFaddW d a k f o) s)

/-- amo.fadd.h (08 R176). -/
def execAmoFaddH (d a : BitVec 5) (k : BitVec 4) (f : BitVec 2) (o : BitVec 4) (s : State) : Out :=
  .next (memExec (.amoFaddH d a k f o) s)

/-- amo.and (08 R176). -/
def execAmoAnd (d a : BitVec 5) (k : BitVec 4) (f : BitVec 2) (o : BitVec 4) (s : State) : Out :=
  .next (memExec (.amoAnd d a k f o) s)

/-- amo.or (08 R176). -/
def execAmoOr (d a : BitVec 5) (k : BitVec 4) (f : BitVec 2) (o : BitVec 4) (s : State) : Out :=
  .next (memExec (.amoOr d a k f o) s)

/-- amo.xchg (08 R176). -/
def execAmoXchg (d a : BitVec 5) (k : BitVec 4) (f : BitVec 2) (o : BitVec 4) (s : State) : Out :=
  .next (memExec (.amoXchg d a k f o) s)

/-- amo.cas (08 R176). -/
def execAmoCas (d a : BitVec 5) (k : BitVec 4) (f : BitVec 2) (o : BitVec 4) (s : State) : Out :=
  .next (memExec (.amoCas d a k f o) s)

/-- amo.add.posted (08 R176). -/
def execAmoAddPosted (d a : BitVec 5) (k : BitVec 4) (f : BitVec 2) (o : BitVec 4) (s : State) : Out :=
  .next (memExec (.amoAddPosted d a k f o) s)

/-- amo.min.posted (08 R176). -/
def execAmoMinPosted (d a : BitVec 5) (k : BitVec 4) (f : BitVec 2) (o : BitVec 4) (s : State) : Out :=
  .next (memExec (.amoMinPosted d a k f o) s)

/-- amo.max.posted (08 R176). -/
def execAmoMaxPosted (d a : BitVec 5) (k : BitVec 4) (f : BitVec 2) (o : BitVec 4) (s : State) : Out :=
  .next (memExec (.amoMaxPosted d a k f o) s)

/-- amo.amax.posted (08 R176). -/
def execAmoAmaxPosted (d a : BitVec 5) (k : BitVec 4) (f : BitVec 2) (o : BitVec 4) (s : State) : Out :=
  .next (memExec (.amoAmaxPosted d a k f o) s)

/-- amo.fadd.w.posted (08 R176). -/
def execAmoFaddWPosted (d a : BitVec 5) (k : BitVec 4) (f : BitVec 2) (o : BitVec 4) (s : State) : Out :=
  .next (memExec (.amoFaddWPosted d a k f o) s)

/-- amo.fadd.h.posted (08 R176). -/
def execAmoFaddHPosted (d a : BitVec 5) (k : BitVec 4) (f : BitVec 2) (o : BitVec 4) (s : State) : Out :=
  .next (memExec (.amoFaddHPosted d a k f o) s)

/-- amo.and.posted (08 R176). -/
def execAmoAndPosted (d a : BitVec 5) (k : BitVec 4) (f : BitVec 2) (o : BitVec 4) (s : State) : Out :=
  .next (memExec (.amoAndPosted d a k f o) s)

/-- amo.or.posted (08 R176). -/
def execAmoOrPosted (d a : BitVec 5) (k : BitVec 4) (f : BitVec 2) (o : BitVec 4) (s : State) : Out :=
  .next (memExec (.amoOrPosted d a k f o) s)

end Sys2Proof.Machine
end

