-- ==== Sys2Proof/Machine/StepIns.lean ====
section
/-! DEFINITION. Configuration steps, counters and signals: step (07 R165-R167, 01 R37-R39). -/

namespace Sys2Proof.Machine

/-- The trip counts and plane that STEPCFG holds (07 Tables K-71, K-72), as a step of a leaf. -/
def Core.stepOf (c : Core) (leaf : BitVec 24) : CurStep :=
  { leaf := leaf
    trip := #v[c.stepcfgLo.extractLsb' 0 24, c.stepcfgLo.extractLsb' 24 24,
               c.stepcfgHi.extractLsb' 0 24, c.stepcfgHi.extractLsb' 24 24]
    plane := c.stepcfgHi.extractLsb' 48 2 }

/-- ITER0 to ITER3 all zero. -/
def noIter : Vector (BitVec 24) 4 := #v[0, 0, 0, 0]

/-- Records that a configuration step or an engine command of this launch is bound to a plane (01 R39). -/
def State.noteEvent (s : State) (step : Bool) (plane : BitVec 2) (pc ecsn : BitVec 32) : State :=
  match s.regionAt s.core with
  | none => s
  | some r => s.modRegion r.loadId fun r =>
      if step then { r with evStep := tset plane.toNat (s.core, pc, ecsn) r.evStep }
      else { r with evCmd := tset plane.toNat (s.core, pc, ecsn) r.evCmd }

/-- step.begin (07 R165): STEP_OPEN, STEP_PLANE, else the step of the leaf becomes current and ECSN rises. -/
def execStepBegin (a : BitVec 5) (s : State) : Out :=
  let x := s.cr
  let st := x.stepOf ((x.rdG a).setWidth 24)
  .next (onFabric s (
    if x.step.isSome then syncTrap s causeStepOpen
    else if st.plane ≠ s.planeAt s.core then syncTrap s causeStepPlane
    else
      let s1 := finish s { x with step := some st, iter := noIter, ecsn := x.ecsn + 1 }
      (s1.noteEvent true st.plane x.here (x.ecsn + 1)).trace 3 s.core x.here (x.ecsn + 1) 0))

/-- One iteration further from level `i` on: the level's index, and whether the last level wrapped (01 R37). -/
def advanceIter (st : CurStep) (it : Vector (BitVec 24) 4) : Vector (BitVec 24) 4 × Bool :=
  let up (i : Fin 4) : Bool := it[i] == st.trip[i]
  if !up 0 then (it.set 0 (it[0] + 1), false)
  else if !up 1 then ((it.set 0 0).set 1 (it[1] + 1), false)
  else if !up 2 then (((it.set 0 0).set 1 0).set 2 (it[2] + 1), false)
  else if !up 3 then ((((it.set 0 0).set 1 0).set 2 0).set 3 (it[3] + 1), false)
  else (noIter, true)

/-- step.next (07 R165): one iteration; c[cd] tells that ITER3 wrapped and the step ended. -/
def execStepNext (c : BitVec 3) (s : State) : Out :=
  let x := s.cr
  .next (onFabric s (match x.step with
    | none => syncTrap s causeStepNone
    | some st =>
      let (it, ended) := advanceIter st x.iter
      finish s ({ x with iter := it, step := if ended then none else some st }.wrC c ended)))

/-- step.end (07 R165). -/
def execStepEnd (s : State) : Out :=
  let x := s.cr
  .next (onFabric s (
    if x.step.isSome then finish s { x with step := none, iter := noIter } else finish s x))

/-- The DONE tokens that have reached a SEQ and stand at the heads of its skid buffers. -/
def State.doneHeads (s : State) (d : Nat) : List Held :=
  (List.range 128).filterMap fun i => (s.headAt (elemAt d seqIdx) (i / 32) (i % 32)).filter fun h =>
    h.tok.code == ctlDone && s.routeOf (elemAt d seqIdx) (i / 32) (i % 32) == 5

/-- A DONE that arrived at step `n` may enter a SEQ's DONE queue of 16: there is room, and none waits that arrived earlier (07
R166; DEDUCED, log 82). -/
def State.mayEnterDone (s : State) (d n : Nat) : Bool :=
  let c := s.coreOf d
  decide (c.doneQ.length < 16) && (s.doneHeads d).all (fun h => decide (n ≤ h.arr)) &&
    c.doneWait.all fun w => decide (n ≤ w.1)

/-- The DONE queue and what waits beside it, once the oldest that wait have entered: while there is room, and up to the
first behind one of the tokens `heads`. -/
def doneGo (heads : List Held) : List (BitVec 24) → List (Nat × BitVec 24) → List (BitVec 24) × List (Nat × BitVec 24)
  | q, [] => (q, [])
  | q, (n, k) :: w =>
    if q.length < 16 ∧ heads.all (fun h => decide (n ≤ h.arr)) = true then doneGo heads (q ++ [k]) w else (q, (n, k) :: w)

/-- The DONEs of containments that may enter a SEQ's DONE queue enter it (07 R166; DEDUCED, log 82). -/
def State.settleDone (s : State) (d : Nat) : State :=
  s.modCore d fun c =>
    let (q, w) := doneGo (s.doneHeads d) c.doneQ c.doneWait
    { c with doneQ := q, doneWait := w }

/-- step.done (07 R165): removes the first DONE of the leaf, or waits. -/
def execStepDone (a : BitVec 5) (s : State) : Out :=
  let s := s.settleDone s.core
  let x := s.cr
  let leaf : BitVec 24 := (x.rdG a).setWidth 24
  .next (onFabric s (
    if x.doneQ.contains leaf then (finish s { x with doneQ := x.doneQ.erase leaf }).settleDone s.core else s))

/-- step.sig (07 R165, R166): SIG_RANGE, else a signal to the SEQ of a district of the region; it acts as .rel.region,
so it waits for the SEQ's earlier accesses, and for a place in the receiver's queue of 8. -/
def execStepSig (a b : BitVec 5) (s : State) : Out :=
  let x := s.cr
  let n := (x.rdG a).toNat
  let inRegion := match s.regionAt s.core with
    | some r => r.districts.contains n
    | none => false
  .next (onFabric s (
    if !inRegion then syncTrap s causeSigRange
    else if !x.ops.isEmpty || decide (8 ≤ (s.coreOf n).sigQ.length) then s
    else
      let s1 := s.modCore n fun y => { y with sigQ := y.sigQ ++ [(BitVec.ofNat 10 s.core, (x.rdG b).setWidth 32)] }
      finish s1 s1.cr))

/-- step.rcv (07 R165, R166): takes the oldest signal, or waits. -/
def execStepRcv (d : BitVec 5) (s : State) : Out :=
  let x := s.cr
  .next (onFabric s (match x.sigQ with
    | [] => s
    | (who, v) :: rest => finish s ({ x with sigQ := rest }.wrG d (BitVec.setWidth 64 (who ++ v)))))

end Sys2Proof.Machine
end

