-- ==== Sys2Proof/Machine/Strm.lean ====
section
/-! DEFINITION. Streams: strm (08 R182-R187). -/

namespace Sys2Proof.Machine

/-- The bytes of one element: 2^ESZ, or one block for a PXB format (08 Table K-85, 03 Table K-18). -/
def Descriptor.size (d : Descriptor) : Nat :=
  match d.fmt.toNat with
  | 5 => 16
  | 6 => 10
  | 7 => 6
  | _ => 2 ^ d.esz.toNat

/-- The count of dimension i. -/
def Descriptor.count (d : Descriptor) (i : Fin 4) : Nat := d.cnt[i].toNat + 1

/-- The number of elements of the walk. -/
def Descriptor.elements (d : Descriptor) : Nat := d.count 0 * d.count 1 * d.count 2 * d.count 3

/-- How far the last element of dimension i lies from its first. -/
def Descriptor.span (d : Descriptor) (i : Fin 4) : Int := (d.cnt[i].toNat : Int) * d.str[i].toInt

/-- The lowest element address of a walk that starts at `st`. -/
def Descriptor.low (d : Descriptor) (st : Int) : Int :=
  st + min 0 (d.span 0) + min 0 (d.span 1) + min 0 (d.span 2) + min 0 (d.span 3)

/-- The highest element address plus its size. -/
def Descriptor.high (d : Descriptor) (st : Int) : Int :=
  st + max 0 (d.span 0) + max 0 (d.span 1) + max 0 (d.span 2) + max 0 (d.span 3) + d.size

/-- capchk of 04 R104 over the extent of a walk that starts at `st` (08 R184 check 3). -/
def Descriptor.check (d : Descriptor) (st : Int) : Option (BitVec 8) :=
  let need := (if d.dir = 0 then rightR else rightW) ||| rightS
  if !capWellFormed d.cap then some causeCapForm
  else if capRights d.cap &&& need != need then some causeCapRights
  else if (capBase d.cap).toNat ≤ d.low st ∧ d.high st ≤ (capLimit d.cap).toNat then none
  else some causeCapBounds

/-- The address of element n of a walk, in the order of the walk: j0 fastest (08 R182). -/
def Descriptor.addr (d : Descriptor) (n : Nat) : Int :=
  let j0 := n % d.count 0
  let j1 := n / d.count 0 % d.count 1
  let j2 := n / d.count 0 / d.count 1 % d.count 2
  let j3 := n / d.count 0 / d.count 1 / d.count 2
  d.start.toNat + j0 * d.str[0].toInt + j1 * d.str[1].toInt + j2 * d.str[2].toInt + j3 * d.str[3].toInt

/-- The port that word 1 names: element number and port code, 5 for a PORT; none where there is none in the region
(08 R184 check 2). -/
def State.strmTarget (s : State) (die : BitVec 4) (row : BitVec 7) (col : BitVec 8) (port : BitVec 3) : Option (Nat × Nat) :=
  match elemOf die.toNat row.toNat col.toNat, s.regionAt s.core with
  | some e, some r =>
    if !r.districts.contains (elemDist e) then none
    else if idxKind (elemIdx e) = .mt ∧ port.toNat ≤ 4 then some (e, port.toNat)
    else if idxKind (elemIdx e) = .port ∧ port = 5 then some (e, 5)
    else none
  | _, _ => none

/-- The descriptor agrees with the pattern of an MT port (08 R186): START addresses the tile, strides are granules, and
the direction is the port's. -/
def State.patternFits (s : State) (e port : Nat) (d : Descriptor) : Bool :=
  let stride (v : BitVec 64) : Bool :=
    decide (v.toInt % 16 = 0) && decide (-32768 ≤ v.toInt / 16 ∧ v.toInt / 16 < 32768)
  let place := s.tileAddr s.core d.start.toNat
  capObj d.cap == tileSpace &&
    (match place with
     | some (dd, ord, _) => dd == elemDist e && tileIdx ord == elemIdx e
     | none => false) &&
    d.esz == 4 && decide (d.cnt[0].toNat ≤ 65535) && decide (d.cnt[1].toNat ≤ 65535) &&
    stride d.str[0] && stride d.str[1] && d.cnt[2] == 0 && d.cnt[3] == 0 &&
    d.dir.toNat == s.planeField (elemDist e) (elemIdx e) 0 (12 * port + 1) 0

/-- The scoreboard of a port (08 R187). -/
def State.scoreOf (s : State) (e port : Nat) : List StreamCmd :=
  if port = 5 then (s.dist (elemDist e)).port.score else (vget (tgetD (elemIdx e) (s.dist (elemDist e)).tiles).ports port).score

/-- Replaces the scoreboard of a port. -/
def State.setScore (s : State) (e port : Nat) (l : List StreamCmd) : State :=
  s.modDist (elemDist e) fun x =>
    if port = 5 then { x with port := { x.port with score := l } }
    else { x with tiles := tmod (elemIdx e) (fun t =>
      { t with ports := vset t.ports port { vget t.ports port with score := l } }) x.tiles }

/-- Whether the issue of an engine or stream command may go ahead: it acts as .rel.module, so the SEQ's earlier accesses
are finished (05 R115 step 1). -/
def Core.released (c : Core) : Bool := c.ops.all fun o => o.status == .errored

/-- strm.dld (08 R183): the read of a descriptor image through k0. An image that is not 16-byte aligned traps MEM_FORM sub 1
once capchk has passed, as a mem access would (DESIGN CHOICE, log 153). Its replay entry's DATA0 is 0 (DESIGN CHOICE, log
165). -/
def execStrmDld (dsc : BitVec 4) (a : BitVec 5) (s : State) : Out :=
  let x := s.cr
  let o := x.rdG a
  let k := x.rdK 0
  .next (onFabric s (match capchk k o.toNat 64 rightR with
    | some cause => syncTrap s cause 0 o
    | none =>
      if o.toNat % 16 ≠ 0 then syncTrap s causeMemForm 1 o
      else if x.mayIssue .ldc then
        enqueue (finishTwo s x) s.core
          { pc := x.here, word := nth 0 (encode (.strmDld dsc a)), addr := o, cap := k, eecsn := x.ecsn, dld := some dsc } .ldc
      else s))

/-- The check of a bind that fails, in order (08 R184): cause and sub. `d` starts at START + g[ga]. -/
def bindCheck (s : State) (d : Descriptor) (st : Int) (target : Option (Nat × Nat)) : Option (BitVec 8 × BitVec 8) :=
  match target with
  | none => some (causeStream, 2)
  | some (e, p) =>
    match d.check st with
    | some cause => some (cause, 0)
    | none =>
      if p = 5 then (if capObj d.cap = tileSpace ∨ d.fe ≠ 0 then some (causeStream, 3) else none)
      else if !s.patternFits e p d then some (causeStream, 4)
      else if s.planeField (elemDist e) (elemIdx e) 0 (12 * p) 0 ≠ 1 then some (causeStream, 5)
      else none

/-- Whether an element is sealed in a husk: a command to it ends at once (17 R342; DEDUCED, log 82). -/
def State.sealedAt (s : State) (e : Nat) : Bool := (s.dist (elemDist e)).sealed.contains (elemIdx e)

/-- strm.bind (08 R184-R187): it waits for an outstanding dld of its descriptor, then for room; START + g[ga] is taken
modulo 2^64 (DEDUCED, log 40). -/
def execStrmBind (dsc : BitVec 4) (ch : BitVec 5) (a : BitVec 5) (die : BitVec 4) (row : BitVec 7) (col : BitVec 8)
    (port : BitVec 3) (s : State) : Out :=
  let x := s.cr
  .next (onFabric s (
    if x.ops.any fun o => o.dld == some dsc then s
    else match x.rdD dsc with
    | none => syncTrap s causeStream 1
    | some d =>
      let st := (d.start.setWidth 64 + x.rdG a).toNat
      let d := { d with start := BitVec.ofNat 40 st }
      let target := s.strmTarget die row col port
      match bindCheck s d st target, target with
      | some (cause, sub), _ => syncTrap s cause sub
      | none, none => s
      | none, some (e, p) =>
        let score := s.scoreOf e p
        if x.released && x.mayRaise .cpc && decide (score.length < 4) then
          let n := x.ecsn + 1
          let cmd : StreamCmd := { desc := d, chan := ch, core := s.core, pc := x.here, ecsn := n, plane := s.planeAt s.core }
          let s1 := finishTwo s ({ x with ecsn := n }.bump .cpc)
          let s2 := if s.sealedAt e then s1.reply s.core { counter := .cpc } else s1.setScore e p (score ++ [cmd])
          s2.noteEvent false cmd.plane cmd.pc n
        else s))

/-- strm.pbar (08 R183, R187): an ordering barrier in a port's scoreboard. A port that word 1 does not name is STREAM
sub 2, as for a bind (DEDUCED, log 41). -/
def execStrmPbar (die : BitVec 4) (row : BitVec 7) (col : BitVec 8) (port : BitVec 3) (s : State) : Out :=
  let x := s.cr
  .next (onFabric s (match s.strmTarget die row col port with
    | none => syncTrap s causeStream 2
    | some (e, p) =>
      let score := s.scoreOf e p
      if s.sealedAt e then finishTwo s x
      else if score.length < 4 then
        (finishTwo s x).setScore e p
          (score ++ [{ bar := true, core := s.core, pc := x.here, ecsn := x.ecsn, plane := s.planeAt s.core }])
      else s))

/-- strm.dinv (08 R183). It follows an outstanding dld of the same descriptor (07 R148). -/
def execStrmDinv (dsc : BitVec 4) (s : State) : Out :=
  let x := s.cr
  .next (onFabric s (if x.ops.any fun o => o.dld == some dsc then s else finishTwo s (x.wrD dsc none)))

end Sys2Proof.Machine
end

