-- ==== Sys2Proof/Machine/Eng.lean ====
section
/-! DEFINITION. Engine and rotation commands as a SEQ issues them: eng, rack (08 R188-R192, 10 R253). -/

namespace Sys2Proof.Machine

/-- Causes of a refusal at issue: cause and sub (08 Table K-88). -/
abbrev badArg : Option (BitVec 8 × BitVec 8) := some (causeEngineCmd, 1)
abbrev wsRange : Option (BitVec 8 × BitVec 8) := some (causeEngineCmd, 2)
abbrev badDesc : Option (BitVec 8 × BitVec 8) := some (causeEngineCmd, 3)
abbrev badCount : Option (BitVec 8 × BitVec 8) := some (causeEngineCmd, 4)
abbrev badConv : Option (BitVec 8 × BitVec 8) := some (causeEngineCmd, 5)

/-- Whether a number has no bit at or above `n`. -/
def noneAbove (v : Word) (n : Nat) : Bool := decide (v.toNat < 2 ^ n)

/-- Issues an engine command of the acting core (08 R188): a refusal traps and leaves ECSN; else it waits for the SEQ's
earlier accesses, its counter and a place in the queue; then ECSN rises, the command takes the new value and is bound to
the region plane. A command to an element that is sealed in a husk ends at once (17 R342; DEDUCED, log 82); `idx` is the
element's index. -/
def engIssue (s : State) (refusal : Option (BitVec 8 × BitVec 8)) (cls : OpClass) (idx queued : Nat) (cmd : EngCmd)
    (push : EngCmd → State → State) : State :=
  let x := s.cr
  match refusal with
  | some (cause, sub) => syncTrap s cause sub
  | none =>
    if x.released && x.mayRaise cls && decide (queued < 4) then
      let n := x.ecsn + 1
      let c := { cmd with core := s.core, pc := x.here, ecsn := n, plane := s.planeAt s.core, arr := s.tick, ns := s.timebase }
      let s1 := finish s ({ x with ecsn := n }.bump cls)
      let s2 := if (s.dist s.core).sealed.contains idx then s1.reply s.core { counter := cls } else push c s1
      s2.noteEvent false c.plane c.pc n
    else s

/-- PARTWS of a region's partition: whether n bytes at a die-local offset lie in the granted weight-store range
(16 R317). A grant that reaches beyond the 12 GiB of a die's weight store is taken as it stands (DESIGN CHOICE, log
138: the spec does not say what lies there; the store reads and writes at every granted offset). -/
def State.wsGranted (s : State) (c off n : Nat) : Bool :=
  match s.regionAt c with
  | none => false
  | some r =>
    let w := (tgetD r.part.toNat s.parts).ws.toNat
    let base := nbits w 17 0 * 65536
    decide (nbits w 63 63 = 1 ∧ base ≤ off ∧ off + n ≤ base + nbits w 49 32 * 65536)

/-- Changes an MN of a district. -/
def District.modMn (x : District) (u : Nat) (f : Mn → Mn) : District := { x with mns := tmod u f x.mns }
/-- Changes an RO of a district. -/
def District.modRo (x : District) (u : Nat) (f : Ro → Ro) : District := { x with ros := tmod u f x.ros }
/-- Changes a SEL of a district. -/
def District.modSel (x : District) (u : Nat) (f : Sel → Sel) : District := { x with sels := tmod u f x.sels }
/-- Changes a MON of a district. -/
def District.modMon (x : District) (u : Nat) (f : Mon → Mon) : District := { x with mons := tmod u f x.mons }
/-- Changes a DEC of a district. -/
def District.modDec (x : District) (u : Nat) (f : Dec → Dec) : District := { x with decs := tmod u f x.decs }

/-- eng.steep (08 R189): WS_RANGE outside the partition's grant or off a 64-byte boundary. -/
def execEngSteep (u : BitVec 3) (a : BitVec 5) (s : State) : Out :=
  let v := s.cr.rdG a
  let n := u.toNat
  let bad := if s.wsGranted s.core v.toNat 4096 && decide (v.toNat % 64 = 0) then none else wsRange
  .next (onFabric s (engIssue s bad .cpc (spineIdx n) (tgetD n (s.dist s.core).mns).steepQ.length { cmd := v }
    fun c t => t.modDist t.core fun x => x.modMn n fun m => { m with steepQ := m.steepQ ++ [c] }))

/-- eng.mtok (08 R189): BAD_ARG for a nonzero bit above 31. -/
def execEngMtok (u : BitVec 3) (a : BitVec 5) (s : State) : Out :=
  let v := s.cr.rdG a
  let n := u.toNat
  .next (onFabric s (engIssue s (if noneAbove v 32 then none else badArg) .toc (spineIdx n)
    (tgetD n (s.dist s.core).mns).mtokQ.length { cmd := v }
    fun c t => t.modDist t.core fun x => x.modMn n fun m => { m with mtokQ := m.mtokQ ++ [c] }))

/-- A descriptor as an engine may use it: valid, of the direction, and FE = 0 outside tile space (08 R190 check 1). -/
def engDesc (d : Option Descriptor) (dir : BitVec 2) : Option Descriptor :=
  match d with
  | none => none
  | some d => if d.dir = dir ∧ (capObj d.cap = tileSpace ∨ d.fe = 0) then some d else none

/-- The values an element of a format holds: a block counts as 16 (08 R190). -/
def Descriptor.values (d : Descriptor) : Nat :=
  if d.fmt = 5 ∨ d.fmt = 6 ∨ d.fmt = 7 then 16 * d.elements else d.elements

/-- Check 3 of 08 R190: counts and conversion. -/
def copyCounts (a b : Descriptor) : Option (BitVec 8 × BitVec 8) :=
  if a.fmt = b.fmt then (if a.elements = b.elements then none else badCount)
  else if 8 ≤ a.fmt.toNat ∨ 8 ≤ b.fmt.toNat then badConv
  else if a.values = b.values then none else badCount

/-- Whether the acting core waits for a dld of a descriptor (08 R184, 07 R148). -/
def Core.dldOut (c : Core) (i : BitVec 4) : Bool := c.ops.any fun o => o.dld == some i

/-- eng.copy (08 R190): the checks in order, then the queue. Bits [63:11] are tested before check 1 (DESIGN CHOICE, log
164). -/
def execEngCopy (a : BitVec 5) (s : State) : Out :=
  let x := s.cr
  let v := x.rdG a
  let si := v.extractLsb' 0 4
  let di := v.extractLsb' 4 4
  let src := engDesc (x.rdD si) 0
  let dst := engDesc (x.rdD di) 1
  let bad := if !noneAbove v 11 then badArg
    else match src, dst with
      | some p, some q =>
        match p.check p.start.toNat, q.check q.start.toNat with
        | some cause, _ => some (cause, 0)
        | none, some cause => some (cause, 0)
        | none, none => copyCounts p q
      | _, _ => badDesc
  .next (onFabric s (
    if x.dldOut si || x.dldOut di then s
    else engIssue s bad .cpc copierIdx (s.dist s.core).copier.queue.length { cmd := v, src := src, dst := dst }
      fun c t => t.modDist t.core fun y => { y with copier := { y.copier with queue := y.copier.queue ++ [c] } }))

/-- RO commands (10 Table K-127): BAD_ARG for an unlisted CMD or an unassigned bit. -/
def roRefusal (w v : Word) : Option (BitVec 8 × BitVec 8) :=
  match nbits w.toNat 3 0 with
  | 1 => if noneAbove w 15 && noneAbove v 60 then none else badArg
  | 2 => if noneAbove w 4 && v == 0 then none else badArg
  | _ => badArg

/-- eng.ro (08 R191). -/
def execEngRo (u : BitVec 2) (a b : BitVec 5) (s : State) : Out :=
  let w := s.cr.rdG a
  let v := s.cr.rdG b
  let n := 8 + u.toNat
  .next (onFabric s (engIssue s (roRefusal w v) .toc (spineIdx n) (tgetD n (s.dist s.core).ros).queue.length { cmd := w, arg := v }
    fun c t => t.modDist t.core fun x => x.modRo n fun r => { r with queue := r.queue ++ [c] }))

/-- SEL commands (10 Table K-127). -/
def selRefusal (w v : Word) : Option (BitVec 8 × BitVec 8) :=
  match nbits w.toNat 3 0 with
  | 1 => if noneAbove w 5 && noneAbove v 12 then none else badArg
  | 2 => if noneAbove w 5 && noneAbove v 32 then none else badArg
  | 3 => if noneAbove w 5 && noneAbove v 32 then none else badArg
  | 4 => if noneAbove w 4 && v == 0 then none else badArg
  | _ => badArg

/-- eng.sel (08 R191). -/
def execEngSel (u : BitVec 1) (a b : BitVec 5) (s : State) : Out :=
  let w := s.cr.rdG a
  let v := s.cr.rdG b
  let n := 12 + u.toNat
  .next (onFabric s (engIssue s (selRefusal w v) .toc (spineIdx n) (tgetD n (s.dist s.core).sels).queue.length { cmd := w, arg := v }
    fun c t => t.modDist t.core fun x => x.modSel n fun r => { r with queue := r.queue ++ [c] }))

/-- MON commands (10 Table K-127). -/
def monRefusal (w v : Word) : Option (BitVec 8 × BitVec 8) :=
  match nbits w.toNat 3 0 with
  | 1 => if noneAbove w 4 && noneAbove v 8 then none else badArg
  | 2 => if noneAbove w 4 && v == 0 then none else badArg
  | 3 => if noneAbove w 7 && noneAbove v 32 then none else badArg
  | 4 => if noneAbove w 7 && noneAbove v 32 then none else badArg
  | 5 => if noneAbove w 7 && noneAbove v 32 then none else badArg
  | 6 => if noneAbove w 8 && v == 0 then none else badArg
  | 7 => if noneAbove w 7 && v == 0 then none else badArg
  | _ => badArg

/-- eng.mon (08 R191). -/
def execEngMon (u : BitVec 1) (a b : BitVec 5) (s : State) : Out :=
  let w := s.cr.rdG a
  let v := s.cr.rdG b
  let n := 14 + u.toNat
  .next (onFabric s (engIssue s (monRefusal w v) .toc (spineIdx n) (tgetD n (s.dist s.core).mons).queue.length { cmd := w, arg := v }
    fun c t => t.modDist t.core fun x => x.modMon n fun r => { r with queue := r.queue ++ [c] }))

/-- DEC RUN at issue (10 R253): the command word, then the descriptors and their extents. TOCH = 1 with nonzero [11:8] is
BAD_ARG (DEDUCED, log 171). -/
def decRefusal (w v : Word) (src dst : Option Descriptor) : Option (BitVec 8 × BitVec 8) :=
  let toch := w.getLsbD 12
  if nbits w.toNat 3 0 ≠ 1 ∨ noneAbove w 13 = false ∨ v ≠ 0 ∨ (toch = true ∧ nbits w.toNat 11 8 ≠ 0) then badArg
  else match src with
    | none => badDesc
    | some p =>
      if p.esz ≠ 0 then badDesc
      else if toch then (p.check p.start.toNat).map fun c => (c, 0)
      else match dst with
        | none => badDesc
        | some q =>
          if q.esz ≠ 0 then badDesc
          else match p.check p.start.toNat with
            | some c => some (c, 0)
            | none => (q.check q.start.toNat).map fun c => (c, 0)

/-- eng.dec (08 R191, 10 R253). -/
def execEngDec (u : BitVec 1) (a b : BitVec 5) (s : State) : Out :=
  let x := s.cr
  let w := x.rdG a
  let v := x.rdG b
  let n := 16 + u.toNat
  let toch := w.getLsbD 12
  let si := w.extractLsb' 4 4
  let di := w.extractLsb' 8 4
  let src := engDesc (x.rdD si) 0
  let dst := if toch then none else engDesc (x.rdD di) 1
  .next (onFabric s (
    if x.dldOut si || (!toch && x.dldOut di) then s
    else engIssue s (decRefusal w v src dst) .cpc (spineIdx n) (tgetD n (s.dist s.core).decs).queue.length
      { cmd := w, arg := v, src := src, dst := dst }
      fun c t => t.modDist t.core fun y => y.modDec n fun r => { r with queue := r.queue ++ [c] }))

/-! ### Rotations -/

/-- The element that a rack word names, PE or not; none outside the module (08 R192). -/
def rackElem (v : Word) : Option Nat := elemOf (nbits v.toNat 27 24) (nbits v.toNat 22 16) (nbits v.toNat 7 0)

/-- Whether the unused bits of a rack word are not all zero. -/
def rackBad (v : Word) : Bool := decide (v.toNat &&& (2 ^ 64 - 1 - 0x0F7F00FF) ≠ 0)

/-- Whether a number names a PE of the acting SEQ's region: such commands go to the head, any other is refused there. -/
def State.rackTarget (s : State) (v : Word) : Option Nat :=
  match rackElem v, s.regionAt s.core with
  | some e, some r => if r.districts.contains (elemDist e) ∧ idxKind (elemIdx e) = .pe then some e else none
  | _, _ => none

/-- Issues a rack command (08 R192): MEM_FORM sub 1 for a misaligned address; else it counts in TOC and goes to its head,
or, where g[ga] names no PE of the region, its refusal BAD_HEAD comes back to the SEQ. -/
def rackIssue (s : State) (v : Word) (aligned : Bool) (job : RackJob) : State :=
  let x := s.cr
  if !aligned then syncTrap s causeMemForm 1
  else if x.released && x.mayRaise .toc then
    let n := x.ecsn + 1
    let j := { job with badBits := rackBad v, core := s.core, pc := x.here, ecsn := n }
    let s1 := (finish s ({ x with ecsn := n }.bump .toc)).noteEvent false (s.planeAt s.core) j.pc n
    match s.rackTarget v with
    | some e => s1.modDist (elemDist e) fun y =>
        { y with pes := tmod (elemIdx e) (fun p => { p with head := { p.head with queue := p.head.queue ++ [j] } }) y.pes }
    | none => s1.reply s.core
        { counter := .toc, cause := some { cause := causeRack, sub := 5, epc := j.pc, eecsn := n } }
  else s

/-- rack.save (08 R192). Bits [63:37] of the address register, beyond a region tile address, are dropped (DESIGN CHOICE, log
152); so they are for rack.load. -/
def execRackSave (a b : BitVec 5) (s : State) : Out :=
  let v := s.cr.rdG a
  let r := s.cr.rdG b
  .next (onFabric s (rackIssue s v (r.toNat % 16 == 0) { addr := r.setWidth 37 }))

/-- rack.load (08 R192). -/
def execRackLoad (d a b : BitVec 5) (s : State) : Out :=
  let m := s.cr.rdG d
  let v := s.cr.rdG a
  let r := s.cr.rdG b
  let identity := m.getLsbD 37
  .next (onFabric s (rackIssue s v (r.toNat % 16 == 0 && (identity || m.toNat % 16 == 0))
    { load := true, addr := r.setWidth 37, remap := if identity then none else some (m.setWidth 37)
      slots := nbits m.toNat 62 56 }))

end Sys2Proof.Machine
end

