-- ==== Sys2Proof/Machine/Perf.lean ====
section
/-! DEFINITION. Performance counters and critical-path capture, as the events that they observe move them
(22 R378, R381). -/

namespace Sys2Proof.Machine

/-- Events that a counter may count (22 Table F-3). -/
abbrev evFirings : Nat := 1
abbrev evMnTokens : Nat := 2
abbrev evStarved : Nat := 3
abbrev evFetches : Nat := 4
abbrev evPageFaults : Nat := 5
abbrev evSideLog : Nat := 6
abbrev evBoosted : Nat := 7
abbrev evWaiters : Nat := 8

/-- n more of an event at a district's counters, which wrap modulo 2^48. -/
def District.tally (x : District) (ev n : Nat) : District :=
  { x with perf := (List.range 4).foldl (fun v k =>
      if (vget x.perfSel k).toNat = ev then vset v k (vget v k + BitVec.ofNat 48 n) else v) x.perf }

/-- n more of an event in a district. -/
def State.tally (s : State) (d ev n : Nat) : State := s.modDist d fun x => x.tally ev n

/-- The counters of ns at V3 and V4 are brought up to now: called before a region's level, place or selection changes and
before counters latch. -/
def State.settlePerf (s : State) (d : Nat) : State :=
  let boosted := match s.regionAt d with
    | some r => decide (3 ≤ r.level)
    | none => false
  s.modDist d fun x =>
    let y := if boosted then x.tally evBoosted (s.timebase - x.perfAt) else x
    { y with perfAt := s.timebase }

/-! ### Critical paths -/

/-- A position packed as 14 R275. -/
def packPos (e : Nat) : Nat := distDie (elemDist e) * 2 ^ 24 + elemRow e * 2 ^ 16 + elemCol e

/-- The element that sends on the edge that ends at a channel of an element. -/
def State.producer (s : State) (e ch : Nat) : Option Nat :=
  match s.regionAt (elemDist e) with
  | none => none
  | some r =>
    let slot := (s.dist (elemDist e)).slotOf (elemIdx e) ch
    (r.edges.find? fun g => g.dst == e && g.ch.toNat == ch && g.plane == slot).map (·.src)

/-- Whether a walk ends at a producer: an MT port, a DEC, a PORT or a SEQ. -/
def isSource : Option Nat → Bool
  | none => true
  | some p => match idxKind (elemIdx p) with
    | .pe => false
    | .mn => false
    | .ro => false
    | .sel => false
    | .mon => false
    | _ => true

/-- Walks back along last-arrival markers, writing one record a step, at most `fuel` of them; `i` are written. -/
def walkBack (base : Nat) : Nat → Nat → Nat → Nat → State → Nat × State
  | 0, i, _, _, s => (i, s)
  | fuel + 1, i, e, n, s =>
    match ((tget (elemIdx e) (s.dist (elemDist e)).lastArr).getD []).find? fun m => m.firing == n with
    | none => (i, s)
    | some m =>
      let p := s.producer e m.ch
      let src := m.seq || isSource p
      let s1 := s.hostWrite (base + 16 + 16 * i)
        (leBytes 4 (packPos e) ++ leBytes 1 m.ch ++ [if src then 1 else 0, 0, 0] ++ leBytes 8 m.ns)
      match p with
      | some q => if src then (i + 1, s1) else walkBack base fuel (i + 1) q m.frm s1
      | none => (i + 1, s1)

/-- The armed capture takes its firing: the walk's records, and CPST (22 R381). A record stands for an element of the
path, and is marked a source where a source sent the token that arrived last there (DEDUCED, log 51). -/
def State.capture (s : State) : State :=
  let base := s.fleet.cpcap.toNat / 64 * 64
  let (n, s1) := walkBack base 127 0 s.fleet.cpSink s.fleet.cpOrd s
  { s1 with fleet := { s1.fleet with cpst := 2, cpn := BitVec.ofNat 7 n } }

/-- The operand that arrived last, with its channel. -/
def lastOperand : List (Nat × Held) → Option (Nat × Held)
  | [] => none
  | (c, h) :: rest => match lastOperand rest with
    | none => some (c, h)
    | some (c', h') => if h'.arr < h.arr then some (c, h) else some (c', h')

/-- A token that a SEQ issued itself. -/
def Token.bySeq (t : Token) : Bool :=
  match t.tag with
  | some (c, _) => decide (c < 1024)
  | none => false

/-- The marker of a firing whose last operand arrived on a channel. -/
def Held.arrival (h : Held) (n ch : Nat) : Arrival :=
  { firing := n, ch := ch, ns := h.ns, frm := h.tok.fire, seq := h.tok.bySeq }

/-- The number that a firing's tokens carry while capture is armed, else 0. -/
def State.firingNumber (s : State) (e : Nat) : Nat :=
  if s.fleet.cpst = 1 then (tget (elemIdx e) (s.dist (elemDist e)).fired).getD 0 + 1 else 0

/-- A firing of an element with its operands while capture is armed: its last-arrival marker; at the firing asked for,
the capture. -/
def State.markFiring (s : State) (e : Nat) (ops : List (Nat × Held)) : State :=
  if s.fleet.cpst ≠ 1 then s
  else
    let n := s.firingNumber e
    let i := elemIdx e
    let s1 := s.modDist (elemDist e) fun x =>
      { x with
        fired := tset i n x.fired
        lastArr := match lastOperand ops with
          | none => x.lastArr
          | some (c, h) => tset i ((tget i x.lastArr).getD [] ++ [h.arrival n c]) x.lastArr }
    if e = s.fleet.cpSink ∧ n = s.fleet.cpOrd then s1.capture else s1

end Sys2Proof.Machine
end

