-- ==== Sys2Proof/Machine/Cask.lean ====
section
/-! DEFINITION. Halting a region, saving its context to the cask, restoring it (16 R320-R322; 17 R344; 22 R381). -/

namespace Sys2Proof.Machine

/-- A core stands at a point where an interrupt could be taken, so that a halt may stop it (08 R201, 16 R320): no sparge
under way, no wait that nothing breaks, no trap waiting to be entered, FETCH_RANGE among them. -/
def Core.mayHalt (c : Core) : Bool :=
  c.halted || (c.spargeWait.isNone && !c.noInt && c.trapping.isNone && !c.past)

/-- Every SEQ of a region has stopped. -/
def State.halted (s : State) (r : Region) : Bool := r.districts.all fun d => (s.coreOf d).mayHalt

/-- The first free cask slot of a district (16 R320: two of them). -/
def State.freeSlot (s : State) (d : Nat) : Option Nat :=
  [0, 1].find? fun i => (tget (2 * d + i) s.caskOwner).isNone

/-- Every district of a region has a free cask slot. The context of a region that was killed is discarded, and needs none
(16 R318). -/
def State.roomToSave (s : State) (r : Region) : Bool := r.recommit || r.districts.all fun d => (s.freeSlot d).isSome

/-- An armed capture whose sink lies in one of the districts ends (22 R381). -/
def State.endCapture (s : State) (ds : List Nat) : State :=
  if s.fleet.cpst = 1 ∧ ds.contains (elemDist s.fleet.cpSink) = true then { s with fleet := { s.fleet with cpst := 3 } }
  else s

/-- What a district holds when nothing occupies it: the counters are the district's, not a region's (22 R378), and replies
to accesses of a launch that has left it are still to come (17 R343). -/
def District.vacant (x : District) : District :=
  { perf := x.perf, perfSel := x.perfSel, perfAt := x.perfAt, port := { late := x.port.late } }

/-- The incarnations of a PORT's scalar accesses that have been sent into the base and not answered (17 R343). -/
def Port.outstanding (p : Port) : List (BitVec 16) :=
  ((p.accessQ.filter fun a => a.issuer.scalar).map fun a => a.inc) ++ p.replyQ.map fun q => q.1

/-- A region leaves a district, its context discarded: counts and translations are written back (17 R338; 22 R378), and the
replies to what its accesses asked for are still to come (17 R343; none of them is performed any more, DESIGN CHOICE, log
124). -/
def vacate (s : State) (d : Nat) : State :=
  ((s.settlePerf d).flushTlb d).modDist d fun x =>
    { x.vacant with port := { late := x.port.late ++ x.port.outstanding } }

/-- Moves the context of a district into a cask slot; that of a killed region is dropped. -/
def saveDistrict (r : Region) (s : State) (d : Nat) : State :=
  let x := s.dist d
  if r.recommit then s.setDist d x.vacant
  else match s.freeSlot d with
    | none => s
    | some i =>
      { s.setDist d x.vacant with
        cask := tset (2 * d + i) x s.cask, caskOwner := tset (2 * d + i) r.loadId s.caskOwner }

/-- Saves a region's whole context: every register, tile, full/empty bit, plane, side log and skid buffer (16 R320). A
running or draining instance becomes a saved one, which comes back as what it was (16 R318); an idle region stays idle, its
context in the cask. -/
def saveRegion (s : State) (r : Region) : State :=
  let s0 := r.districts.foldl (fun s d => (s.settlePerf d).flushTlb d) (s.endCapture r.districts)
  let s1 := r.districts.foldl (saveDistrict r) s0
  let s2 := s1.modRegion r.loadId fun r =>
    { r with
      saved := true, gangHalt := false, haltAsked := false, savedAt := s.timebase, drains := r.status == .draining
      ranNs := if r.status = .idle then r.ranNs else r.ranNs + (s.timebase - r.startedAt)
      status := if r.status = .idle then .idle else .saved }
  { s2 with husks := s2.husks.filter fun h => !r.districts.contains (elemDist h.elem) }

/-- Held reads are re-issued, behind those re-issued before and ahead of all else (17 R335). -/
def Port.reissue (p : Port) (l : List HeldRead) : Port :=
  let (before, rest) := p.accessQ.partition (·.again)
  { p with accessQ := before ++ (l.map fun h => { h.acc with again := true }) ++ rest }

/-- The context as it comes back: held reads are re-issued (17 R344), the binding timers have stood still (16 R323). -/
def District.revive (x : District) (now : District) (away : Nat) : District :=
  { x with
    perf := now.perf, perfSel := now.perfSel, perfAt := now.perfAt
    port := { x.port.reissue x.port.heldReads with heldReads := [], late := now.port.late }
    skid := x.skid.map fun (k, l) => (k, l.map fun h => { h with ns := h.ns + away }) }

/-- The cask slot that holds a region's context of a district. -/
def State.slotOwned (s : State) (load : BitVec 32) (d : Nat) : Option Nat :=
  [2 * d, 2 * d + 1].find? fun k => tget k s.caskOwner == some load

/-- A region's context of a district as it stands, in the district or in the cask. -/
def State.context (s : State) (r : Region) (d : Nat) : District :=
  if r.saved then (match s.slotOwned r.loadId d with
    | some k => tgetD k s.cask
    | none => {})
  else s.dist d

/-- The cask slots that hold a region's context become free. -/
def State.dropContexts (s : State) (r : Region) : State :=
  r.districts.foldl (fun s d => match s.slotOwned r.loadId d with
    | some k => { s with cask := terase k s.cask, caskOwner := terase k s.caskOwner }
    | none => s) s

/-- A doorbell held for the region is raised (16 R325). -/
def ringHeld (r : Region) (s : State) (d : Nat) : State :=
  if s.hostif.bellHeld.contains (d, r.part) then
    let s1 := { s with hostif := { s.hostif with bellHeld := s.hostif.bellHeld.erase (d, r.part) } }
    if (s1.coreOf d).pending.any fun k => k.cause == causeInterrupt && k.sub == 2 then s1 else s1.interrupt d 2
  else s

/-- A region's contexts come into its districts, and it resumes at V2 with the incarnation that it had (16 R320; 17 R343; 19
R360). -/
def State.resume (s : State) (r : Region) (ctx : List (Nat × District)) : State :=
  let s0 := r.districts.foldl (fun s d => s.settlePerf d) s
  let s1 := ctx.foldl (fun s (d, x) => (s.modDist d fun now => x.revive now (s.timebase - r.savedAt)).modReg d fun g =>
    { g with incarnation := r.inc }) s0
  let s2 := s1.modRegion r.loadId fun r =>
    { r with
      saved := false, gangHalt := false, haltAsked := false, startedAt := s.timebase, level := 2, ramp := none
      firedNow := r.firedNow && decide (s.nextBoost ≤ r.savedAt + 4000)
      status := if r.status = .saved then (if r.drains then .draining else .running) else r.status }
  r.districts.foldl (ringHeld r) s2

/-- The resident regions that occupy some of the districts, other than the region itself. -/
def State.occupants (s : State) (load : BitVec 32) (ds : List Nat) : List Region :=
  s.regions.filter fun r => r.loadId != load && !r.saved && ds.any fun d => r.districts.contains d

/-- A saved region comes back into its districts; regions that occupy some of them are saved in its place, which frees
slots as they do. None where a district of theirs has no free slot (16 R318, R320). -/
def State.swapIn (s : State) (r : Region) : Option State :=
  let ctx := r.districts.map fun d => (d, s.context r d)
  let out := (s.occupants r.loadId r.districts).foldl (fun (o : Option State) q =>
    o.bind fun s => if s.roomToSave q then some (saveRegion s q) else none) (some (s.dropContexts r))
  out.map fun s => s.resume r ctx

end Sys2Proof.Machine
end

