-- ==== Sys2Proof/Machine/Sched.lean ====
section
/-! DEFINITION. The scheduler: dependence and batch tables, predecessor events, triggers, launching and ending a region's
instance (16 R308-R319; 04 R91, R103; 14 R270, R273, R284; 17 R343). -/

namespace Sys2Proof.Machine

/-! ### The dependence table (16 Table D-7) -/

/-- n bytes of a dependence entry. -/
def State.dep (s : State) (e off n : Nat) : Nat := mgetN (128 * e + off) n s.sched

/-- Writes n bytes of a dependence entry. -/
def State.setDep (s : State) (e off n v : Nat) : State := { s with sched := mputN (128 * e + off) n v s.sched }

def State.depValid (s : State) (e : Nat) : Bool := (s.dep e 0 4).testBit 31
def State.depKillable (s : State) (e : Nat) : Bool := (s.dep e 0 4).testBit 30
def State.depPriority (s : State) (e : Nat) : Nat := nbits (s.dep e 0 4) 29 27
def State.depPart (s : State) (e : Nat) : Nat := nbits (s.dep e 0 4) 21 16
def State.depLoad (s : State) (e : Nat) : BitVec 32 := BitVec.ofNat 32 (s.dep e 8 4)
def State.depEstimate (s : State) (e : Nat) : Nat := s.dep e 12 4
def State.depBatch (s : State) (e : Nat) : Nat := s.dep e 16 2

/-- An instance of an entry is running or checkpointed (16 R312). -/
def State.hasInstance (s : State) (e : Nat) : Bool := s.regions.any fun r => r.entry == some e && r.status != .idle

/-! ### Triggers (16 R308, R309) -/

/-- Removes the completed triggers at the start of a FIFO; how many there were. -/
def popDone : List (BitVec 32 × List Byte × Bool) → Nat × List (BitVec 32 × List Byte × Bool)
  | [] => (0, [])
  | (n, r, d) :: t => if d then let (k, l) := popDone t; (k + 1, l) else (0, (n, r, d) :: t)

/-- A trigger completes: PROGRESS is the length of the longest run of completed triggers, FAILED saturates, and a rise of
PROGRESS signals VECTOR where IRQEN = 1. -/
def completeTrigger (s : State) (t : Option (Nat × BitVec 32)) (failed : Bool) : State :=
  match t with
  | none => s
  | some (b, n) =>
    let k := tgetD b s.banks
    let (rise, rest) := popDone (k.fifo.map fun (m, r, d) => (m, r, d || m == n))
    let k1 := { k with fifo := rest, progress := k.progress + BitVec.ofNat 32 rise
                       failed := if failed then BitVec.ofNat 16 (min 0xFFFF (k.failed.toNat + 1)) else k.failed }
    let s1 := { s with banks := tset b k1 s.banks }
    if 0 < rise ∧ k.cfg.getLsbD 14 = true then s1.signal (k.cfg.toNat % 128) else s1

/-- A launch is asked for, behind those asked for before (16 R319). -/
def State.ask (s : State) (a : Ask) : State :=
  { s with hostif := { s.hostif with waiting := s.hostif.waiting ++ [a] } }

/-- A predecessor event acts on an entry as one act (16 R312); for a trigger, the trigger completes with the launch it
requests, or now if it requests none. An event for an invalid entry is discarded (16 R326). -/
def predEvent (s : State) (e : Nat) (t : Option (Nat × BitVec 32)) : State :=
  if !s.depValid e then s
  else
    let p := s.dep e 6 2 - 1
    let s1 := s.setDep e 6 2 p
    if p ≠ 0 then completeTrigger s1 t false
    else
      let s2 := s1.setDep e 6 2 (s1.dep e 4 2)
      if !s2.hasInstance e then s2.ask { entry := e, trigger := t }
      else if s2.dep e 19 1 < 255 then (s2.setDep e 19 1 (s2.dep e 19 1 + 1)).ask { entry := e, pending := true, trigger := t }
      else completeTrigger s2 t true

/-! ### The end of an instance (16 R312, R314) -/

/-- The successors of an entry, in order; a number that names no entry gives no event. -/
def State.successors (s : State) (e : Nat) : List Nat :=
  ((List.range (s.dep e 18 1)).map fun j => s.dep e (20 + 2 * j) 2).filter fun j => j < 4096

/-- The first PENDING launch of an entry need wait for its instance no longer; it keeps its place among the launches that
wait (16 R312, R319). -/
def readyAsk (e : Nat) : List Ask → List Ask
  | [] => []
  | a :: t => if a.entry = e ∧ a.pending = true then { a with pending := false } :: t else a :: readyAsk e t

/-- An instance of a region ends, as failed or not: its successors get their events, its trigger completes, and a PENDING
launch of the entry follows (16 R312, R314). -/
def endInstance (s : State) (r : Region) (failed : Bool) : State :=
  let s1 := (s.endCapture r.districts).modRegion r.loadId fun r =>
    { r with status := .idle, entry := none, trigger := none, started := false, gangHalt := false, haltAsked := false }
  match r.entry with
  | none => s1
  | some e =>
    let s2 := if failed then s1 else (s.successors e).foldl (fun s j => predEvent s j none) s1
    let s3 := completeTrigger s2 r.trigger failed
    if 0 < s3.dep e 19 1 then
      let s4 := s3.setDep e 19 1 (s3.dep e 19 1 - 1)
      { s4 with hostif := { s4.hostif with waiting := readyAsk e s4.hostif.waiting } }
    else s3

/-- A launch ends when every SEQ of the region has halted; as failed if a husk formed in it (16 R314, 17 R342). -/
def launchEnd (s : State) (d : Nat) : State :=
  match s.regionAt d with
  | none => s
  | some r =>
    if (r.status = .running ∨ r.status = .draining) ∧ (r.districts.all fun d => (s.coreOf d).halted) = true then
      endInstance s r r.failed
    else s

/-- A region's instance is killed: it ends as failed and its context is discarded; the next launch commits the mash again
(16 R318; 15 R289). -/
def killRegion (s : State) (r : Region) : State :=
  let s1 := (r.districts.foldl vacate s).modRegion r.loadId fun r => { r with recommit := true }
  endInstance s1 r true

/-- After a kill, the districts take the mash as it was loaded (16 R318); at its commit the requested level is V2 and the
region has 64 permits (19 R358). -/
def State.recommitted (s : State) (r : Region) : State :=
  if r.recommit then
    (r.mash.foldl (fun s m => s.modDist m.dist fun x => { x with istore := m.istore, images := m.images, stored := m.stored })
      s).modRegion r.loadId fun r => { r with recommit := false, want := 2, permits := 64 }
  else s

/-! ### Starting an instance (16 R313) -/

/-- The granules that `n` bytes at a region tile address touch, as region tile addresses in units of 16; none for no bytes. -/
def granSpan (a n : Nat) : List Nat :=
  if n = 0 then [] else (List.range ((a + n + 15) / 16 - a / 16)).map fun i => a / 16 + i

/-- Writes bytes at a region tile address with engine writes, which set granules full (04 R91); `c` is a core of the
region. -/
def State.tileStore (s : State) (c a : Nat) (bs : List Byte) : State :=
  match s.tileAddr c a with
  | none => s
  | some (d, ord, off) => s.modDist d fun x => x.tileWrite ord off bs

/-- Writes the DATA records: a granule that a record touches is full, and its bytes that no record gives are zero
(14 R273). -/
def State.writeData (s : State) (c : Nat) (recs : List (Nat × List Byte)) : State :=
  let s1 := recs.foldl (fun s (a, bs) => (granSpan a bs.length).foldl
    (fun s g => s.tileStore c (16 * g) (List.replicate 16 0)) s) s
  recs.foldl (fun s (a, bs) => s.tileStore c a bs) s1

/-- Version and LIVE of a batch entry as they stand (16 R315, R316). -/
def State.batchLive (s : State) (n : Nat) : List Byte :=
  let base := 0x80000 + 256 * n
  mgets base 8 s.sched ++ mgets (base + 136) 120 s.sched

/-- A rotation head at region start (02 R43): CURS, CURD and MODE from its fields. -/
def Head.start (im : Image) : Head :=
  { curs := im.field 6 1 2, curd := im.field 6 3 0, mode := if im.field 6 10 0 = 1 then .saved else .running }

/-- Loads the held and scale registers that an image marks as initialised (01 R33, 09 R203): mark n below 32 is hn, mark
32 + n is scln. -/
def Pe.loadMarks (p : Pe) (im : Image) : Pe :=
  im.marks.foldl (fun p m =>
    if m < 32 then { p with h := vset p.h m (BitVec.ofNat 32 (im.field 2 m 0)) }
    else { p with scl := vset p.scl (m - 32) (BitVec.ofNat 32 (im.field 3 (m - 32) 0)) }) p

/-- The elements of a district at region start, planes at slot 0 (01 R22, R32, R33; 02 R43; 04 R84): heads and marked
registers of pipeline elements, and the read streams of tiles under way. A head takes SLOTS, DELAY and STARTSAVED from
its slot 0 image alone: an element that is a head only in another plane starts with CURS 2, CURD 0, RUNNING (DESIGN
CHOICE, log 139). -/
def startElement (x : District) (idx : Nat) : District :=
  let im := x.image idx 0
  match idxKind idx with
  | .pe =>
    let p : Pe := ({} : Pe).loadMarks im
    { x with pes := tset idx (if im.field 6 0 0 = 1 then { p with head := Head.start im } else p) x.pes
             used := nadd (4 * idx) x.used }
  | .mt =>
    let port (p : Nat) : TilePort :=
      if im.field 0 (12 * p) 0 = 1 ∧ im.field 0 (12 * p + 1) 0 = 0 then
        { stream := { active := true, chan := BitVec.ofNat 5 (im.field 0 (12 * p + 3) 0) } }
      else {}
    { x with tiles := tset idx { ports := #v[port 0, port 1, port 2, port 3, port 4] } x.tiles
             used := nadd (4 * idx) x.used }
  | _ => { x with used := nadd (4 * idx) x.used }

/-- A district at region start: its SEQ and elements as 06 R127, 01 R22, 04 R91 and the others give; the instruction
store, plane images and tile bytes stay, every granule is empty; the PORT keeps its side log, its translations and what
scalar accesses of the launch before are still under way. -/
def District.atStart (x : District) : District :=
  let y : District :=
    { x.vacant with
      istore := x.istore, tileMem := x.tileMem, images := x.images, stored := x.stored, cfg := x.cfg, cfgHeld := x.cfgHeld
      cfgError := x.cfgError
      port := { x.port with
        accessQ := x.port.accessQ.filter fun a => a.issuer.scalar
        heldReads := x.port.heldReads.filter fun h => h.acc.issuer.scalar
        stream := {}, closing := [], score := [], partials := [] } }
  (x.images.filter fun (k, im) => k % 4 = 0 ∧ im.resident).foldl (fun y (k, _) => startElement y (k / 4)) y

/-- The tile space of a region as k0 names it at launch (04 R103). -/
def Region.k0 (r : Region) : Cap := capMake (BitVec.ofNat 40 (2 ^ 19 * 250 * r.districts.length)) 0 0x3F tileSpace

/-- The stack pointer of a node at launch (14 R284). -/
def State.stackTop (s : State) (r : Region) (d : Nat) (n : Node) : Word :=
  if n.stack = 0 then 0 else BitVec.ofNat 64 ((250 * r.ordinal d + 249) * 2 ^ 19 + 16 * s.cfgBase d 249)

/-- The SEQ of a district as a launch sets it (16 R313 step 4); one without a node halts (14 R270). PC holds the bits [17:2] of
ENTRY, its others being always 0 (06 R120; DEDUCED, log 156). -/
def State.launchCore (s : State) (r : Region) (e d : Nat) : Core :=
  match findPos (fun (n : Node) => n.dist == d) r.nodes with
  | none => { halted := true }
  | some (id, n) =>
    let par (i : Nat) : Word := BitVec.ofNat 64 (s.dep e (64 + 8 * i) 8)
    let c : Core := { running := true, pc := (n.entry &&& 0x3FFFC).setWidth 64 }
    let c := (List.range 8).foldl (fun c i => c.wrG (BitVec.ofNat 5 (i + 1)) (par i)) c
    let c := (c.wrG 29 (s.stackTop r d n)).wrK 0 r.k0
    r.caps.foldl (fun c (k, node, cap) => if node = none ∨ node = some id then c.wrK (BitVec.ofNat 4 k) cap else c) c

/-- The incarnation that a launch gives all districts of a region (17 R343). -/
def State.nextIncarnation (s : State) (r : Region) : BitVec 16 :=
  BitVec.ofNat 16 ((r.districts.foldl (fun m d => max m (s.distReg d).incarnation.toNat) 0) + 1)

/-- No PORT of the districts holds an outstanding request of that incarnation (17 R343). -/
def State.incarnationFree (s : State) (r : Region) (n : BitVec 16) : Bool :=
  r.districts.all fun d =>
    let p := (s.dist d).port
    (p.accessQ.all fun a => a.inc != n) && (p.replyQ.all fun q => q.1 != n) && (p.heldReads.all fun h => h.acc.inc != n) &&
      (p.sideLog.all fun x => x.acc.inc != n) && (p.late.all fun i => i != n)

/-- The launch of entry e on its resident, idle region (16 R313): elements at their start values, the batch snapshot, the
DATA sections, registers, the start token. -/
def startInstance (s : State) (r : Region) (e : Nat) (t : Option (Nat × BitVec 32)) : State :=
  let inc := s.nextIncarnation r
  let s0 := (s.recommitted r).modRegion r.loadId fun r =>
    { r with status := .running, entry := some e, trigger := t, ranNs := 0, startedAt := s.timebase, failed := false, inc := inc
             plane := 0, evStep := [], evCmd := [], phase := [], started := true, gangHalt := false, haltAsked := false }
  let s1 := r.districts.foldl (fun s d => (s.modDist d District.atStart).modReg d fun g => { g with incarnation := inc }) s0
  let s2 := if s.depBatch e = 0xFFFF then s1 else s1.tileStore r.root (s.dep e 40 8) (s.batchLive (s.depBatch e))
  let s3 := s2.writeData r.root r.data
  let s4 := r.districts.foldl (fun s d => s.setCore d (s.launchCore r e d)) s3
  { s4 with husks := s4.husks.filter fun h => !r.districts.contains (elemDist h.elem) }

end Sys2Proof.Machine
end

