-- ==== Sys2Proof/Machine/Router.lean ====
section
/-! DEFINITION. Routers, control tokens and plane switches: what becomes of the token at the head of a channel
(01 R12-R20, R27, R32-R34, R384; 04 R83; 09 R205; 10 R234; 15 R290, R299; 16 R323). -/

namespace Sys2Proof.Machine

/-- A control token. -/
def ctlTok (ch : BitVec 5) (code : Nat) (arg : BitVec 24) (ph : BitVec 6 := 0) : Token :=
  { kind := 3, phase := ph, channel := ch, data := BitVec.ofNat 8 code ++ arg }

/-- A fabric fault of an element on a channel (17 R341). -/
def State.fabricFault (s : State) (code : BitVec 8) (e ch : Nat) : State :=
  s.contain code false e ((s.dist (elemDist e)).slotOf (elemIdx e) ch)

/-- The kind of an element number. -/
def elemKind (e : Nat) : Kind := idxKind (elemIdx e)

/-- Whether an element is sealed in a husk (17 R342). -/
def State.isSealed (s : State) (e : Nat) : Bool := (s.dist (elemDist e)).sealed.contains (elemIdx e)

/-- A field of a channel of an element number. -/
def State.chanField (s : State) (e ch page f reset : Nat) : Nat :=
  (s.dist (elemDist e)).chField (elemIdx e) ch page f reset

/-- A route of a router's table in a given plane slot. -/
def District.routeIn (x : District) (idx slot link ch : Nat) : Nat :=
  let i := 32 * link + ch
  (x.image idx slot).field (routerPage (idxKind idx)) (i / 4) 0 / 16 ^ (i % 4) % 16

/-- A virtual-channel entry of a pipeline element in a plane slot (09 Table K-100). -/
def District.vce (x : District) (idx slot ch : Nat) : Nat := (x.image idx slot).field 1 ch 0

def vceHandler (v : Nat) : Nat := nbits v 14 12
def vceFormat (v : Nat) : Nat := nbits v 11 8
def vceScale (v : Nat) : Nat := nbits v 7 3
def vcePriority (v : Nat) : Nat := nbits v 2 1
def vceMask (v : Nat) : Bool := v.testBit 0

/-- Whether an image is that of a rotation head (02 R42). -/
def Image.isHead (im : Image) : Bool := im.field 6 0 0 == 1

/-- A PORT carries the channel across the base, which is no delivery to it (10 R234). -/
def State.carried (s : State) (e ch : Nat) : Bool := elemKind e == .port && (s.chanField e ch 1 ch 0).testBit 15

/-! ### Forwarding -/

/-- The token at the head of a channel of a link is forwarded as its route directs, absorbed by a sealed element, or
discarded with the fault ROUTE; it waits where there is no room, or where it is delivered to the element (09 R205; 01
R19, R29). RECONFIG has a step of its own. -/
def forward (s : State) (e link ch : Nat) : State :=
  match s.headAt e link ch with
  | none => s
  | some h =>
    if h.tok.code = ctlReconfig ∨ s.accepts (elemDist e) = false then s
    else
      let r := s.routeOf e link ch
      if r = 5 then (if s.isSealed e && !s.carried e ch then s.popAt e link ch else s)
      else if 1 ≤ r ∧ r ≤ 4 then
        (if s.room e (r - 1) ch then (s.popAt e link ch).hop e (r - 1) h.tok else s)
      else (s.popAt e link ch).fabricFault codeRoute e ch

/-- ROUTER_FORWARD: a router of a pipeline element or of the spine; link 4 stands for what the element itself has formed
and not yet emitted (09 R205, 01 R19). -/
def execRouterForward (e link ch : Nat) (s : State) : Out :=
  .next (if elemKind e = .mt then s else if link < 4 then forward s e link ch else s.drain e)

/-- MT_ROUTER_FORWARD: the same at a memory tile, where a route may turn back (04 R83). -/
def execMtRouterForward (e link ch : Nat) (s : State) : Out :=
  .next (if elemKind e = .mt then (if link < 4 then forward s e link ch else s.drain e) else s)

/-! ### What an element accepts -/

/-- The part of a request that a port of a tile has received on a channel (04 R86). -/
def State.partialAt (s : State) (e port ch : Nat) : Option Partial :=
  tget ch (vget (tgetD (elemIdx e) (s.dist (elemDist e)).tiles).ports port).partials

/-- Whether a tile's port that faces a link takes a token: requests, data that follows a request on its channel, and data
at a write stream; at a disabled port only a request for another tile's V, which its route token opens (01 R14; 04 R81,
R83, R85, R98). -/
def State.tileAccepts (s : State) (e link ch : Nat) (t : Token) : Bool :=
  let kind := s.portField e link 0 0
  let inRemote := (s.partialAt e 4 (32 * link + ch)).isSome
  let inLocal := (s.partialAt e link ch).isSome
  if inRemote || inLocal then true
  else if t.kind = 1 then kind != 0 || decide (nbits t.data.toNat 31 28 = 15)
  else t.kind == 0 && kind == 1 && s.portField e link 1 0 == 1

/-- Whether an element accepts a token delivered to it (01 R14, R384; 10 R235; 04 R81). Every element accepts RECONFIG;
a PORT carries every token of a channel with a valid CUTOUT entry across the base. -/
def State.takes (s : State) (e link ch : Nat) (t : Token) : Bool :=
  if t.code = ctlReconfig then true
  else match elemKind e with
    | .pe => t.kind == 0 || t.kind == 2
    | .mt => s.tileAccepts e link ch t
    | .mn =>
      if ch = s.chanField e ch 0 0 0 then t.kind == 4
      else if ch = s.chanField e ch 0 1 1 then t.kind == 0
      else if ch = s.chanField e ch 0 2 2 then t.kind == 0 && s.chanField e ch 0 3 0 == 1
      else false
    | .seq => t.code == ctlDone || t.kind == 2
    | .port => (s.chanField e ch 1 ch 0).testBit 15 || decide (t.kind.toNat < 3)
    | _ => t.kind == 0

/-- TOKEN_KIND_FAULT: a token of a kind that the element does not accept, or of a reserved kind, is discarded and raises
the fault KIND (01 R14, R384). A sealed element absorbs it (17 R342). -/
def execTokenKindFault (e link ch : Nat) (s : State) : Out :=
  .next (match s.headAt e link ch with
    | none => s
    | some h =>
      if s.routeOf e link ch = 5 ∧ s.isSealed e = false ∧ s.accepts (elemDist e) = true ∧ s.takes e link ch h.tok = false then
        (s.popAt e link ch).fabricFault codeKind e ch
      else s)

/-! ### Plane switches -/

/-- The image of an element's plane slot is resident (01 R30). -/
def State.residentAt (s : State) (e slot : Nat) : Bool := ((s.dist (elemDist e)).image (elemIdx e) slot).resident

/-- An element begins to fetch its share of a slot's image from the configuration store, where it is there and no fetch
of the element is under way (01 R34, 15 R299). -/
def State.beginFetch (s : State) (e slot : Nat) : State :=
  let x := s.dist (elemDist e)
  let i := elemIdx e
  if (tget (4 * i + slot) x.stored).isSome && (tget i x.fetching).isNone then
    s.modDist (elemDist e) fun x => { x with fetching := tset i (BitVec.ofNat 2 slot) x.fetching }
  else s

/-- The first use of a plane by an element loads the registers that the image marks, and starts a tile's read streams
(01 R33; 04 R84). At a port that is no read stream of that plane a configured run under way goes on, under the fields of the
plane (DESIGN CHOICE, log 162). -/
def District.firstUse (x : District) (idx slot : Nat) : District :=
  if x.used.contains (4 * idx + slot) then x
  else
    let im := x.image idx slot
    let y := { x with used := nadd (4 * idx + slot) x.used }
    match idxKind idx with
    | .pe => { y with pes := tmod idx (fun p => p.loadMarks im) y.pes }
    | .mt =>
      let start (p : Nat) (t : TilePort) : TilePort :=
        if im.field 0 (12 * p) 0 = 1 ∧ im.field 0 (12 * p + 1) 0 = 0 then
          { t with stream := { active := true, chan := BitVec.ofNat 5 (im.field 0 (12 * p + 3) 0) } }
        else t
      { y with tiles := tmod idx (fun t =>
          { t with ports := (List.range 5).foldl (fun v p => vset v p (start p (vget v p))) t.ports }) y.tiles }
    | _ => y

/-- A plane slot becomes the active one of a channel of an element. -/
def District.activate (x : District) (idx ch : Nat) (slot : BitVec 2) : District :=
  { x with active := tset (32 * idx + ch) slot x.active }

/-- An element uses a plane. -/
def State.usePlane (s : State) (e slot : Nat) : State := s.modDist (elemDist e) fun x => x.firstUse (elemIdx e) slot

/-- A channel of an element switches to a plane slot. -/
def State.switchTo (s : State) (e ch : Nat) (slot : BitVec 2) : State :=
  (s.modDist (elemDist e) fun x => x.activate (elemIdx e) ch slot).usePlane e slot.toNat

/-- The channels whose RECONFIG an element waits for before it passes RECONFIG on: the bound channels that some link
delivers to it in a plane slot. At a rotation head they are its admission and operand channels and the bound channels but the
loop-return; a channel that a PORT carries across the base is none (01 R32; DEDUCED, log 48). -/
def District.awaited (x : District) (idx slot : Nat) : List Nat :=
  let im := x.image idx slot
  (List.range 32).filter fun c =>
    ((List.range 4).any fun l => x.routeIn idx slot l c == 5) &&
    match idxKind idx with
    | .pe =>
      if im.isHead then c != im.field 6 6 0 && (vceBound (x.vce idx slot c) || c == im.field 6 4 0 || c == im.field 6 5 0)
      else vceBound (x.vce idx slot c)
    | .port => !(im.field 1 c 0).testBit 15
    | _ => true

/-- The output edges that an element's configuration names in a plane slot: link and channel (09 Table K-102; 04 R83,
Table K-27; 10 R234, Table K-116). -/
def District.outputs (x : District) (idx slot : Nat) : List (Nat × Nat) :=
  let im := x.image idx slot
  match idxKind idx with
  | .pe => (List.range 32).filterMap fun i =>
      let o := im.field 4 i 0
      if o.testBit 15 then some (nbits o 14 12, nbits o 11 7) else none
  | .mt =>
    ((List.range 4).filterMap fun p => if im.field 0 (12 * p) 0 = 0 then none else some (p, im.field 0 (12 * p + 3) 0)) ++
    ((List.range 32).filterMap fun c =>
      let r := im.field 1 (32 + c / 4) 0 / 16 ^ (c % 4) % 16
      if r = 0 then none else some (r - 1, c))
  | .mn => [(im.field 0 4 0, im.field 0 5 0)]
  | .ro => [(im.field 0 1 0, im.field 0 2 0)]
  | .dec => [(im.field 0 0 0, im.field 0 1 0)]
  | .seq => [(im.field 0 34 0, im.field 0 32 16)]
  | .port => (List.range 32).filterMap fun c =>
      let r := im.field 3 (c / 4) 0 / 16 ^ (c % 4) % 16
      if r = 0 ∨ (im.field 2 c 0).testBit 15 = true then none else some (r - 1, c)
  | _ => []

/-- The output edges of an element that lead somewhere: those for which the next router has a route (09 R205). -/
def State.edgesOut (s : State) (e slot : Nat) : List (Nat × Nat) :=
  (((s.dist (elemDist e)).outputs (elemIdx e) slot).filter fun (l, c) =>
    match neighbour e l with
    | none => false
    | some n => s.routeOf n (opposite l) c != 0).eraseDups

/-- An element sends RECONFIG on each of its outgoing edges of the outgoing plane. -/
def State.passReconfig (s : State) (e : Nat) (old : BitVec 2) (arg : BitVec 24) : State :=
  s.emit e ((s.edgesOut e old.toNat).map fun (l, c) => (l, ctlTok (BitVec.ofNat 5 c) ctlReconfig arg))

/-- The channels of an element that no RECONFIG can reach: no link has a route for them in a plane slot, and at a PORT none
comes across the base for them. -/
def District.inert (x : District) (idx slot : Nat) : List Nat :=
  (List.range 32).filter fun c => ((List.range 4).all fun l => x.routeIn idx slot l c == 0) &&
    !(idxKind idx == .port && ((x.image idx slot).field 2 c 0).testBit 15)

/-- What an element holds of the configuration tree. -/
def State.setTreeHold (s : State) (e : Nat) (l : List (BitVec 2 × BitVec 2)) : State :=
  s.modDist (elemDist e) fun x =>
    { x with treeHold := if l.isEmpty then terase (elemIdx e) x.treeHold else tset (elemIdx e) l x.treeHold }

/-- The switches that an element owes, and how many of them each channel has taken. -/
def State.setOwed (s : State) (e : Nat) (l : List (BitVec 2 × BitVec 2)) (took : List (Nat × Nat)) : State :=
  s.modDist (elemDist e) fun x =>
    if l.isEmpty then { x with owed := terase (elemIdx e) x.owed, recon := terase (elemIdx e) x.recon }
    else { x with owed := tset (elemIdx e) l x.owed, recon := tset (elemIdx e) took x.recon }

/-- A channel goes on through the owed switches whose outgoing plane has no route for it: no RECONFIG can reach it there.
`n` are taken; how many are afterwards. -/
def followInert (idx ch : Nat) : List (BitVec 2 × BitVec 2) → Nat → District → District × Nat
  | [], n, x => (x, n)
  | (old, new) :: rest, n, x =>
    if (x.inert idx old.toNat).contains ch then followInert idx ch rest (n + 1) (x.activate idx ch new) else (x, n)

/-- Every channel of an element goes on as far as it can without a RECONFIG. -/
def District.followAll (x : District) (idx : Nat) (owed : List (BitVec 2 × BitVec 2)) (took : List (Nat × Nat)) :
    District × List (Nat × Nat) :=
  (List.range 32).foldl (fun (x, t) c =>
    let n := (tget c t).getD 0
    let (y, m) := followInert idx c (owed.drop n) n x
    (y, if m = n then t else tset c m t)) (x, took)

/-- An element passes on the switches that are due, the oldest first: once every awaited channel of the plane that a switch
leaves has taken it. An element that awaits none uses the plane named from then on (01 R32, R33; 08 R181). -/
def passDue (e : Nat) : List (BitVec 2 × BitVec 2) → List (Nat × Nat) → State → State
  | [], _, s => s.setOwed e [] []
  | (old, new) :: rest, took, s =>
    let wait := (s.dist (elemDist e)).awaited (elemIdx e) old.toNat
    if wait.all fun c => decide (1 ≤ (tget c took).getD 0) then
      let s1 := if wait.isEmpty then s.usePlane e new.toNat else s
      passDue e rest (took.map fun q => (q.1, q.2 - 1)) (s1.passReconfig e old (new.setWidth 24))
    else s.setOwed e ((old, new) :: rest) took

/-- An element takes up the words of the configuration tree that it holds, the oldest first, as far as the slot named is
resident; for one that is not it fetches its share where that is in the configuration store. Channels that no RECONFIG can
reach switch, and what is due is passed on (01 R32, R34; 08 R181; 15 R299). -/
def treeBegin (e : Nat) : List (BitVec 2 × BitVec 2) → List (BitVec 2 × BitVec 2) → State → State
  | [], owed, s =>
    let s1 := s.setTreeHold e []
    let i := elemIdx e
    let (x, took) := (s1.dist (elemDist e)).followAll i owed (tgetD i (s1.dist (elemDist e)).recon)
    passDue e owed took (s1.setDist (elemDist e) x)
  | (old, new) :: rest, owed, s =>
    if s.residentAt e new.toNat then treeBegin e rest (owed ++ [(old, new)]) s
    else
      let s1 := (s.setTreeHold e ((old, new) :: rest)).beginFetch e new.toNat
      let i := elemIdx e
      let (x, took) := (s1.dist (elemDist e)).followAll i owed (tgetD i (s1.dist (elemDist e)).recon)
      passDue e owed took (s1.setDist (elemDist e) x)

/-- An element acts on what it holds of the configuration tree, and passes on what is due. -/
def State.treeGo (s : State) (e : Nat) : State :=
  let x := s.dist (elemDist e)
  treeBegin e (tgetD (elemIdx e) x.treeHold) (tgetD (elemIdx e) x.owed) s

/-- The configuration tree's word to an element that the region goes from a plane to another, behind those it still has
(01 R32; 08 R181). -/
def State.treeWord (s : State) (e : Nat) (old new : BitVec 2) : State :=
  (s.setTreeHold e (tgetD (elemIdx e) (s.dist (elemDist e)).treeHold ++ [(old, new)])).treeGo e

/-- CONFIG_FETCH: the element's share has arrived and is resident (01 R34). -/
def execConfigFetch (e : Nat) (s : State) : Out :=
  let x := s.dist (elemDist e)
  let i := elemIdx e
  .next (match tget i x.fetching with
    | none => s
    | some slot =>
      let k := 4 * i + slot.toNat
      ((s.tally (elemDist e) evFetches 1).modDist (elemDist e) fun x =>
        { x with images := tset k { (tgetD k x.stored) with resident := true } x.images
                 fetching := terase i x.fetching, used := ndel k x.used }).treeGo e)

/-- A rotation head holds RECONFIG until every slot is EMPTY, and through a save (01 R32, 02 R57). -/
def State.holdsReconfig (s : State) (e ch : Nat) : Bool :=
  let x := s.dist (elemDist e)
  elemKind e == .pe && (x.image (elemIdx e) (x.slotOf (elemIdx e) ch).toNat).isHead &&
    (let h := (tgetD (elemIdx e) x.pes).head
     h.mode == .saving || h.slots.any fun (_, t) => t.state != .empty)

/-- RECONFIG at the head of a channel of an element: the channel switches, and goes on through further switches that no
RECONFIG brings it; what is due then is passed on (01 R32). Where the next switch that the element owes names another slot,
or there is none, nothing more happens. -/
def State.takeReconfig (s : State) (e ch : Nat) (slot : BitVec 2) : State :=
  let d := elemDist e
  let i := elemIdx e
  let s1 := s.switchTo e ch slot
  let owed := tgetD i (s1.dist d).owed
  let took := tgetD i (s1.dist d).recon
  let n := (tget ch took).getD 0
  if (owed[n]?).any fun q => q.2 == slot then (s1.setOwed e owed (tset ch (n + 1) took)).treeGo e else s1

/-- RECONFIG: at the head of a channel of a link. It waits where the named slot is not resident, beginning the fetch
where the share is in the configuration store; where its route leads on it goes on, and the channel switches at that
router too (01 R32, R34; 15 R299; DEDUCED, log 49). A channel that a PORT carries across the base is CUT_EDGE_TRANSFER's. -/
def execReconfig (e link ch : Nat) (s : State) : Out :=
  .next (match s.headAt e link ch with
    | none => s
    | some h =>
      let t := h.tok
      let slot : BitVec 2 := t.data.setWidth 2
      let r := s.routeOf e link ch
      if t.code ≠ ctlReconfig ∨ s.accepts (elemDist e) = false then s
      else if elemKind e = .port ∧ r = 5 ∧ (s.chanField e ch 1 ch 0).testBit 15 = true then s
      else if r = 5 ∧ s.isSealed e = true then s.popAt e link ch
      else if r = 0 ∨ 5 < r then (s.popAt e link ch).fabricFault codeRoute e ch
      else if !s.residentAt e slot.toNat then s.beginFetch e slot.toNat
      else if r = 5 then
        (if s.holdsReconfig e ch then s else (s.popAt e link ch).takeReconfig e ch slot)
      else if s.room e (r - 1) ch then ((s.popAt e link ch).hop e (r - 1) t).takeReconfig e ch slot
      else s)

/-! ### Control tokens -/

/-- DONE: enters the SEQ's DONE queue of 16; while it is full, or a DONE waits that arrived earlier, the token waits (07 R166;
DEDUCED, log 82). -/
def execDoneToken (d link ch : Nat) (s : State) : Out :=
  let e := elemAt d seqIdx
  .next (match s.headAt e link ch with
    | none => s
    | some h =>
      if s.routeOf e link ch = 5 ∧ s.accepts d = true ∧ h.tok.code = ctlDone ∧ s.mayEnterDone d h.arr = true ∧
          s.isSealed e = false then
        ((s.popAt e link ch).modCore d fun c => { c with doneQ := c.doneQ ++ [h.tok.arg] }).settleDone d
      else s)

/-- The channel on which a PORT emits what arrives on a link virtual channel of a die (10 Table K-149). -/
def State.cutIn (s : State) (d : Nat) (lvc die : Nat) : Option Nat :=
  (List.range 32).find? fun c =>
    let v := s.chanField (elemAt d portIdx) c 2 c 0
    v.testBit 15 && nbits v 9 0 == lvc && nbits v 13 10 == die

/-- A PORT emits a token on its channel by the link that PORTOUT names; with none it is discarded with the fault ROUTE
(10 R234). -/
def State.portEmit (s : State) (d : Nat) (t : Token) : State :=
  let e := elemAt d portIdx
  let c := t.channel.toNat
  let r := s.chanField e c 3 (c / 4) 0 / 16 ^ (c % 4) % 16
  if 1 ≤ r ∧ r ≤ 4 then s.emit e [(r - 1, t)] else s.fabricFault codeRoute e c

/-- Whether the cut edge of the active plane that arrives at a district on a link virtual channel of a die ends at a SEQ (01
R384; 15 R290: each die numbers its own). -/
def State.endsAtSeq (s : State) (d : Nat) (lvc : BitVec 10) (die : BitVec 4) : Bool :=
  match s.regionAt d with
  | none => false
  | some r => r.edges.any fun g => g.lvc == some lvc && g.dst == elemAt d seqIdx && distDie (elemDist g.src) == die.toNat &&
      g.plane == (s.dist d).slotOf portIdx g.ch.toNat

/-- SEAL: with the district's own incarnation the PORT emits one error end-of-stream token with the code on the edge's
destination leg, unless it ends at a SEQ; with another it is discarded (01 R384, 17 R342). -/
def execSealToken (d : Nat) (s : State) : Out :=
  .next (match (s.dist d).port.seals with
    | [] => s
    | (lvc, die, t) :: rest =>
      let s1 := s.modDist d fun x => { x with port := { x.port with seals := rest } }
      if t.data.setWidth 16 ≠ (s.distReg d).incarnation ∨ s.endsAtSeq d lvc die = true then s1
      else match s1.cutIn d lvc.toNat die.toNat with
        | none => s1
        | some c => s1.portEmit d (errTok (BitVec.ofNat 5 c) (nbits t.data.toNat 23 16)))

/-- The PORT of a region that emits what leaves a die on a link virtual channel, with the channel. -/
def State.farPort (s : State) (r : Region) (die lvc : Nat) : Option (Nat × Nat) :=
  (r.districts.filterMap fun d => (s.cutIn d lvc die).map fun c => (d, c)).head?

/-- CUT_EDGE_TRANSFER: a token delivered to a PORT on a channel whose CUTOUT entry is valid crosses the base on its link
virtual channel and is emitted by the far PORT, as soon as what that PORT emitted before on the channel has left it
(15 R290, 01 R20, 10 R234). RECONFIG switches the channel at both PORTs; SEAL is the far PORT's to act on (01 R384). -/
def execCutEdgeTransfer (d link ch : Nat) (s : State) : Out :=
  let e := elemAt d portIdx
  .next (match s.headAt e link ch, s.regionAt d with
    | some h, some r =>
      let v := s.chanField e ch 1 ch 0
      if s.routeOf e link ch ≠ 5 ∨ v.testBit 15 = false ∨ s.accepts d = false then s
      else match s.farPort r (distDie d) (nbits v 9 0) with
        | none => s
        | some (d2, c) =>
          let e2 := elemAt d2 portIdx
          let slot : BitVec 2 := h.tok.data.setWidth 2
          let re := h.tok.code = ctlReconfig
          if (s.outOf e2).any fun p => p.2.channel.toNat == c then s
          else if re ∧ s.residentAt e slot.toNat = false then s.beginFetch e slot.toNat
          else if re ∧ s.residentAt e2 slot.toNat = false then s.beginFetch e2 slot.toNat
          else
            let s1 := if h.tok.code = ctlSeal then
                (s.popAt e link ch).modDist d2 fun x =>
                  { x with port := { x.port with seals := x.port.seals ++ [(BitVec.ofNat 10 (nbits v 9 0), BitVec.ofNat 4 (distDie d), h.tok)] } }
              else (s.popAt e link ch).portEmit d2 { h.tok with channel := BitVec.ofNat 5 c }
            if re then (s1.takeReconfig e ch slot).takeReconfig e2 c slot else s1
    | _, _ => s)

/-- RESUME: the PORT re-issues the reads held under the fault serial number that the pager names; one that names no held
fault is discarded (17 R335). -/
def execResume (d : Nat) (s : State) : Out :=
  .next (match (s.dist d).port.resumeQ with
    | [] => s
    | fsn :: rest =>
      s.modDist d fun x =>
        let (again, kept) := x.port.heldReads.partition fun h => h.fsn == fsn && h.acc.issuer.dataClass
        { x with port := { x.port.reissue again with resumeQ := rest, heldReads := kept } })

/-! ### Binding timeout -/

/-- Whether a channel of a pipeline element waits for a binding in its plane: not bound, no join channel of a handler,
and none that a rotation head takes itself (01 R27, 09 R204). -/
def State.unbound (s : State) (e ch : Nat) : Bool :=
  let x := s.dist (elemDist e)
  let i := elemIdx e
  let im := x.image i (x.slotOf i ch).toNat
  !vceBound (im.field 1 ch 0) &&
    !((List.range 8).any fun h => (joinsOf (im.field 0 (6 * h) 0)).contains ch) &&
    !(im.isHead && (ch == im.field 6 4 0 || ch == im.field 6 5 0))

/-- The instant at which the binding timer of the token at a head runs out: BINDTO us after it arrived on a channel still
unbound; none where no timer runs (16 R323). -/
def State.bindExpiry (s : State) (e link ch : Nat) : Option Nat :=
  match s.headAt e link ch, s.regionAt (elemDist e) with
  | some h, some r =>
    let lim := (tgetD r.part.toNat s.parts).bindto.toNat
    if elemKind e = .pe ∧ s.routeOf e link ch = 5 ∧ (h.tok.kind = 0 ∨ h.tok.kind = 2) ∧ lim ≠ 0 ∧
        s.unbound e ch = true ∧ s.isSealed e = false ∧ s.accepts (elemDist e) = true then
      some (h.ns + 1000 * lim)
    else none
  | _, _ => none

/-- BIND_TIMEOUT: a token on a channel still unbound BINDTO us after it arrived is discarded with the fault BIND_TIMEOUT;
the step stands at that instant or later (16 R323). -/
def execBindTimeout (e link ch : Nat) (s : State) : Out :=
  .next (match s.bindExpiry e link ch with
    | some t => ({ s with timebase := max s.timebase t }.popAt e link ch).fabricFault codeBind e ch
    | none => s)

/-- The tokens on a channel of an element whose binding timers have run out meet BIND_TIMEOUT before a binding that comes
later (16 R326). -/
def State.expireBinds (s : State) (e ch : Nat) : State :=
  (List.range 4).foldl (fun s link => match s.bindExpiry e link ch with
    | some t => if t ≤ s.timebase then (s.popAt e link ch).fabricFault codeBind e ch else s
    | none => s) s

end Sys2Proof.Machine
end

