-- ==== Sys2Proof/Machine/Stage.lean ====
section
/-! DEFINITION. The six stages of a firing: every operation that a stage word can name (09 R207-R232; 06 R129, R130). -/

namespace Sys2Proof.Machine

/-! ### Stage words (06 R130) -/

def swOp (w : Nat) : Nat := nbits w 31 26
def swDst (w : Nat) : Nat := nbits w 25 20
def swSa (w : Nat) : Nat := nbits w 19 14
def swSb (w : Nat) : Nat := nbits w 13 8
def swMod (w : Nat) : Nat := nbits w 7 0

/-- Where a firing stands: its stages go on, a retiring operation has ended it (R209), or it is to emit error
end-of-stream with a DATA in place of its tokens (R210, R219, R223, R226). -/
inductive FireState where
  | running
  | retired
  | error (data : W32)
  deriving DecidableEq, Repr, Inhabited

/-- A firing under way: the image it runs, its operands, and the element's state as its stages leave it. -/
structure Firing where
  /-- the plane image of the trigger channel -/
  im : Image
  /-- handler -/
  h : Nat
  /-- trigger channel -/
  tch : Nat
  /-- join channels -/
  joins : List Nat
  /-- DATA of the trigger token, or the loop value -/
  t : W32
  /-- DATA of the join tokens -/
  j1 : W32
  j2 : W32
  /-- PHASE -/
  ph : BitVec 6
  /-- MARKER of the trigger token; OPMK at a rotation head -/
  mrk : BitVec 2
  /-- a rotation head's firing -/
  rot : Bool
  /-- the element -/
  pe : Pe
  /-- result of the stage before -/
  p : W32 := 0
  /-- conditions raised -/
  conds : Conds := 0
  /-- how it stands -/
  state : FireState := .running
  deriving Repr, Inhabited

/-- Stage word s of the firing's handler. -/
def Firing.word (f : Firing) (s : Nat) : Nat := f.im.field 0 (6 * f.h + s) 0

/-- The virtual-channel entry of a channel in the firing's plane. -/
def Firing.entry (f : Firing) (ch : Nat) : Nat := f.im.field 1 ch 0

/-- An operand selector (06 Table K-47); k is MOD of the same word. -/
def Firing.sel (f : Firing) (w : Nat) (i : Nat) : W32 :=
  if i < 32 then vget f.pe.h i
  else if i < 36 then vget f.pe.acc (i - 32)
  else match i with
    | 36 => f.t
    | 37 => f.j1
    | 38 => f.j2
    | 39 => f.p
    | 41 => BitVec.ofNat 32 (swMod w)
    | 42 => f.ph.setWidth 32
    | 43 => vget f.pe.scl (vceScale (f.entry f.tch))
    | _ => 0

/-- The channel of a token operand: t, j1 or j2 (R217). -/
def Firing.chanOf (f : Firing) (i : Nat) : Nat :=
  if i = 37 then nth 0 f.joins else if i = 38 then nth 1 f.joins else f.tch

/-- Writes a result to DST: a held register, an accumulator, or nothing (R207). -/
def Pe.write (p : Pe) (dst : Nat) (r : W32) : Pe :=
  if dst < 32 then { p with h := vset p.h dst r }
  else if dst < 36 then { p with acc := vset p.acc (dst - 32) r }
  else p

/-- A stage's result: written to DST, it becomes p; conditions are raised in CFLAGS of the handler (R207, R211). -/
def Firing.result (f : Firing) (w : Nat) (r : W32) (c : Conds := 0) : Firing :=
  { f with p := r, conds := f.conds ||| c
           pe := { f.pe.write (swDst w) r with cflags := vset f.pe.cflags f.h (vget f.pe.cflags f.h ||| c) } }

/-- A result that is written nowhere. -/
def Firing.pass (f : Firing) (r : W32) (c : Conds := 0) : Firing :=
  { f with p := r, conds := f.conds ||| c
           pe := { f.pe with cflags := vset f.pe.cflags f.h (vget f.pe.cflags f.h ||| c) } }

/-- The row state of a handler is cleared: the accumulator that its A word sums rows into, the reduction stack, the
digit-serial state, the one-hot flag (R210). -/
def Pe.clearRow (p : Pe) (h : Nat) (aword : Nat) : Pe :=
  let op := swOp aword
  let n := swDst aword - 32
  let emode := swMod aword % 4
  let p1 := if (op = 5 ∨ op = 6 ∨ op = 19) ∧ (emode = 1 ∨ emode = 2) then { p with acc := vset p.acc n 0 } else p
  let p2 := if op = 7 then { p1 with redStack := vset p1.redStack n [] } else p1
  { p2 with digits := vset p2.digits h {}, oneHot := vset p2.oneHot h false }

/-- The firing is to emit error end-of-stream; its row state is cleared (R210). -/
def Firing.fail (f : Firing) (data : W32) (c : Conds) : Firing :=
  let g := f.pass f.p c
  { g with pe := g.pe.clearRow g.h (g.word 3), state := .error data }

/-- The marker of the trigger ends a row or a tensor. -/
def Firing.rowEnd (f : Firing) : Bool := f.mrk == 1 || f.mrk == 2

/-- RM in MOD[7:6] (R216). -/
def modRm (m : Nat) : RM := RM.ofBits (BitVec.ofNat 2 (m / 64))

/-! ### G: gather (Table K-106) -/

/-- The G stage. -/
def stageG (f : Firing) : Firing :=
  let w := f.word 0
  let a := f.sel w (swSa w)
  match swOp w with
  | 1 => f.pass a
  | 2 => f.pass a
  | 3 => f.pass a
  | 4 => f.pass (vget f.pe.h (a.toNat % 32))
  | 5 => f.pass (vget f.pe.h ((f.ph.toNat + swMod w % 32) % 32))
  | _ => f.pass f.t

/-! ### C: convert (Table K-107) -/

/-- The width of a value of a format (R217). -/
def laneWidth (fmt : Nat) : Nat :=
  match fmt with
  | 1 => 16
  | 2 => 16
  | 3 => 8
  | 4 => 8
  | 8 => 8
  | 9 => 4
  | _ => 32

/-- The exact value that cvt and cvti convert, and the condition of a signalling source (R217). -/
def Firing.lane (f : Firing) (w : Nat) : Val × Conds :=
  let ch := f.chanOf (swSa w)
  let fmt := vceFormat (f.entry ch)
  let n := laneWidth fmt
  let m := swMod w
  let x := (f.sel w (swSa w)).toNat / 2 ^ (n * nbits m 5 3) % 2 ^ n
  let sc := vget f.pe.scl (vceScale (f.entry ch))
  let v := if fmt = 8 ∨ fmt = 9 then Val.ofInt (Int.ofNat x - Int.ofNat (sc.toNat % 2 ^ n)) else valOf (BitVec.ofNat 4 fmt) x
  (if m.testBit 2 then Val.mul v (val32 sc) else v, condIf v.isSNaN condV)

/-- The DS16 digit of a token: digit and weight exponent; none where the token is malformed of itself (03 R72, R73). -/
def dsDigit (t : W32) : Option (Int × Int) :=
  let d := (t.extractLsb' 0 5).toInt
  if t.extractLsb' 5 3 = 0 ∧ t.extractLsb' 16 16 = 0 ∧ -10 ≤ d ∧ d ≤ 10 then some (d, (t.extractLsb' 8 8).toInt) else none

/-- The exact value of a number of weight unit 16^e. -/
def dsVal (w e : Int) : Val := Val.scale2 (4 * e) (Val.ofInt w)

/-- A digit-serial firing (R219): takes a digit with a factor; at the number's end it rounds to INT32 or FP32, before it
the firing retires; a malformed token raises V and emits error end-of-stream with the token's DATA (DEDUCED, log 50). -/
def Firing.digit (f : Firing) (w : Nat) (toFp : Bool) (factor : Int) : Firing :=
  let d := vget f.pe.digits f.h
  match dsDigit f.t with
  | none => f.fail f.t condV
  | some (n, k) =>
    if d.isOpen ∧ k ≠ d.k then f.fail f.t condV
    else
      let v := if d.isOpen then d.w * 16 + n * factor else n * factor
      let keep (x : DigitState) (g : Firing) : Firing := { g with pe := { g.pe with digits := vset g.pe.digits g.h x } }
      if f.rowEnd then
        let rm := modRm (swMod w)
        let (r, c) := if toFp then rnd32 rm (dsVal v k) else rndInt32 rm (dsVal v k)
        (keep {} f).result w r c
      else { keep { isOpen := true, w := v, wexp := k, k := k - 1 } f with state := .retired }

/-- tof (R218): FP32 to a narrower format. -/
def Firing.tof (f : Firing) (a b : W32) (m : Nat) : W32 × Conds :=
  let fmt := m % 16
  let rm := modRm m
  let satBit := (if f.tch < 16 then f.im.field 1 32 0 / 2 ^ f.tch else f.im.field 1 33 0 / 2 ^ (f.tch - 16)) % 2 = 1
  if fmt = 8 then let (n, c) := rndOffset 8 (b.toNat % 256) rm (val32 a); (BitVec.ofNat 32 n, c)
  else if fmt = 9 then let (n, c) := rndOffset 4 (b.toNat % 16) rm (val32 a); (BitVec.ofNat 32 n, c)
  else rndTo (BitVec.ofNat 4 fmt) rm ((fmt = 3 ∨ fmt = 4) && (m.testBit 5 || satBit)) (val32 a)

/-- The C stage. -/
def stageC (f : Firing) : Firing :=
  let w := f.word 1
  let m := swMod w
  let a := f.sel w (swSa w)
  let b := f.sel w (swSb w)
  match swOp w with
  | 1 => let (v, c) := f.lane w; let (r, d) := rnd32 (modRm m) v; f.result w r (c ||| d)
  | 2 => let (v, c) := f.lane w; let (r, d) := rndInt32 (modRm m) v; f.result w r (c ||| d)
  | 3 =>
    let n := if m.testBit 0 then 16 else 256
    f.result w (BitVec.ofInt 32 (Int.ofNat (a.toNat % n) - Int.ofNat (b.toNat % n)))
  | 4 => let (r, c) := f.tof a b m; f.result w r c
  | 5 => f.result w a
  | 6 => f.digit w false 1
  | 7 => f.digit w true 1
  | _ => f

/-! ### M: multiply (Table K-108) -/

/-- An INT32 result: wrapped, or saturated with O (R220). -/
def intResult (sat : Bool) (v : Int) : W32 × Conds :=
  if sat then
    (if v < -2147483648 then (0x80000000#32, condO) else if 2147483647 < v then (0x7FFFFFFF#32, condO)
     else (BitVec.ofInt 32 v, 0))
  else (BitVec.ofInt 32 v, 0)

/-- The M stage. -/
def stageM (f : Firing) : Firing :=
  let w := f.word 2
  let m := swMod w
  let rm := modRm m
  let a := f.sel w (swSa w)
  let b := f.sel w (swSb w)
  match swOp w with
  | 1 => let (r, c) := fpMul rm a b; f.result w r c
  | 2 => let (r, c) := fpFma rm a b f.p; f.result w r c
  | 3 => let (r, c) := rnd32 rm (Val.scale2 b.toInt (val32 a)); f.result w r c
  | 4 => let (r, c) := intResult (m.testBit 0) (a.toInt * b.toInt); f.result w r c
  | 5 => f.result w ((BitVec.ofInt 64 (a.toInt * b.toInt)).extractLsb' 32 32)
  | 6 => let (r, c) := intResult (m.testBit 0) (a.toInt * b.toInt + f.p.toInt); f.result w r c
  | 7 => f.digit w false b.toInt
  | _ => f

/-! ### A: add, accumulate, reduce, compare (Table K-109) -/

/-- What an accumulating operation does after its update: r is the new value; with EMODE 1 or 2 it leaves only at the
row's or tensor's end, where the accumulator is cleared (R222). -/
def Firing.accumulate (f : Firing) (w : Nat) (v : W32) (c : Conds) : Firing :=
  let g := f.result w v c
  match swMod w % 4 with
  | 1 => if f.rowEnd then { g with pe := g.pe.write (swDst w) 0 } else { g with state := .retired }
  | 2 => if f.mrk = 2 then { g with pe := g.pe.write (swDst w) 0 } else { g with state := .retired }
  | _ => g

/-- Combines the top two entries of a reduction stack while their levels are equal (R223); the top is first. -/
def redCombine (rm : RM) : Nat → List (W32 × Nat) → Conds → List (W32 × Nat) × Conds
  | n + 1, (r, k) :: (l, j) :: rest, c =>
    if k = j then let (v, d) := fpAdd rm l r; redCombine rm n ((v, k + 1) :: rest) (c ||| d)
    else ((r, k) :: (l, j) :: rest, c)
  | _, st, c => (st, c)

/-- Collapses a reduction stack from the top (R223). -/
def redCollapse (rm : RM) : W32 → List (W32 × Nat) → Conds → W32 × Conds
  | r, [], c => (r, c)
  | r, (l, _) :: rest, c => let (v, d) := fpAdd rm l r; redCollapse rm v rest (c ||| d)

/-- fred (R223). -/
def Firing.fred (f : Firing) (w : Nat) (v : W32) : Firing :=
  let n := swDst w - 32
  let rm := modRm (swMod w)
  let st := vget f.pe.redStack n
  if 32 ≤ st.length then f.fail 0x10 condV
  else
    let (st1, c) := redCombine rm 32 ((v, swMod w % 32) :: st) 0
    let keep (l : List (W32 × Nat)) (g : Firing) : Firing := { g with pe := { g.pe with redStack := vset g.pe.redStack n l } }
    if f.rowEnd then
      match st1 with
      | [] => f
      | (top, _) :: rest =>
        let (r, d) := redCollapse rm top rest c
        let g := keep [] (f.pass r d)
        { g with pe := g.pe.write (swDst w) 0 }
    else { keep st1 (f.pass f.p c) with state := .retired }

/-- The relations of fcmp (R221). -/
def fcmpRel (rel : Nat) (a b : W32) : Bool × Conds :=
  match rel with
  | 0 => fpRel Val.eqv true a b
  | 1 => fpRel Val.lt false a b
  | 2 => fpRel (fun x y => x.lt y || x.eqv y) false a b
  | 3 => fpUnordered a b
  | _ => let (r, c) := fpRel Val.eqv true a b; (!r, c)

/-- The relations of icmp (R221). -/
def icmpRel (rel : Nat) (a b : W32) : Bool :=
  match rel with
  | 0 => a == b
  | 1 => a != b
  | 2 => a.slt b
  | 3 => a.sle b
  | 4 => a.ult b
  | _ => a.ule b

/-- The A stage. -/
def stageA (f : Firing) : Firing :=
  let w := f.word 3
  let m := swMod w
  let rm := modRm m
  let a := f.sel w (swSa w)
  let b := f.sel w (swSb w)
  let acc := f.sel w (swDst w)
  let bit (x : Bool) : W32 := if x then 1 else 0
  match swOp w with
  | 1 => let (r, c) := fpAdd rm a b; f.result w r c
  | 2 => let (r, c) := fpSub rm a b; f.result w r c
  | 3 => let (r, c) := intResult (m.testBit 5) (a.toInt + b.toInt); f.result w r c
  | 4 => let (r, c) := intResult (m.testBit 5) (a.toInt - b.toInt); f.result w r c
  | 5 => let (r, c) := fpAdd rm acc a; f.accumulate w r c
  | 6 => let (r, c) := intResult (m.testBit 5) (acc.toInt + a.toInt); f.accumulate w r c
  | 7 => f.fred w a
  | 8 => let (r, c) := minMax32 false a b; f.result w r c
  | 9 => let (r, c) := minMax32 true a b; f.result w r c
  | 10 => f.result w (if b.slt a then b else a)
  | 11 => f.result w (if a.slt b then b else a)
  | 12 => f.result w (if b.ult a then b else a)
  | 13 => f.result w (if a.ult b then b else a)
  | 14 => let (x, c) := minMax32 true f.p a; let (r, d) := minMax32 false x b; f.result w r (c ||| d)
  | 15 => let x := if f.p.slt a then a else f.p; f.result w (if b.slt x then b else x)
  | 16 => let (x, c) := fcmpRel (m % 8) a b; f.result w (bit x) c
  | 17 => f.result w (bit (icmpRel (m % 8) a b))
  | 18 => f.result w (if f.p ≠ 0 then a else b)
  | 19 => f.accumulate w (amax32 acc a) (condIf ((val32 acc).isSNaN || (val32 a).isSNaN) condV)
  | _ => f

/-! ### F: bits and functions (Tables K-110, K-111) -/

/-- Leading zeros of a 32-bit pattern; 32 for 0. -/
def clz32 (a : W32) : Nat := if a = 0 then 32 else 31 - a.toNat.log2

/-- The field of extu and exts: bits above bit 31 read as 0 (R224). -/
def field32 (a b : W32) : Nat := a.toNat / 2 ^ (b.toNat % 32) % 2 ^ (nbits b.toNat 12 8 + 1)

/-- The same field, sign-extended from its top bit. -/
def field32s (a b : W32) : W32 :=
  let w := nbits b.toNat 12 8 + 1
  let n := field32 a b
  if n.testBit (w - 1) then BitVec.ofInt 32 ((n : Int) - 2 ^ w) else BitVec.ofNat 32 n

/-- texp (R226). -/
def Firing.texp (f : Firing) (w : Nat) (a b : W32) : Firing :=
  match texp32 (BitVec.ofNat 2 (swMod w / 64)) a b (vget f.pe.oneHot f.h) with
  | .error => f.fail f.t condV
  | .value r c flag =>
    let g := f.result w r c
    { g with pe := { g.pe with oneHot := vset g.pe.oneHot g.h flag } }

/-- The F stage. -/
def stageF (f : Firing) : Firing :=
  let w := f.word 4
  let m := swMod w
  let a := f.sel w (swSa w)
  let b := f.sel w (swSb w)
  let n := b.toNat % 32
  match swOp w with
  | 0 => f
  | 1 => f.result w (a &&& b)
  | 2 => f.result w (a ||| b)
  | 3 => f.result w (a ^^^ b)
  | 4 => f.result w (a &&& ~~~b)
  | 5 => f.result w (~~~a)
  | 6 => f.result w (a <<< n)
  | 7 => f.result w (a >>> n)
  | 8 => f.result w (a.sshiftRight n)
  | 9 => f.result w (a.rotateLeft n)
  | 10 => f.result w (BitVec.ofNat 32 (clz32 a))
  | 11 => f.result w (BitVec.ofNat 32 (countOnes (a.setWidth 64)))
  | 12 => f.result w (BitVec.ofNat 32 (field32 a b))
  | 13 => f.result w (field32s a b)
  | 14 => f
  | 15 => f
  | 24 => f.texp w a b
  | 25 => f.result w (a &&& 0x7FFFFFFF)
  | 26 => f.result w (a ^^^ 0x80000000)
  | 28 => let (r, c) := fdiv32 (modRm m) a b; f.result w r c
  | op =>
    if op < 31 then let (r, c) := func1 op (BitVec.ofNat 2 (m / 64)) a; f.result w r c else f

/-- A stage runs while the firing has neither retired nor failed. -/
def Firing.andThen (f : Firing) (stage : Firing → Firing) : Firing :=
  match f.state with
  | .running => stage f
  | _ => f

/-- The stages before E (R207). After a firing whose trigger ends a row or a tensor the one-hot flag is clear (R226). -/
def Firing.run (f : Firing) : Firing :=
  let g := ((((stageG f).andThen stageC).andThen stageM).andThen stageA).andThen stageF
  if f.rowEnd then { g with pe := { g.pe with oneHot := vset g.pe.oneHot g.h false } } else g

/-! ### E: emit (Table K-112) -/

/-- Edge e of the firing's handler: link and channel. -/
def Firing.edge (f : Firing) (e : Nat) : Nat × BitVec 5 :=
  let o := f.im.field 4 (4 * f.h + e) 0
  (nbits o 14 12, BitVec.ofNat 5 (nbits o 11 7))

/-- The edges that the E word names: none for NOP; bits 0 and 1 of a rotout's besides its loop edge (R227, R232). -/
def Firing.edges (f : Firing) : List Nat :=
  let w := f.word 5
  if swOp w = 0 then []
  else (List.range 4).filter fun e => (swMod w).testBit e && (swOp w != 10 || decide (e < 2))

/-- The marker that MK gives: 0 inherits that of the trigger, OPMK at a rotation head (R227, R232). -/
def Firing.marker (f : Firing) : BitVec 2 :=
  match nbits (swMod (f.word 5)) 6 4 with
  | 0 => f.mrk
  | 1 => 0
  | 2 => 1
  | 3 => 2
  | _ => 3

/-- One token on an edge. -/
def Firing.on (f : Firing) (e : Nat) (kind : BitVec 3) (v : W32) (mk : BitVec 2) : Nat × Token :=
  let (l, c) := f.edge e
  (l, { kind := kind, phase := f.ph, marker := mk, channel := c, data := v })

/-- One data token on every edge. -/
def Firing.onAll (f : Firing) (v : W32) (mk : BitVec 2) : List (Nat × Token) := f.edges.map fun e => f.on e 0 v mk

/-- The digits of an integer, least significant first, at least one (03 R74). -/
def dsDigits : Nat → Int → List Int
  | 0, _ => []
  | n + 1, r =>
    let d := (r + 8) % 16 - 8
    let r' := (r - d) / 16
    if r' = 0 then [d] else d :: dsDigits n r'

/-- The tokens of dsout on an edge, most significant first; the last ends the row or tensor (R231). -/
def Firing.dsout (f : Firing) (e : Nat) (v : W32) : List (Nat × Token) :=
  let ds := dsDigits 9 v.toInt
  (List.range ds.length).reverse.map fun k =>
    let data : W32 := (0 : BitVec 16) ++ (BitVec.ofNat 8 k ++ ((0 : BitVec 3) ++ BitVec.ofInt 5 (nth k ds)))
    f.on e 0 data (if k = 0 then (if f.mrk = 2 then 2 else 1) else 0)

/-- What E emits: tokens with their links; a DONE that is to wait for the leaf's quiet line; whether CFLAGS is cleared. -/
structure Emission where
  toks : List (Nat × Token) := []
  done : Option (Nat × Token) := none
  clear : Bool := false
  deriving Repr, Inhabited

/-- The E stage of a firing that has run to it (Table K-112). rotout's loop token is the head's. -/
def Firing.emission (f : Firing) : Emission :=
  let w := f.word 5
  let m := swMod w
  let a := f.sel w (swSa w)
  let b := f.sel w (swSb w)
  let mk := f.marker
  let e0 := f.edges.headD 0
  match swOp w with
  | 1 => { toks := f.onAll a mk }
  | 2 => { toks := [f.on 0 0 a mk, f.on 1 0 b mk] }
  | 3 => { toks := f.onAll (b.extractLsb' 0 16 ++ a.extractLsb' 0 16) mk }
  | 4 => { toks := f.on e0 1 a 0 :: (([b, f.p].take (nbits m 5 4)).map fun v => f.on e0 0 v 0) }
  | 5 => { toks := f.on e0 1 a 0 :: f.on e0 1 b 0 :: (if m.testBit 4 then [f.on e0 0 f.p 0] else []) }
  | 6 => { toks := f.edges.map fun e => f.on e 4 a 0 }
  | 7 => if f.mrk = 2 then
        let (l, c) := f.edge e0
        { done := some (l, { ctlTok c ctlDone (a.setWidth 24) f.ph with marker := 2 }) }
      else {}
  | 8 => { toks := f.edges.flatMap fun e => f.dsout e a }
  | 9 => { toks := f.onAll ((vget f.pe.cflags f.h).setWidth 32) mk, clear := true }
  | 10 => { toks := f.onAll a mk }
  | 11 => { toks := if b ≠ 0 then f.onAll a mk else [] }
  | 12 => { toks := f.on e0 1 a 0 :: f.on e0 0 b 0 :: f.on e0 1 f.p 0 ::
              (if m.testBit 4 then [f.on e0 0 (f.sel w (swDst w)) 0] else []) }
  | _ => {}

/-- The fatal conditions that a firing has raised (R211). -/
def Firing.fatal (f : Firing) : Conds := f.conds &&& BitVec.ofNat 5 (f.im.field 0 (48 + f.h) 0)

/-- What leaves E: the error tokens of a fatal condition or of a failed firing in place of its own; nothing of a retired
one (R209-R211). -/
def Firing.leaves (f : Firing) : Emission :=
  let own := f.emission
  if f.fatal ≠ 0 then
    { toks := f.onAll (f.fatal.setWidth 32) 3, clear := own.clear && f.state == .running }
  else match f.state with
    | .running => own
    | .retired => {}
    | .error v => { toks := f.onAll v 3 }

/-- The element after a firing has left E. -/
def Firing.after (f : Firing) : Pe :=
  if f.leaves.clear then { f.pe with cflags := vset f.pe.cflags f.h 0 } else f.pe

end Sys2Proof.Machine
end

