-- ==== Sys2Proof/Machine/Pe.lean ====
section
/-! DEFINITION. When a pipeline element fires, and what a firing does to the element, its operands and its region
(01 R16, R17, R24-R26; 09 R208-R211, R230; 15 R295; 05 R117). -/

namespace Sys2Proof.Machine

/-- The pipeline element of an element number. -/
def State.pe (s : State) (e : Nat) : Pe := tgetD (elemIdx e) (s.dist (elemDist e)).pes

/-- Changes a pipeline element. -/
def State.modPe (s : State) (e : Nat) (f : Pe → Pe) : State :=
  s.modDist (elemDist e) fun x => { x with pes := tmod (elemIdx e) f x.pes }

/-- A region in which pipeline elements may fire: started, with an instance that runs, not at V0, not halted for a save
(01 R20, R29; 16 R320). -/
def Region.fires (r : Region) : Bool :=
  (r.status == .running || r.status == .draining) && r.started && r.level != 0 && !r.gangHalt && !r.saved

/-! ### DONE and the quiet line (R230) -/

/-- The leaf number of a pipeline element in the region plane. -/
def State.leafNo (s : State) (e : Nat) : Nat := s.planeField (elemDist e) (elemIdx e) 0 56 0

/-- No element of the region with the same leaf number has an unanswered request. -/
def State.leafQuiet (s : State) (e : Nat) : Bool :=
  match s.regionAt (elemDist e) with
  | none => true
  | some r => r.districts.all fun d => (s.dist d).pes.all fun (i, p) =>
      p.unanswered == 0 || s.leafNo (elemAt d i) != s.leafNo e

/-- Sends a DONE that waits at E, once the leaf is quiet. -/
def State.sendDone (s : State) (e : Nat) : State :=
  match (s.pe e).donePend with
  | none => s
  | some t => if s.leafQuiet e then (s.modPe e fun p => { p with donePend := none }).emit e [t] else s

/-- Every DONE of a region that waited for its leaf's quiet line and need wait no more is sent. -/
def State.sendDones (s : State) (d : Nat) : State :=
  match s.regionAt d with
  | none => s
  | some r => r.districts.foldl (fun s d =>
      ((s.dist d).pes.filter fun (_, p) => p.donePend.isSome).foldl (fun s (i, _) => s.sendDone (elemAt d i)) s) s

/-- Tag of a request of a pipeline element, with its number. -/
def peTag (e n : Nat) : Option (Nat × Nat) := some (1024 + e, n)

/-- A pipeline element's request has taken its place, at a tile where it was applied or answered: later ones of the element
need not wait for it (04 R98; 05 R108, R111). -/
def State.requestPlaced (s : State) (tag : Option (Nat × Nat)) : State :=
  match tag with
  | none => s
  | some (k, n) => if k < 1024 then s else s.modPe (k - 1024) fun p => { p with sent := p.sent.filter fun q => q.1 != n }

/-- Whether an earlier request of a pipeline element has still to take its place before one of a number: a page request, or
one to a tile and granule, but for those `here` that keep their order by themselves. The element's firings order its
requests, whatever channels they travel on (04 R98; 05 R108, R111). -/
def State.requestBehind (s : State) (tag : Option (Nat × Nat)) (place : Option (Nat × Nat))
    (here : List (Option (Nat × Nat)) := []) : Bool :=
  match tag with
  | none => false
  | some (k, n) => decide (1024 ≤ k) &&
      (s.pe (k - 1024)).sent.any fun q => decide (q.1 < n) && q.2 == place && !here.contains (some (k, q.1))

/-- A request is answered: where a pipeline element sent it, its quiet line may rise (R230, 05 R117). -/
def State.answered (s : State) (tag : Option (Nat × Nat)) : State :=
  match tag with
  | none => s
  | some (n, _) =>
    if n < 1024 then s
    else
      let e := n - 1024
      (s.modPe e fun p => { p with unanswered := p.unanswered - 1 }).sendDones (elemDist e)

/-! ### The handler of a rotation head (02 R42-R46; 09 R232) -/

/-- A pipeline element as a firing on a plane slot finds it: on a plane not used before the marked registers are loaded
(01 R33). -/
def State.peIn (s : State) (e slot : Nat) : Pe :=
  let x := s.dist (elemDist e)
  if x.used.contains (4 * elemIdx e + slot) then s.pe e else (s.pe e).loadMarks (x.image (elemIdx e) slot)

/-- The plane slot in which an element is a rotation head: one whose LOOPCH stands on that slot. -/
def District.headSlot (x : District) (idx : Nat) : Option Nat :=
  [0, 1, 2, 3].find? fun k =>
    let im := x.image idx k
    im.isHead && (x.slotOf idx (im.field 6 6 0)).toNat == k

/-- The configuration of a rotation head with the handler on its loop channel. -/
structure HeadCfg where
  im : Image
  plane : BitVec 2
  h : Nat
  vce : Nat
  admitCh : Nat
  opnd : Nat
  loopCh : Nat
  initReg : Nat
  natLat : Nat
  lockstep : Bool
  deriving Repr, Inhabited

/-- The configuration of the rotation head at an element; none where it is none, or sealed. -/
def State.headCfg (s : State) (e : Nat) : Option HeadCfg :=
  let x := s.dist (elemDist e)
  let i := elemIdx e
  if elemKind e ≠ .pe ∨ s.isSealed e = true then none
  else (x.headSlot i).map fun k =>
    let im := x.image i k
    let v := x.vce i k (im.field 6 6 0)
    { im := im, plane := BitVec.ofNat 2 k, h := vceHandler v, vce := v, admitCh := im.field 6 4 0, opnd := im.field 6 5 0
      loopCh := im.field 6 6 0, initReg := im.field 6 8 0, natLat := im.field 6 2 1, lockstep := im.field 6 9 0 == 1 }

/-- The state of the head of an element. -/
def State.hd (s : State) (e : Nat) : Head := (s.pe e).head

/-- Changes the state of a head. -/
def State.modHd (s : State) (e : Nat) (f : Head → Head) : State := s.modPe e fun p => { p with head := f p.head }

/-- The token at the head of a channel of a rotation head, where the channel stands on the head's plane: what is behind a
RECONFIG waits for it (01 R32). -/
def State.headInput (s : State) (e : Nat) (c : HeadCfg) (ch : Nat) : Option (Nat × Held) :=
  if (s.dist (elemDist e)).slotOf (elemIdx e) ch = c.plane ∧ s.accepts (elemDist e) = true then
    s.deliveredAt e ch Token.isOperand
  else none

/-- The slot of a phase. -/
def Head.slot (h : Head) (p : Nat) : Slot := tgetD p h.slots

/-- An edge of the head's handler: link and channel. -/
def HeadCfg.edge (c : HeadCfg) (k : Nat) : Nat × BitVec 5 :=
  let o := c.im.field 4 (4 * c.h + k) 0
  (nbits o 14 12, BitVec.ofNat 5 (nbits o 11 7))

/-- The capture of a save is under way: fewer visits than slots have been made in mode SAVING (R50 step 2). -/
def Head.capturing (h : Head) : Bool :=
  h.mode == .saving && match h.job with
    | some j => decide (j.count < h.curs)
    | none => false

/-- The loop-return token of a phase, with its link. -/
def State.loopReturn (s : State) (e : Nat) (c : HeadCfg) (p : Nat) : Option (Nat × Held) :=
  (s.headInput e c c.loopCh).filter fun (_, h) => h.tok.phase.toNat == p

/-- The head's firing at a visit (R46, R232): the loop value as trigger, the staged operand as j1. -/
def HeadCfg.firing (c : HeadCfg) (pe : Pe) (p : Nat) (t : Slot) (value : W32) : Firing :=
  Firing.run { im := c.im, h := c.h, tch := c.loopCh, joins := [c.opnd], t := value, j1 := t.opnd, j2 := 0
               ph := BitVec.ofNat 6 p, mrk := t.opmk, rot := true, pe := pe }

/-- Whether an edge has room for a token, and nothing formed before waits to go out on it. -/
def State.clear (s : State) (e : Nat) (edge : Nat × BitVec 5) : Bool :=
  s.room e edge.1 edge.2.toNat && !((s.outOf e).any fun p => p.1 == edge.1 && p.2.channel == edge.2)

/-- The firing ends in an error end-of-stream token in place of its own: a fatal condition, or texp's own error (R210,
R211, R226). -/
def Firing.broken (f : Firing) : Bool :=
  f.fatal != 0 || match f.state with
    | .error _ => true
    | _ => false

/-- DATA of that token. -/
def Firing.errorData (f : Firing) : W32 :=
  if f.fatal ≠ 0 then f.fatal.setWidth 32
  else match f.state with
    | .error v => v
    | _ => 0

/-- The firing that the visit due at a rotation head would make: one to a LIVE slot whose loop-return has come, or to a
PARKED one, with a staged operand, neither marked error end-of-stream, through a bound and unmasked loop channel (02
Table K-12; R24). With it its operands; the staged one has left its channel before. -/
def State.headDue (s : State) (e : Nat) : Option (HeadCfg × Firing × List (Nat × Nat × Held)) :=
  match s.headCfg e with
  | none => none
  | some c =>
    let h := s.hd e
    let t := h.slot h.phc
    let ret := if t.state = .live then s.loopReturn e c h.phc else none
    let good := match ret with
      | some (_, k) => k.tok.marker != 3
      | none => t.state == .parked
    if good && t.opv && t.opmk != 3 && vceBound c.vce && !vceMask c.vce && (h.mode == .running || h.mode == .saving) then
      some (c, c.firing (s.peIn e c.plane.toNat) h.phc t ((ret.map fun q => q.2.tok.data).getD t.park),
        match ret with
        | some (l, k) => [(c.loopCh, l, k)]
        | none => [])
    else none

/-! ### Candidates (R24) -/

/-- A runnable handler with its trigger channel and priority. -/
structure Cand where
  h : Nat
  ch : Nat
  prio : Nat
  deriving DecidableEq, Repr, Inhabited

/-- The runnable handlers of an element: an operand token at the head of a bound, unmasked channel. The handler on a
rotation head's loop channel fires at visits only. -/
def State.runnable (s : State) (e : Nat) : List Cand :=
  let x := s.dist (elemDist e)
  let i := elemIdx e
  (List.range 32).filterMap fun c =>
    let im := x.image i (x.slotOf i c).toNat
    let v := im.field 1 c 0
    if vceBound v && !vceMask v && !(im.isHead && c == im.field 6 6 0) && (x.delivered i c Token.isOperand).isSome then
      some { h := vceHandler v, ch := c, prio := vcePriority v }
    else none

/-- The firing that a candidate would begin, with the channel, link and token of each operand: none while a join channel
has no token on the plane of the trigger (R24 condition 1). Where several operands are error tokens, the error that the
firing emits has the DATA of the first of trigger, J1 and J2 (DESIGN CHOICE, log 167). -/
def State.begin (s : State) (e : Nat) (k : Cand) : Option (Firing × List (Nat × Nat × Held)) :=
  let x := s.dist (elemDist e)
  let i := elemIdx e
  let slot := x.slotOf i k.ch
  let im := x.image i slot.toNat
  let joins := joinsOf (im.field 0 (6 * k.h) 0)
  let ops := (k.ch :: joins).filterMap fun c =>
    if x.slotOf i c = slot then (x.delivered i c Token.isOperand).map fun (l, h) => (c, l, h) else none
  if ops.length < joins.length + 1 then none
  else
    let tok (n : Nat) : Token := ((nth n ops).2.2).tok
    let f : Firing :=
      { im := im, h := k.h, tch := k.ch, joins := joins, t := (tok 0).data, j1 := (tok 1).data, j2 := (tok 2).data
        ph := (tok 0).phase, mrk := (tok 0).marker, rot := false, pe := s.peIn e slot.toNat }
    some (match ops.find? fun (_, _, h) => h.tok.marker = 3 with
      | some (_, _, h) => { f with pe := f.pe.clearRow f.h (f.word 3), state := .error h.tok.data }
      | none => f.run, ops)

/-- The reply tokens that a page request's word brings (R229). -/
def pageReplyTokens (w : W32) : Nat :=
  let op := nbits w.toNat 31 28
  if op = 0 then (if nbits w.toNat 25 24 = 2 then 4 else 1)
  else if op = 1 ∧ w.getLsbD 23 = true then 1
  else 0

/-- The reply tokens that a request word brings (15 R295, 04 R87). -/
def replyTokens (w : W32) : Nat :=
  let op := nbits w.toNat 31 28
  if op = 0 then (if nbits w.toNat 25 24 = 2 then 4 else 1)
  else if op = 6 ∨ op = 10 ∨ op = 11 then 1
  else if op = 15 then 0
  else if w.getLsbD 23 then 1 else 0

/-- The tile and granule of the request that a firing sends, or none for a page request; no such request where the firing
sends none, or a word that is no request to a tile (R228, R229). -/
def State.requestTo (s : State) (e : Nat) (f : Firing) : Option (Option (Nat × Nat)) :=
  let w := f.word 5
  let a := f.sel w (swSa w)
  let gran (v : W32) : Nat := nbits v.toNat 18 0 / 16
  match swOp w with
  | 4 => if nbits a.toNat 31 28 = 15 then none
    else (neighbour e (f.edge (f.edges.headD 0)).1).map fun n => some (n, gran a)
  | 5 => (s.regionAt (elemDist e)).map fun r =>
      let t := nbits a.toNat 17 0
      some (elemAt (nth (t / 250) r.districts) (tileIdx (t % 250)), gran (f.sel w (swSb w)))
  | 12 => some none
  | _ => none

/-- The reply channel and reply tokens of the request that a firing sends; none where it sends none (R228, R229). -/
def State.request (s : State) (e : Nat) (f : Firing) : Option (Nat × Nat) :=
  let w := f.word 5
  let a := f.sel w (swSa w)
  if f.fatal ≠ 0 ∨ f.state ≠ .running then none
  else match swOp w with
    | 4 =>
      let l := (f.edge (f.edges.headD 0)).1
      match neighbour e l with
      | none => some (0, 0)
      | some n => some (s.portField n (opposite l) 3 0, replyTokens a)
    | 5 => some (nbits a.toNat 27 23, replyTokens (f.sel w (swSb w)))
    | 12 => some (nbits a.toNat 27 23, pageReplyTokens f.p)
    | _ => none

/-- Whether replies on a channel come to the element itself: it is bound there, or a join channel (15 R295). -/
def Firing.takesOn (f : Firing) (ch : Nat) : Bool :=
  vceBound (f.entry ch) || (List.range 8).any fun h => (joinsOf (f.im.field 0 (6 * h) 0)).contains ch

/-- Room for the reply tokens of the request that a firing sends: 8 on each reply channel (15 R295). -/
def State.replyRoom (s : State) (e : Nat) (f : Firing) : Bool :=
  match s.request e f with
  | none => true
  | some (ch, n) => n == 0 || !f.takesOn ch || decide ((tget ch f.pe.reserved).getD 0 + n ≤ 8)

/-- E is free for a firing, no token of an earlier one waiting in it (R231), and there is room on every edge that the E
word names (R24 condition 2, R227). -/
def State.edgeRoom (s : State) (e : Nat) (f : Firing) : Bool :=
  (s.outOf e).isEmpty && f.edges.all fun k =>
    let (l, c) := f.edge k
    s.room e l c.toNat

/-- The candidate that a rotation head's due firing is. -/
def HeadCfg.cand (c : HeadCfg) : Cand := { h := c.h, ch := c.loopCh, prio := vcePriority c.vce }

/-- The due firing of a rotation head, where it could be made but for a power token: room on its edges, on the loop edge
too unless a save takes the result, and for an announcement of a fault (R24; 02 R46, R48, R50). -/
def State.headReady (s : State) (e : Nat) : Option (Cand × Firing × List (Nat × Nat × Held)) :=
  (s.headDue e).bind fun (c, f, ops) =>
    let taken := (s.hd e).capturing && !f.broken && f.mrk != 2
    if s.edgeRoom e f && (taken || s.clear e (c.edge 3)) && (!f.broken || decide ((s.hd e).ann.length < 64)) then
      some (c.cand, f, ops)
    else none

/-- The candidates that could fire but for a power token, a rotation head's handler among them at its visit. -/
def State.ready (s : State) (e : Nat) : List (Cand × Firing × List (Nat × Nat × Held)) :=
  ((s.runnable e).filterMap fun k =>
    match s.begin e k with
    | none => none
    | some (f, ops) => if s.edgeRoom e f && s.replyRoom e f then some (k, f, ops) else none) ++ (s.headReady e).toList

/-! ### Selection (R26) -/

/-- The next of some handlers in round-robin order after the one that fired last. -/
def rrNext (last : Option Nat) (hs : List Nat) : Option Nat :=
  let after := match last with
    | none => hs
    | some l => hs.filter fun h => l < h
  (if after.isEmpty then hs else after).min?

/-- The handler that fires, and whether it was promoted (R26). -/
def Pe.select (p : Pe) (ks : List Cand) : Option (Nat × Bool) :=
  let promoted := (ks.map (·.h)).filter fun h => 64 ≤ vget p.pass h
  if !promoted.isEmpty then (rrNext (vget p.last 4) promoted).map fun h => (h, true)
  else
    let top := (ks.map (·.prio)).foldl max 0
    (rrNext (vget p.last top) ((ks.filter fun k => k.prio == top).map (·.h))).map fun h => (h, false)

/-- Pass counters and round-robin memory after a firing (R26). -/
def Pe.aged (p : Pe) (fired : Cand) (promoted : Bool) (ready : List Cand) : Pe :=
  let pass := (List.range 8).foldl (fun v h =>
    if h = fired.h then vset v h 0
    else if ready.any fun k => k.h == h then vset v h (vget v h + 1) else v) p.pass
  let last := vset p.last fired.prio (some fired.h)
  { p with pass := pass, last := if promoted then vset last 4 (some fired.h) else last }

/-- Counters of handlers that are not runnable return to 0 (R26). -/
def State.settlePass (s : State) (e : Nat) : State :=
  let hs := (s.runnable e).map (·.h) ++ ((s.headDue e).map fun q => q.1.h).toList
  s.modPe e fun p => { p with pass := (List.range 8).foldl (fun v h => if hs.contains h then v else vset v h 0) p.pass }

/-! ### The firing -/

/-- Reply tokens reserved on a channel, with n more. -/
def reserve (ch n : Nat) (l : List (Nat × Nat)) : List (Nat × Nat) := tset ch ((tget ch l).getD 0 + n) l

/-- A reply token taken frees its room; an error reply all the room of its request. -/
def Pe.release (p : Pe) (ops : List (Nat × Nat × Held)) : Pe :=
  { p with reserved := ops.foldl (fun l (c, _, h) =>
      if h.tok.kind = 2 then tset c ((tget c l).getD 0 - h.tok.frees) l else l) p.reserved }

/-- Spends a power token of the district's region. -/
def State.spend (s : State) (d : Nat) : State :=
  match s.regionAt d with
  | none => s
  | some r => s.modRegion r.loadId fun r => { r with pool := r.pool - 1 }

/-- Whether a firing's reqr names a tile beyond its region: the element answers it itself (04 R88, R98). -/
def State.beyond (s : State) (e : Nat) (f : Firing) : Bool :=
  let w := f.word 5
  match s.regionAt (elemDist e) with
  | none => false
  | some r => f.fatal == 0 && f.state == .running && swOp w == 5 &&
      decide (250 * r.districts.length ≤ nbits (f.sel w (swSa w)).toNat 17 0)

/-- The element's own answer REMOTE_RANGE on a reply channel: it enters the element's router on the first link that
delivers the channel, else on the first that routes it (DESIGN CHOICE, log 131). -/
def State.answerSelf (s : State) (e ch n : Nat) : State :=
  let l := (([0, 1, 2, 3].find? fun l => s.routeOf e l ch == 5).orElse fun _ =>
    [0, 1, 2, 3].find? fun l => s.routeOf e l ch != 0).getD 0
  let t : Token := { errTok (BitVec.ofNat 5 ch) 6 with kind := 2, frees := n }
  s.modDist (elemDist e) fun x => x.setBuf (elemIdx e) l ch
    (x.buf (elemIdx e) l ch ++ [{ arr := s.tick, ns := s.timebase, tok := t }])

/-- What a firing does: its operands leave their channels, a power token is spent, the element takes its new state, and
its tokens leave (R24, R208). `staged` are operands that left their channels before. -/
def State.fire (s : State) (e : Nat) (f : Firing) (ops : List (Nat × Nat × Held)) (staged : List (Nat × Held)) : State :=
  let d := elemDist e
  let n := s.firingNumber e
  let out := f.leaves
  let req := s.request e f
  let own := s.beyond e f
  let no := (s.pe e).reqNo + 1
  let s0 := s.usePlane e ((s.dist d).slotOf (elemIdx e) f.tch).toNat
  let s1 := ops.foldl (fun s (c, l, _) => s.popAt e l c) ((s0.spend d).markFired d)
  let s2 := (s1.markFiring e ((ops.map fun (c, _, h) => (c, h)) ++ staged)).tally d evFirings 1
  let s3 := s2.modPe e fun _ =>
    let p := f.after.release ops
    { p with
      unanswered := p.unanswered + (if req.isSome ∧ own = false then 1 else 0)
      reqNo := if req.isSome then no else p.reqNo
      sent := if req.isSome ∧ own = false then p.sent ++ ((s.requestTo e f).map fun q => (no, q)).toList else p.sent
      reserved := match req with
        | some (ch, k) => if k ≠ 0 ∧ f.takesOn ch = true then reserve ch k p.reserved else p.reserved
        | none => p.reserved
      donePend := out.done.map fun (l, t) => (l, { t with fire := n }) }
  match own, req with
  | true, some (ch, k) => s3.answerSelf e ch k
  | _, _ =>
    (s3.emit e (out.toks.map fun (l, t) => (l, { t with fire := n, tag := if req.isSome then peTag e no else none }))).sendDone e

/-- The candidate of highest priority, of equal ones the first: during a switch two planes may each have a handler of the
selected number, and of two with equal priority the one on the lower channel fires (DESIGN CHOICE, log 144). -/
def bestOf : List (Cand × Firing × List (Nat × Nat × Held)) → Option (Cand × Firing × List (Nat × Nat × Held))
  | [] => none
  | k :: rest => match bestOf rest with
    | none => some k
    | some q => if k.1.prio < q.1.prio then some q else some k

/-- The firing that an element makes next, with the element's pass counters and round-robin memory moved on: of the
candidates that could fire, the one selected (R26). None where none could, or while a DONE waits at E (R230). -/
def State.chosen (s : State) (e : Nat) : Option (Cand × Firing × List (Nat × Nat × Held)) :=
  if (s.pe e).donePend.isSome then none
  else
    let ready := s.ready e
    match (s.pe e).select (ready.map (·.1)) with
    | none => none
    | some (h, promoted) =>
      (bestOf (ready.filter fun k => k.1.h == h)).map fun (k, f, ops) =>
        (k, { f with pe := f.pe.aged k promoted (ready.map (·.1)) }, ops)

/-- FIRING: the element's next firing (R24-R26, R207-R231). A DONE that waits at E holds later firings; the handler of a
rotation head fires at the head's visits. -/
def execFiring (e : Nat) (s : State) : Out :=
  let s0 := s.sendDone e
  .next (match s0.regionAt (elemDist e) with
    | none => s0
    | some r =>
      if elemKind e ≠ .pe ∨ r.fires = false ∨ s0.isSealed e = true ∨ r.pool = 0 then s0
      else match s0.chosen e with
        | none => s0
        | some (_, f, ops) => if f.rot then s0 else (s0.fire e f ops []).settlePass e)

/-! ### Waiting for a power token (22 R378) -/

/-- Some handler of a district could fire but for a power token. -/
def State.starving (s : State) (d : Nat) : Bool :=
  match s.regionAt d with
  | none => false
  | some r => r.fires && r.pool == 0 && (s.dist d).pes.any fun (i, _) =>
      let e := elemAt d i
      elemKind e == .pe && !s.isSealed e && (s.chosen e).isSome

/-- The time from one state to a later one counts, at the districts whose handlers waited in the first (22 R378 event
3). -/
def State.starvedSince (t s : State) : State :=
  s.regions.foldl (fun t r => if r.saved then t else r.districts.foldl (fun t d =>
    if s.starving d then t.tally d evStarved (t.timebase - s.timebase) else t) t) t

end Sys2Proof.Machine
end

