-- ==== Sys2Proof/Machine/Sum.lean ====
section
/-! DEFINITION. The exact totals of store-stream monitors and what they count (03 R78; 10 R248). -/

namespace Sys2Proof.Machine

/-- Bytes of a value of a format that a monitor may sum (03 R58, 10 R248). -/
def sumBytes (fmt : BitVec 4) : Nat :=
  match fmt.toNat with
  | 0 => 4
  | 10 => 4
  | 3 => 1
  | 4 => 1
  | _ => 2

/-- A finite value in units of 2^-160; every value of the formats is a whole number of them (03 R78). -/
def unitsOf (neg : Bool) (num den : Nat) : Int := signedNum neg (num * 2 ^ 160 / den)

/-- Adds one value to a total: a NaN or an infinity sets the invalid bit, a total that would pass +-2^159 the overflow bit,
and then stops changing (03 R78). -/
def MonField.add (f : MonField) : Val → MonField
  | .fin neg n d =>
    let t := f.total + unitsOf neg n d
    if f.overflow then f
    else if 2 ^ 319 ≤ t ∨ t < -2 ^ 319 then { f with overflow := true }
    else { f with total := t }
  | _ => { f with invalid := true }

/-- The element index of the monitor of a unit. -/
def monUnits : List Nat := [14, 15]

/-- A field of a spine element in the region plane. -/
def State.unitField (s : State) (d unit f reset : Nat) : Nat := s.planeField d (spineIdx unit) 0 f reset

/-- Byte offsets, of all that a write covers, at which field values begin: every element with ALL = 1, else byte OFF of a
granule; only values all of whose bytes were written (10 R248). -/
def countedAt (all : Bool) (o size off n : Nat) : List Nat :=
  (List.range n).map (· + off) |>.filter fun a =>
    a + size ≤ off + n && (if all then a % size == 0 else a % 16 == o)

/-- What one field counts of a write. -/
def MonField.count (f : MonField) (fdef ch off : Nat) (bs : List Byte) : MonField :=
  if !fdef.testBit 15 || nbits fdef 12 8 != ch then f
  else
    let fmt := BitVec.ofNat 4 (nbits fdef 3 0)
    let size := sumBytes fmt
    (countedAt (fdef.testBit 14) (nbits fdef 7 4) size off bs.length).foldl
      (fun f a => f.add (valOf fmt (leNat ((bs.drop (a - off)).take size)))) f

/-- A store or stream write has been applied at a port of an element of a district: each monitor of the district that
watches the port counts it (10 R248). -/
def State.counted (s : State) (d idx port ch off : Nat) (bs : List Byte) : State :=
  monUnits.foldl (fun s u =>
    if s.unitField d u 0 0 = port ∧ s.unitField d u 1 0 = idx then
      s.modDist d fun x => { x with mons := tmod u (fun m =>
        { m with fields := (List.range 8).foldl (fun v f =>
            vset v f ((vget v f).count (s.unitField d u (8 + f) 0) ch off bs)) m.fields }) x.mons }
    else s) s

end Sys2Proof.Machine
end

