-- ==== Sys2Proof/Machine/Page.lean ====
section
/-! DEFINITION. Accesses at a PORT: the checks and the translation of 17 R329, the dirty bit, page faults, side logs and
their replay, and how each kind of issuer gets its answer (17 R329-R335, R337; 08 R175; 05 R108, R111). -/

namespace Sys2Proof.Machine

/-- What comes of a translated access. -/
inductive XRes where
  /-- PORT_DENIED -/
  | denied
  /-- the page is not mapped -/
  | fault
  /-- a containment with its code -/
  | broken (code : BitVec 8)
  /-- a write that WB holds -/
  | wb
  /-- it may be performed: where -/
  | ok (loc addr : Nat)
  deriving DecidableEq, Repr, Inhabited

/-- The element that a fault of a data-class access seals: the PORT (17 Table D-21). -/
def portElem (d : Nat) : Nat := elemAt d portIdx

/-- The checks of 17 R329 in order, and the translation: from a cached entry where there is one, but a write through an
entry without DIRTY, or one cached as not writable, makes the walker read the page entry and set DIRTY (R330, R337).
`force` passes WB (R333). A read of a weight-store page by an engine other than STEEP and the copy engine is performed:
04 R100 names only these two as its readers, and no rule gives a fault for another (DESIGN CHOICE, log 125). -/
def State.translate (s : State) (d part : Nat) (a : Access) (force : Bool) : State × XRes :=
  match s.objectOf part a.obj.toNat with
  | none => (s, .denied)
  | some o =>
    let x := a.offset.toNat
    let page := a.page o
    let wr := a.write.isSome
    if o.limit < x + a.size ∨ a.rights &&& ~~~o.ceil ≠ 0 then (s, .denied)
    else
      let hit := s.lookup d a.issuer part a.obj.toNat page
      let e := s.pte o page
      let walk := match hit with
        | none => true
        | some t => wr && (!t.dirty || t.ro)
      if walk && !pteValid e then (s, .fault)
      else if walk && pteBad o e then (s, .broken codeBadPte)
      else
        let (frame, loc, attr) := match hit, walk with
          | some t, false => (t.frame.toNat, t.loc.toNat, t.attr.toNat)
          | _, _ => (pteFrame e, pteLoc e, pteAttr e)
        if loc = 1 ∧ a.rights &&& o.ceil &&& rightH = 0 then (s, .denied)
        else if loc = 2 ∧ a.issuer.scalar = true then (s, .broken codeWsAccess)
        else if loc = 2 ∧ wr = true then (s, .broken codeWsReadonly)
        else if walk && wr && pteWb e && !force then (s, .wb)
        else
          let s1 := if walk && wr && !pteDirty e then s.setPte o page (e + 2 ^ 22) else s
          let old := ((s.dist d).port.tlb.find? fun t => t.isFor part a.obj.toNat page)
          let t : TlbEntry :=
            { part := BitVec.ofNat 6 part, obj := a.obj, page := BitVec.ofNat 24 page, frame := BitVec.ofNat 36 frame
              loc := BitVec.ofNat 2 loc, attr := BitVec.ofNat 2 attr
              dirty := if walk then pteDirty e || wr else (hit.map (·.dirty)).getD false
              ro := if walk then pteMigrating e || pteWb e else (hit.map (·.ro)).getD false
              acc := if walk then BitVec.ofNat 16 (pteAcc e) else (hit.map (·.acc)).getD 0
              count := (old.map (·.count)).getD 0 }
          let s2 := if walk || old.isNone then s1.cacheEntry d a.issuer t else s1
          (s2, .ok loc (frameByte loc frame (x % o.pageSize)))

/-- What comes of an access that has been performed or not. -/
inductive PRes where
  | denied
  | fault
  | broken (code : BitVec 8)
  | wb
  | done (bytes : List Byte)
  deriving DecidableEq, Repr, Inhabited

/-- The stretches of bytes that a write writes, each with its place, from byte n on; `acc` holds those before, latest first. -/
def piecesGo (holes : List Nat) : Nat → List Byte → List (Nat × List Byte) → List (Nat × List Byte)
  | _, [], acc => (acc.filter fun p => !p.2.isEmpty).reverse
  | n, b :: bs, acc =>
    if holes.contains n then piecesGo holes (n + 1) bs ((n + 1, []) :: acc)
    else match acc with
      | [] => piecesGo holes (n + 1) bs [(n, [b])]
      | (i, l) :: r => piecesGo holes (n + 1) bs ((i, l ++ [b]) :: r)

/-- The stretches of bytes that a write writes (05 R109). -/
def Access.pieces (a : Access) (bs : List Byte) : List (Nat × List Byte) := piecesGo a.holes 0 bs [(0, [])]

/-- Translates and performs an access: one act at its place (05 R109). An access to a host page is counted (R338); a bound
stream's write is counted by the monitors that watch the PORT (10 R248). -/
def State.perform (s : State) (d part : Nat) (a : Access) (force : Bool) : State × PRes :=
  match s.translate d part a force with
  | (s1, .denied) => (s1, .denied)
  | (s1, .fault) => (s1, .fault)
  | (s1, .broken c) => (s1, .broken c)
  | (s1, .wb) => (s1, .wb)
  | (s1, .ok loc addr) =>
    let s2 := if loc = 1 then s1.countHost d part a.obj.toNat (s.pageOf part a) else s1
    match a.write with
    | none => (s2, .done (s1.locRead loc addr a.size))
    | some bs =>
      ((a.pieces bs).foldl (fun s (i, l) =>
        let s1 := s.locWrite loc (addr + i) l
        match a.issuer with
        | .stream _ => s1.counted d portIdx 5 a.rch.toNat (a.offset.toNat + i) l
        | _ => s1) s2, .done [])

/-- The number by which an access of a stream names its command. -/
def runNo (k : Nat × BitVec 32 × BitVec 32) : Nat := 2 ^ 32 * k.1 + k.2.2.toNat

/-- The stream command of a PORT that has a number: the one in progress, or one that only its writes keep from finishing. -/
def Port.runOf (p : Port) (n : Nat) : Option (Nat × BitVec 32 × BitVec 32) :=
  (p.closing ++ p.stream.owner.toList).find? fun k => runNo k == n

/-- The command or instruction that an access at a PORT belongs to, as SEQID, PC and ECSN; a pipeline element's has none
(01 R39). -/
def State.accessName (s : State) (d : Nat) (a : Access) : Option (Nat × BitVec 32 × BitVec 32) :=
  match a.issuer with
  | .seq c => ((s.coreOf c).ops.find? fun o => o.id == a.op).map fun o => (c, o.pc, o.eecsn)
  | .copier _ => (s.dist d).copier.queue.head?.map fun k => (k.core, k.pc, k.ecsn)
  | .dec e => (tgetD (idxRow (elemIdx e)) (s.dist d).decs).job.map fun j => (j.cmd.core, j.cmd.pc, j.cmd.ecsn)
  | .stream _ => (s.dist d).port.runOf a.op
  | .pe _ => none

/-- A containment that an access raises (17 Table D-21): WS_ACCESS seals the pipeline element, or the region for a SEQ;
WS_READONLY the engine's element; BAD_PTE and PAGE_EXHAUSTED the PORT for data-class traffic, else the region. An access
of an earlier launch seals nothing of a later one (DESIGN CHOICE, log 124). -/
def State.accessFault (s : State) (d : Nat) (a : Access) (code : BitVec 8) : State :=
  let name := s.accessName d a
  if a.inc ≠ (s.distReg d).incarnation then s else
  let sealing (region : Bool) (e : Nat) : State := s.containAs code region e (s.planeAt d) name
  if code = codeWsAccess then
    match a.issuer with
    | .pe e => sealing false e
    | _ => sealing true (elemAt d seqIdx)
  else if code = codeWsReadonly then
    match a.issuer with
    | .dec e => sealing false e
    | .stream _ => sealing false (portElem d)
    | _ => sealing false (elemAt d seqIdx)
  else if a.issuer.dataClass then sealing false (portElem d)
  else sealing true (elemAt d seqIdx)

/-! ### Answers -/

/-- An answer to a scalar access is on its way back, with the incarnation of its request (17 R343). -/
def State.pushReply (s : State) (d : Nat) (a : Access) (ws : List W32) (code : BitVec 8) : State :=
  s.modDist d fun x => { x with port := { x.port with replyQ := x.port.replyQ ++ [(a.inc, a, ws, code)] } }

/-- A write has been performed: a SEQ's store is answered; a pipeline element's is acknowledged, or is answered without a
token (08 R170; 04 R106). -/
def State.storeDone (s : State) (d : Nat) (a : Access) : State :=
  match a.issuer with
  | .seq _ => s.pushReply d a [] 0
  | .pe e => if a.ack then s.pushReply d a [0] 0
    else if a.inc = (s.distReg d).incarnation then s.answered (peTag e a.op) else s
  | _ => s

/-- Words of a read, low word first; a half stands in the low half of its word. -/
def readWords (bs : List Byte) : List W32 := wordsOf ((bs.length + 3) / 4) bs

/-- Code of an access that the PORT denies (17 R329). -/
abbrev codeDenied : BitVec 8 := 0x60

/-- The engine command whose write a PORT has denied after it had gone into the side log: ENGINE_FAULT SUB 0x60. -/
def State.lateDenied (s : State) (d : Nat) (a : Access) : State :=
  let raise (k : EngCmd) (unit : Nat) : State := s.post k.core
    { cause := causeEngineFault, sub := codeDenied, unit := BitVec.ofNat 8 unit, epc := k.pc, eecsn := k.ecsn }
  match a.issuer with
  | .copier _ => match (s.dist d).copier.queue with
    | k :: _ => raise k 18
    | [] => s
  | .dec e => match (tgetD (idxRow (elemIdx e)) (s.dist d).decs).job with
    | some j => raise j.cmd (idxRow (elemIdx e))
    | none => s
  | .stream _ => match (s.dist d).port.runOf a.op with
    | some (c, pc, n) => s.post c { cause := causeEngineFault, sub := codeDenied, unit := 19, epc := pc, eecsn := n }
    | none => s
  | _ => s

/-! ### Page faults and side logs (R332, R333) -/

/-- A page fault takes the next serial number, and its record goes to the pager. -/
def State.newFault (s : State) (d part page : Nat) (a : Access) : State :=
  let p := s.paging
  let f : PageFault :=
    { fsn := p.fsn, part := BitVec.ofNat 6 part, obj := a.obj, page := BitVec.ofNat 24 page, dist := d, inc := a.inc
      dataClass := a.issuer.dataClass, write := a.write.isSome, since := s.timebase }
  ({ s with paging := { p with fsn := p.fsn + 1, faults := p.faults ++ [f] } }).tally d evPageFaults 1

/-- Appends a write to the side log. -/
def State.logWrite (s : State) (d : Nat) (a : Access) (fsn : Option (BitVec 24)) : State :=
  (s.modDist d fun x => { x with port := { x.port with sideLog := x.port.sideLog ++ [{ acc := a, fsn := fsn }] } }).tally
    d evSideLog 1

/-- Whether an access goes to a page. -/
def State.onPage (s : State) (part obj page : Nat) (a : Access) : Bool :=
  a.obj.toNat == obj && s.pageOf part a == page

/-- Replays entries of a side log in order, each as a write under 17 R329; those that still cannot be performed are kept,
latest first in `kept`. -/
def replayGo (d part : Nat) (force : Bool) : List SideEntry → List SideEntry → State → List SideEntry × State
  | [], kept, s => (kept.reverse, s)
  | x :: rest, kept, s =>
    match s.perform d part x.acc force with
    | (s1, .done _) => replayGo d part force rest kept (s1.storeDone d x.acc)
    | (s1, .wb) => replayGo d part force rest ({ x with fsn := none, freed := false } :: kept) s1
    | (s1, .fault) =>
      replayGo d part force rest ({ x with fsn := some s1.paging.fsn } :: kept)
        (s1.newFault d part (s1.pageOf part x.acc) x.acc)
    | (s1, .broken c) => replayGo d part force rest kept (s1.accessFault d x.acc c)
    | (s1, .denied) =>
      replayGo d part force rest kept
        (match x.acc.issuer with
          | .seq _ => s1.pushReply d x.acc [] codeDenied
          | .pe _ => s1.pushReply d x.acc [] codeDenied
          | _ => if x.acc.inc = (s1.distReg d).incarnation then s1.lateDenied d x.acc else s1)

/-- Replays what a PORT's side log holds of a page (17 R333). -/
def State.replayPage (s : State) (d part obj page : Nat) (force : Bool) : State :=
  let (mine, rest) := (s.dist d).port.sideLog.partition fun x => s.onPage part obj page x.acc
  if mine.isEmpty then s
  else
    let s1 := s.modDist d fun x => { x with port := { x.port with sideLog := rest } }
    let (kept, s2) := replayGo d part force mine [] s1
    s2.modDist d fun x => { x with port := { x.port with sideLog := x.port.sideLog ++ kept } }

/-- A page is mapped and takes writes. -/
def State.mapped (s : State) (part obj page : Nat) : Bool :=
  match s.objectOf part obj with
  | none => false
  | some o => let e := s.pte o page; pteValid e && !pteWb e

/-- Writes to a page that a migration holds at a PORT: after a failed step 4 until software has rewritten the entry and
invalidated the page (17 R340). -/
def State.heldPage (s : State) (d part obj page : Nat) : Bool :=
  (s.dist d).port.sideLog.any fun x => x.fsn.isNone && !x.freed && s.onPage part obj page x.acc

/-- Replays what a PORT's side log holds of a page that has become mapped, before any other access to it (17 R333); not
while a migration holds writes to it. -/
def State.replayMapped (s : State) (d part obj page : Nat) : State :=
  if s.mapped part obj page && !s.heldPage d part obj page then s.replayPage d part obj page false else s

/-! ### Accesses of scalars and engines -/

/-- Whether a side log holds an access back: a load whose issuer has an entry for the location, a strongly ordered access
whose issuer has a strongly ordered store there, and a request of a pipeline element whose acknowledged store stands there
(17 R333; 05 R108, R111). -/
def State.logHolds (s : State) (d part : Nat) (a : Access) : Bool :=
  let so := s.attrOf d part a == 0
  (s.dist d).port.sideLog.any fun x =>
    x.acc.issuer == a.issuer &&
      ((a.write.isNone && overlaps a x.acc) ||
       (x.acc.inc == a.inc && a.issuer.scalar && so && s.attrOf d part x.acc == 0) ||
       (match a.issuer with
        | .pe _ => x.acc.inc == a.inc && x.acc.ack
        | _ => false))

/-- How an access at a PORT stands after it has been tried. -/
inductive Tried where
  | wait
  | denied
  | broken
  | logged
  | held
  | done (bytes : List Byte)
  deriving DecidableEq, Repr, Inhabited

/-- Performs an access, but for a write to a page to which a migration holds writes: that is checked, and held behind them
(17 R340). -/
def State.performNow (s : State) (d part : Nat) (a : Access) : State × PRes :=
  if a.write.isSome && s.heldPage d part a.obj.toNat (s.pageOf part a) then
    match s.translate d part a false with
    | (s1, .denied) => (s1, .denied)
    | (s1, .fault) => (s1, .fault)
    | (s1, .broken c) => (s1, .broken c)
    | _ => (s, .wb)
  else s.perform d part a false

/-- Tries an access: a write that meets an unmapped page, or that WB holds, retires into the side log where it has room; a
read that meets one is held (17 R332, R340). -/
def State.tryAccess (s : State) (d : Nat) (a : Access) : State × Tried :=
  let part := s.partAt d
  let page := s.pageOf part a
  let s0 := s.replayMapped d part a.obj.toNat page
  if s0.logHolds d part a then (s0, .wait)
  else
    let full := decide (256 ≤ (s0.dist d).port.sideLog.length)
    match s0.performNow d part a with
    | (s1, .done bs) => (s1, .done bs)
    | (s1, .denied) => (s1, .denied)
    | (s1, .broken c) => (s1.accessFault d a c, .broken)
    | (s1, .wb) => if full then (s0, .wait) else (s1.logWrite d a none, .logged)
    | (s1, .fault) =>
      let fsn := s1.paging.fsn
      if a.write.isSome then
        (if full then (s0, .wait) else ((s1.newFault d part page a).logWrite d a (some fsn), .logged))
      else
        ((s1.newFault d part page a).modDist d fun x => { x with port := { x.port with
            heldReads := x.port.heldReads ++ [{ acc := a, fsn := fsn }] } }, .held)

/-- Whether an earlier access of a SEQ holds a later one back: one to the same granule, or two strongly ordered ones (05 R108,
R111). -/
def State.holdsBack (s : State) (d part : Nat) (b a : Access) : Bool :=
  b.issuer == a.issuer && b.inc == a.inc &&
    match a.issuer with
    | .pe _ => false
    | _ => (a.obj == b.obj && a.offset.toNat / 16 == b.offset.toNat / 16) ||
           (s.attrOf d part a == 0 && s.attrOf d part b == 0)

/-- Whether an access of a pipeline element waits for an earlier page request of the element, wherever that is: its firings
order its requests, whatever channels they came on (05 R108, R111; that those to different RC or UO locations keep their
order too is the model's, DESIGN CHOICE, log 126). -/
def State.peHolds (s : State) (d : Nat) (a : Access) : Bool :=
  match a.issuer with
  | .pe e => a.inc == (s.distReg d).incarnation && s.requestBehind (peTag e a.op) none
  | _ => false

/-- A pipeline element's access has been performed, logged or answered. -/
def State.placedBy (s : State) (d : Nat) (a : Access) : State :=
  match a.issuer with
  | .pe e => if a.inc = (s.distReg d).incarnation then s.requestPlaced (peTag e a.op) else s
  | _ => s

/-- A re-issued read of the class of an issuer: each class keeps the order in which its reads were held (17 R335). -/
def Access.againWith (a : Access) (i : Issuer) : Bool := a.again && a.issuer.dataClass == i.dataClass

/-- Whether an access waits for one before it: one that stands earlier in the queue, a read held by its page, or an earlier
request of its pipeline element; and a held read that has been re-issued for those held before it (05 R108, R111; 17
R335). -/
def State.queueHolds (s : State) (d part : Nat) (a : Access) (earlier : List Access) : Bool :=
  s.peHolds d a || (earlier.any fun b => s.holdsBack d part b a || (a.again && b.againWith a.issuer)) ||
    (s.dist d).port.heldReads.any fun h => s.holdsBack d part h.acc a

/-- A SEQ's memory instruction takes a new standing; a load that meets an unmapped page holds the SEQ (08 R175). -/
def State.markOp (s : State) (a : Access) (st : OpStatus) : State :=
  match a.issuer with
  | .seq c => if a.inc ≠ (s.distReg c).incarnation then s
    else s.modCore c fun x => { x.modOp a.op fun o => { o with status := st } with held := x.held || st == .held }
  | _ => s

/-- PORT_ACCESS: the PORT checks, translates and performs the n-th access that stands before it, where no earlier one of
its issuer holds it back (17 R329-R333, R337, R338; 08 R175; 05 R108, R111). A re-issued read of an engine is the engine's
own to make. -/
def execPortAccess (d n : Nat) (s : State) : Out :=
  let q := (s.dist d).port.accessQ
  .next (
    if (s.regionAt d).isNone then s
    else match q[n]? with
      | none => s
      | some a =>
        if !a.issuer.scalar || s.queueHolds d (s.partAt d) a (q.take n) then s
        else
          let (s1, r) := s.tryAccess d a
          let s2 := s1.modDist d fun x => { x with port := { x.port with accessQ := delNth n x.port.accessQ } }
          match r with
          | .wait => s1
          | .broken => s2.placedBy d a
          | .denied => (s2.pushReply d a [] codeDenied).placedBy d a
          | .logged => (s2.markOp a .logged).placedBy d a
          | .held => s2.markOp a .held
          | .done bs => (if a.write.isSome then s2.storeDone d a else s2.pushReply d a (readWords bs) 0).placedBy d a)

/-! ### Page requests (04 R106) -/

/-- Codes of a page request that fails (04 Table K-30). -/
abbrev errPageForm : BitVec 8 := 7
abbrev errPageCap : BitVec 8 := 8

/-- Operand tokens of a page request. -/
def pageOperands (w : W32) : Nat := if w.extractLsb' 28 4 = 1 then 1 else 0

/-- The form that a page request must have. A first token whose OP is not 15 or whose PAGE bit is 0, a TILE field other than
0, bits [22:19] other than 0, a WIDTH of 3 and a token of another kind than the request's next fail it too (DESIGN CHOICE,
log 140: row 7 of 04 Table K-30 does not list them). -/
def pageFormOk (a : Partial) (w : W32) : Bool :=
  let v := w.toNat
  let op := nbits v 31 28
  let width := nbits v 25 24
  nbits (a.route.getD 0).toNat 31 28 == 15 && (a.route.getD 0).getLsbD 18 &&
    nbits (a.route.getD 0).toNat 22 19 != 0 && nbits (a.route.getD 0).toNat 17 0 == 0 && capObj a.cap != tileSpace &&
    (op == 0 || op == 1) && nbits v 27 26 == 0 && width != 3 && !(op == 1 && width == 2) && nbits v 22 19 == 0 &&
    nbits v 18 0 == 0

/-- The access that a whole page request asks for, or its error (04 R106): the form, then the checks of 04 R104 with the
capability as it stood when the PORT took the route token. An offset that the width does not divide fails the form (05
R109: every access is aligned; that the code is PAGE_FORM is a DESIGN CHOICE, log 150). An error reply frees the room that
the request's word reserved, none where that is none (DEDUCED, log 169). -/
def State.pageRequest (s : State) (d : Nat) (a : Partial) (w : W32) (bad : Bool) : State :=
  let v := w.toNat
  let store := nbits v 31 28 == 1
  let n := if nbits v 25 24 = 0 then 2 else if nbits v 25 24 = 1 then 4 else 16
  let o := (capBase a.cap).toNat + (a.disp.getD 0).toNat
  let e := match a.tag with
    | some (k, _) => k - 1024
    | none => portElem d
  let acc : Access :=
    { obj := capObj a.cap, offset := BitVec.ofNat 40 o, size := n
      write := if store then some ((bytesOfWords a.operands).take n) else none
      rights := capRights a.cap, issuer := .pe e, rch := BitVec.ofNat 5 (nbits (a.route.getD 0).toNat 27 23)
      ack := v.testBit 23, op := match a.tag with
        | some (_, k) => k
        | none => 0
      inc := (s.distReg d).incarnation, places := pageReplyTokens w }
  if bad || !pageFormOk a w || o % n != 0 then (s.pushReply d acc [] errPageForm).placedBy d acc
  else if (capchk a.cap o n (if store then rightW else rightR)).isSome then (s.pushReply d acc [] errPageCap).placedBy d acc
  else s.modDist d fun x => { x with port := { x.port with accessQ := x.port.accessQ ++ [acc] } }

/-- Sets or removes the part of a page request that a PORT has received on a channel. -/
def State.setPortPartial (s : State) (d key : Nat) (a : Option Partial) : State :=
  s.modDist d fun x => { x with port := { x.port with partials := match a with
    | none => terase key x.port.partials
    | some a => tset key a x.port.partials } }

/-- A store of a pipeline element waits for room in a full side log, and the element's later requests stay in the fabric
(17 R333). -/
def State.logFull (s : State) (d : Nat) (tag : Option (Nat × Nat)) : Bool :=
  let p := (s.dist d).port
  decide (256 ≤ p.sideLog.length) && p.accessQ.any fun a => a.write.isSome && match a.issuer, tag with
    | .pe e, some (k, n) => k == 1024 + e && decide (a.op < n)
    | _, _ => false

/-- A PORT takes the next token of a page request; one of the wrong kind ends the request with PAGE_FORM and is itself left
at the head (DEDUCED, log 53); so is an operand token behind a request that takes none (DESIGN CHOICE, log 168). The first
request token is taken for the route, and checked with the rest (09 R229). A reply
is of a kind that a PORT accepts (01 R14); no rule gives it an effect there, and it is taken (DEDUCED, log 109). -/
def State.pageTake (s : State) (d link ch : Nat) (t : Token) : State :=
  let e := portElem d
  let key := 32 * link + ch
  match tget key (s.dist d).port.partials with
  | none =>
    if t.kind = 1 then
      (s.popAt e link ch).setPortPartial d key
        (some { route := some t.data, cap := (s.coreOf d).rdK (t.data.extractLsb' 19 4), tag := t.tag })
    else if t.kind = 2 then s.popAt e link ch
    else s
  | some a =>
    let fail (s : State) (w : W32) : State := (s.setPortPartial d key none).pageRequest d a w true
    match a.disp, a.request with
    | none, _ =>
      if t.kind ≠ 0 then fail s 0
      else (s.popAt e link ch).setPortPartial d key (some { a with disp := some t.data })
    | some _, none =>
      if t.kind ≠ 1 then fail s 0
      else if s.logFull d t.tag then s
      else if pageOperands t.data = 0 then
        ((s.popAt e link ch).setPortPartial d key none).pageRequest d { a with tag := t.tag } t.data false
      else (s.popAt e link ch).setPortPartial d key (some { a with request := some t.data, tag := t.tag })
    | some _, some w =>
      if t.kind ≠ 0 then fail s w
      else ((s.popAt e link ch).setPortPartial d key none).pageRequest d { a with operands := [t.data] } w false

/-- Whether an answer at a PORT is for a pipeline element. -/
def isPeReply (q : BitVec 16 × Access × List W32 × BitVec 8) : Bool :=
  match q.2.1.issuer with
  | .pe _ => true
  | _ => false

/-- The PORT emits its oldest answer to a pipeline element on RCH, and the request is answered (04 R106; 09 R230). -/
def State.pageAnswer (s : State) (d : Nat) : State :=
  match (s.dist d).port.replyQ.find? isPeReply with
  | none => s
  | some (inc, a, ws, code) =>
    if inc ≠ (s.distReg d).incarnation then s
    else
      let s1 := s.modDist d fun x => { x with port := { x.port with replyQ := delFirst isPeReply x.port.replyQ } }
      match a.issuer with
      | .pe e =>
        let tag := peTag e a.op
        let toks : List Token := if code ≠ 0 then [{ errTok a.rch code.toNat with kind := 2, tag := tag, frees := a.places }]
          else ws.map fun w => { kind := 2, channel := a.rch, data := w, tag := tag }
        (toks.foldl (fun s t => s.portEmit d t) s1).answered tag
      | _ => s1

/-- PAGE_REQUEST: the PORT takes the next token of a page request from a channel of a link, and, with its last, checks the
request and sets it before itself or answers it; link 4 stands for its next answer on the way to a pipeline element
(04 R106). -/
def execPageRequest (d link ch : Nat) (s : State) : Out :=
  let e := portElem d
  .next (
    if s.isSealed e then s
    else if link = 4 then s.pageAnswer d
    else match s.headAt e link ch with
      | none => s
      | some h =>
        if s.routeOf e link ch ≠ 5 ∨ s.accepts d = false ∨ (s.chanField e ch 1 ch 0).testBit 15 = true ∨ h.tok.kind = 3 then s
        else s.pageTake d link ch h.tok)

/-- REPLY_LATE_DROP: a reply whose incarnation is not the district's own is dropped at the PORT (17 R343); one to an
access of a launch that has left the district is such a reply, when it comes. -/
def execReplyLateDrop (d : Nat) (s : State) : Out :=
  let inc := (s.distReg d).incarnation
  let p := (s.dist d).port
  let drop (q : Port) : State :=
    let s1 := s.modDist d fun x => { x with port := q }
    { s1 with paging := { s1.paging with latedrop := satInc s1.paging.latedrop } }
  .next (
    if p.replyQ.any fun q => q.1 != inc then drop { p with replyQ := delFirst (fun q => q.1 != inc) p.replyQ }
    else if p.late.any fun i => i != inc then drop { p with late := delFirst (fun i => i != inc) p.late }
    else s)

/-! ### Engines at a PORT -/

/-- Whether an engine's read is held at the PORT, or, re-issued, has to let others go first (17 R335). -/
def State.engineHeld (s : State) (d : Nat) (i : Issuer) : Bool :=
  let p := (s.dist d).port
  (p.heldReads.any fun h => h.acc.issuer == i) ||
    match p.accessQ.find? fun a => a.againWith i with
    | some a => a.issuer != i && p.accessQ.any fun b => b.again && b.issuer == i
    | none => false

/-- A re-issued read of an engine is being made. -/
def State.takeAgain (s : State) (d : Nat) (i : Issuer) : State :=
  s.modDist d fun x => { x with port := { x.port with
    accessQ := delFirst (fun a => a.again && a.issuer == i) x.port.accessQ } }

/-- Whether writes of an engine stand in the side log: until they are replayed it is not finished (05 R115 step 3). -/
def State.engineLogged (s : State) (d : Nat) (i : Issuer) : Bool := (s.dist d).port.sideLog.any fun x => x.acc.issuer == i

/-- The number that an engine's accesses carry: that of its command where a PORT may have several under way. -/
def State.engineNo (s : State) (d : Nat) (i : Issuer) : Nat :=
  match i with
  | .stream _ => ((s.dist d).port.stream.owner.map runNo).getD 0
  | _ => 0

/-- The parts of n bytes at an object offset, each within 16 bytes and so within one page: an engine performs its transfers
granule by granule (05 R109). -/
def granParts : Nat → Nat → Nat → List (Nat × Nat)
  | 0, _, _ => []
  | fuel + 1, off, n =>
    if n = 0 then []
    else
      let k := min n (16 - off % 16)
      (off, k) :: granParts fuel (off + k) (n - k)

/-- What comes of an engine's transfer. -/
inductive EngRes where
  | wait
  | denied
  | broken
  | done (bytes : List Byte)
  deriving DecidableEq, Repr, Inhabited

/-- An engine reads the parts of an object. -/
def engReadGo (d : Nat) (i : Issuer) (c : Cap) : List (Nat × Nat) → List Byte → State → State × EngRes
  | [], acc, s => (s, .done acc)
  | (off, n) :: rest, acc, s =>
    let a : Access := { obj := capObj c, offset := BitVec.ofNat 40 off, size := n, rights := capRights c, issuer := i
                        op := s.engineNo d i, inc := (s.distReg d).incarnation }
    match s.tryAccess d a with
    | (s1, .done bs) => engReadGo d i c rest (acc ++ bs) s1
    | (s1, .denied) => (s1, .denied)
    | (s1, .broken) => (s1, .broken)
    | (s1, _) => (s1, .wait)

/-- An engine reads n bytes of an object; it waits while its read is held. -/
def State.engRead (s : State) (d : Nat) (i : Issuer) (c : Cap) (off n : Nat) : State × EngRes :=
  if s.engineHeld d i then (s, .wait) else engReadGo d i c (granParts (n + 1) off n) [] (s.takeAgain d i)

/-- What a write of bytes to some addresses of one granule covers: the lowest address, the data from there to the highest,
and the places between that it does not write. -/
def spanOf (run : List Nat) (bs : List Byte) : Nat × List Byte × List Nat :=
  let lo := run.foldl min (run.headD 0)
  let l := List.range (run.foldl max lo + 1 - lo)
  (lo, l.map fun i => ((run.zip bs).find? fun q => q.1 == lo + i).elim 0 (·.2), l.filter fun i => !run.contains (lo + i))

/-- An engine writes bytes to addresses of one granule of an object, in one act (05 R109); where the write has to enter the
side log and finds it full, it waits and nothing has happened (17 R333). -/
def State.engWrite (s : State) (d : Nat) (i : Issuer) (c : Cap) (ch : BitVec 5) (run : List Nat) (bs : List Byte) :
    State × EngRes :=
  let (off, data, holes) := spanOf run bs
  let a : Access := { obj := capObj c, offset := BitVec.ofNat 40 off, size := data.length, write := some data, holes := holes
                      rights := capRights c, issuer := i, rch := ch, op := s.engineNo d i
                      inc := (s.distReg d).incarnation }
  match s.tryAccess d a with
  | (_, .wait) => (s, .wait)
  | (s1, .denied) => (s1, .denied)
  | (s1, .broken) => (s1, .broken)
  | (s1, _) => (s1, .done [])

/-! ### Walking a descriptor (08 R182; 05 R109, R115) -/

/-- The bytes of a walk. -/
def Descriptor.bytes (q : Descriptor) : Nat := q.elements * q.size

/-- The address of byte n of a walk. -/
def Descriptor.byteAt (q : Descriptor) (n : Nat) : Nat := (q.addr (n / q.size)).toNat + n % q.size

/-- Addresses of the bytes of a walk from byte n on that lie in one granule, none of them twice. -/
def runGo (q : Descriptor) (g : Nat) : Nat → Nat → List Nat → List Nat
  | 0, _, seen => seen.reverse
  | k + 1, n, seen =>
    let a := q.byteAt n
    if n < q.bytes ∧ a / 16 = g ∧ seen.contains a = false then runGo q g k (n + 1) (a :: seen) else seen.reverse

/-- The transfer that an engine makes at byte n of a walk: at most `lim` bytes of one granule (05 R109). -/
def Descriptor.run (q : Descriptor) (n lim : Nat) : List Nat := runGo q (q.byteAt n / 16) (min 16 lim) n []

/-! ### Streams bound at a PORT (08 R185) -/

/-- Tokens of an element of n bytes. -/
def elementTokens (n : Nat) : Nat := (n + 3) / 4

/-- Changes the stream of a PORT. -/
def State.modPortStream (s : State) (d : Nat) (f : StreamRun → StreamRun) : State :=
  s.modDist d fun x => { x with port := { x.port with stream := f x.port.stream } }

/-- The run of a PORT stream ends, as finished or with a fault code: CPC falls and its command leaves the scoreboard, in
which those that are still closing stand before it. -/
def State.endPortRun (s : State) (d : Nat) (fault : Option (BitVec 8)) : State :=
  let owner := (s.dist d).port.stream.owner
  let s1 := s.modDist d fun x =>
    { x with port := { x.port with stream := {}, score := x.port.score.eraseIdx x.port.closing.length } }
  match owner with
  | none => s1
  | some (c, pc, n) => s1.reply c
      { counter := .cpc
        cause := fault.map fun f => { cause := causeEngineFault, sub := f, unit := 19, epc := pc, eecsn := n } }

/-- Marker of the last token of element n of a walk (08 R185). -/
def Descriptor.marker (q : Descriptor) (n : Nat) : BitVec 2 :=
  if n + 1 = q.elements then 2 else if n % q.count 0 + 1 = q.count 0 then 1 else 0

/-- The tokens of an element, the marker on the last. -/
def elementToks (ch : BitVec 5) (mk : BitVec 2) : List W32 → List Token
  | [] => []
  | [w] => [dataTok ch w mk]
  | w :: ws => dataTok ch w :: elementToks ch mk ws

/-- The next element of a read stream. -/
def State.portRead (s : State) (d : Nat) (q : Descriptor) : State :=
  let r := (s.dist d).port.stream
  if (s.outOf (portElem d)).any fun p => p.2.channel == r.chan then s
  else if r.ended then s.endPortRun d none
  else
    match s.engRead d (.stream d) q.cap (q.addr r.pos).toNat q.size with
    | (s1, .wait) => s1
    | (s1, .broken) => s1
    | (s1, .denied) => (s1.portEmit d (errTok r.chan codeDenied.toNat)).endPortRun d (some codeDenied)
    | (s1, .done bs) =>
      let s2 := s1.modPortStream d fun r => { r with pos := r.pos + 1, ended := r.pos + 1 == q.elements }
      let s3 := (elementToks r.chan (q.marker r.pos) (readWords bs)).foldl (fun s t => s.portEmit d t) s2
      if (s3.dist d).port.stream.ended ∧ !((s3.outOf (portElem d)).any fun p => p.2.channel == r.chan) then
        s3.endPortRun d none
      else s3

/-- The oldest data token delivered to the PORT on a channel that no page request is using; none at V0 (01 R29). -/
def State.portInput (s : State) (d ch : Nat) : Option (Nat × Held) :=
  match s.deliveredAt (portElem d) ch Token.isData with
  | none => none
  | some (l, h) => if !s.accepts d || (tget (32 * l + ch) (s.dist d).port.partials).isSome = true then none else some (l, h)

/-- Writes of a stream command stand in the side log. -/
def State.runLogged (s : State) (d n : Nat) : Bool :=
  (s.dist d).port.sideLog.any fun x => x.acc.issuer == .stream d && x.acc.op == n

/-- A write command that has accepted its last token finishes, or, while writes of it stand in the side log, makes way for
the next command (08 R170, R187). -/
def State.closeRun (s : State) (d : Nat) : State :=
  match (s.dist d).port.stream.owner with
  | some k =>
    if s.runLogged d (runNo k) then
      s.modDist d fun x => { x with port := { x.port with stream := {}, closing := x.port.closing ++ [k] } }
    else s.endPortRun d none
  | none => s.endPortRun d none

/-- Commands that have made way finish once their writes are replayed; `n` of those before have not. -/
def finishRuns (d : Nat) : List (Nat × BitVec 32 × BitVec 32) → Nat → State → State
  | [], _, s => s
  | k :: rest, n, s =>
    if s.runLogged d (runNo k) then finishRuns d rest (n + 1) s
    else finishRuns d rest n ((s.modDist d fun x => { x with port := { x.port with
        closing := x.port.closing.eraseIdx n, score := x.port.score.eraseIdx n } }).reply k.1 { counter := .cpc })

/-- Bytes of a write stream that may be written now: a whole granule, and at the end of the walk what is left (05 R109). -/
def StreamRun.due (r : StreamRun) (q : Descriptor) : Bool :=
  !r.bytes.isEmpty && (decide ((q.run r.put 16).length ≤ r.bytes.length) || r.ended)

/-- Writes what a write stream holds, as far as it goes without waiting. -/
def portFlush (d : Nat) (q : Descriptor) : Nat → State → State
  | 0, s => s
  | fuel + 1, s =>
    let r := (s.dist d).port.stream
    if !r.due q then s
    else
      let run := q.run r.put r.bytes.length
      let n := run.length
      match s.engWrite d (.stream d) q.cap r.chan run (r.bytes.take n) with
      | (s1, .wait) => s1
      | (s1, .broken) => s1
      | (s1, .denied) => s1.endPortRun d (some codeDenied)
      | (s1, .done _) => portFlush d q fuel (s1.modPortStream d fun r => { r with bytes := r.bytes.drop n, put := r.put + n })

/-- A write stream writes what it may, and closes at its end. -/
def State.portSettle (s : State) (d : Nat) (q : Descriptor) : State :=
  let s1 := portFlush d q (s.dist d).port.stream.bytes.length s
  let r := (s1.dist d).port.stream
  if r.ended ∧ r.bytes.isEmpty = true then s1.closeRun d else s1

/-- The next token of a write stream, or the writes that are due. The walk ends with its last element, with end-of-tensor,
and with an error token; an element that end-of-tensor cuts short is written as far as its tokens came (08 R185; DEDUCED,
log 59). -/
def State.portWrite (s : State) (d : Nat) (q : Descriptor) : State :=
  let r := (s.dist d).port.stream
  if r.ended || r.due q then s.portSettle d q
  else match s.portInput d r.chan.toNat with
    | none => s
    | some (l, h) =>
      let s1 := s.popAt (portElem d) l r.chan.toNat
      if h.tok.marker = 3 then (s1.modPortStream d fun r => { r with ended := true, buf := [] }).portSettle d q
      else
        let ws := r.buf ++ [h.tok.data]
        let endT := h.tok.marker == 2
        if endT || ws.length == elementTokens q.size then
          (s1.modPortStream d fun r =>
            { r with buf := [], bytes := r.bytes ++ (bytesOfWords ws).take q.size, pos := r.pos + 1
                     ended := endT || r.pos + 1 == q.elements }).portSettle d q
        else s1.modPortStream d fun r => { r with buf := ws }

/-- PORT_STREAM_ELEMENT: a bound stream moves its next element between the object and its channel (08 R185; 17 R335). -/
def execPortStreamElement (d : Nat) (s : State) : Out :=
  .next (
    if s.isSealed (portElem d) then s
    else
      let s0 := finishRuns d (s.dist d).port.closing 0 s
      match (s0.dist d).port.stream.desc with
      | none => s0
      | some q => if q.dir = 0 then s0.portRead d q else s0.portWrite d q)

end Sys2Proof.Machine
end

