-- ==== Sys2Proof/Machine/Tile.lean ====
section
/-! DEFINITION. Memory tiles: requests, their checks and operations, full/empty waiters, streaming ports
(04 R81-R98; 08 R174, R186, R187). -/

namespace Sys2Proof.Machine

/-- Tile error codes (04 Table K-30). -/
abbrev errBadOp : BitVec 8 := 1
abbrev errRange : BitVec 8 := 2
abbrev errReserved : BitVec 8 := 3
abbrev errFeTimeout : BitVec 8 := 4
abbrev errBadOperand : BitVec 8 := 5

/-- Bytes of a WIDTH code (04 Table K-28). -/
def widthBytes (w : BitVec 2) : Nat :=
  match w.toNat with
  | 0 => 2
  | 1 => 4
  | _ => 16

/-- Operand tokens that follow a request (04 R86). -/
def operandCount (op : BitVec 4) (width : BitVec 2) : Nat :=
  match op.toNat with
  | 0 => 0
  | 6 => 0
  | 1 => if width = 2 then 4 else 1
  | 11 => 2
  | _ => 1

/-- WIDTH and FEQ that an operation allows (04 Table K-29). -/
def opAllows (op : BitVec 4) (width feq : BitVec 2) : Bool :=
  match op.toNat with
  | 0 => width != 3 && feq != 3
  | 1 => width != 3 && (feq == 0 || feq == 2)
  | 7 => (width == 0 || width == 1) && (feq == 0 || feq == 1)
  | 12 => false
  | 13 => false
  | 14 => false
  | 15 => false
  | _ => width == 1 && (feq == 0 || feq == 1)

/-- The window of a port: the whole tile for what enters at V (04 R98), else WINLO to WINHI. -/
def State.window (s : State) (e p : Nat) : Nat × Nat :=
  if p = 4 then (0, 24575) else (s.portField e p 9 0, s.portField e p 10 0x5FFF)

/-- The code of the check of 04 Table K-30 that a request fails; 0 for none. The table gives no order among the codes where
several checks fail: what came amiss in the tokens goes first, then BAD_OP, RANGE, RESERVED (DESIGN CHOICE, log 133). -/
def State.tileCheck (s : State) (e p : Nat) (r : TileReq) : BitVec 8 :=
  let (lo, hi) := s.window e p
  if r.error ≠ 0 then r.error
  else if !opAllows r.op r.width r.feq then errBadOp
  else if r.offset.toNat % widthBytes r.width ≠ 0 ∨ tileSize ≤ r.offset.toNat ∨ r.gran < lo ∨ hi < r.gran then errRange
  else if s.tileCfgBase e ≤ r.gran then errReserved
  else 0

/-- Whether an operation always replies, or was asked to (04 R87). -/
def TileReq.replies (r : TileReq) : Bool :=
  r.rep || r.op == 0 || r.op == 6 || r.op == 10 || r.op == 11

/-! ### Replies -/

/-- A tile emits tokens from a port: on the link that it faces, or, from V, on the link that RTV names; without one they
are discarded with the fault ROUTE (04 R83). -/
def State.tileEmit (s : State) (e p : Nat) (ch : BitVec 5) (ts : List Token) : State :=
  if p < 4 then s.emit e (ts.map fun t => (p, t))
  else
    let c := ch.toNat
    let r := s.chanField e c 1 (32 + c / 4) 0 / 16 ^ (c % 4) % 16
    if 1 ≤ r ∧ r ≤ 4 then s.emit e (ts.map fun t => (r - 1, t)) else s.fabricFault codeRoute e c

/-- The reply tokens for which a request's issuer has room (15 R295). -/
def TileReq.places (r : TileReq) : Nat :=
  if r.op = 0 then (if r.width = 2 then 4 else 1)
  else if r.op = 6 ∨ r.op = 10 ∨ r.op = 11 then 1
  else if r.rep then 1 else 0

/-- Reply tokens: the words in order, or one error token (04 R87, R88), which frees all the room of its request. -/
def TileReq.replyToks (r : TileReq) (ch : BitVec 5) (tag : Option (Nat × Nat)) (ws : List W32) : List Token :=
  if r.error ≠ 0 then
    [{ errTok ch r.error.toNat with kind := 2, tag := tag, frees := r.places }]
  else ws.map fun w => { kind := 2, channel := ch, data := w, tag := tag }

/-- The reply to a request leaves the port: over the fabric, or straight to the district's SEQ (04 R87; 08 R174). A
request of a pipeline element is then answered (05 R118). -/
def State.sendReply (s : State) (e p : Nat) (r : TileReq) (ws : List W32) : State :=
  match r.origin with
  | .seq op => s.reply (elemDist e) { op := some op, words := ws, esub := r.error }
  | .port tag =>
    let ch := BitVec.ofNat 5 (s.portField e p 3 0)
    (s.tileEmit e p ch (r.replyToks ch tag ws)).answered tag
  | .remote rch tag => (s.tileEmit e p rch (r.replyToks rch tag ws)).answered tag

/-- Sends the replies at the front that are known, in arrival order (04 R89). -/
def flushGo (e p : Nat) : List (TileReq × Option (List W32)) → State → State
  | [], s => s.modPort e p fun t => { t with replies := [] }
  | (r, none) :: rest, s => s.modPort e p fun t => { t with replies := (r, none) :: rest }
  | (r, some ws) :: rest, s => flushGo e p rest (s.sendReply e p r ws)

/-- Sends what replies of a port may leave. -/
def State.flushReplies (s : State) (e p : Nat) : State := flushGo e p (s.tport e p).replies s

/-- A request that does not reply has been applied: its issuer's count falls, or its quiet line may rise (08 R177; 09
R230). -/
def State.posted (s : State) (e : Nat) (r : TileReq) : State :=
  match r.origin with
  | .seq op => s.reply (elemDist e) { op := some op }
  | .port tag => s.answered tag
  | .remote _ tag => match tag with
    | none => s
    | some (c, op) => if c < 1024 then s.reply c { op := some op } else s.answered tag

/-- The mark of a request's issuer. -/
def TileReq.tag (r : TileReq) : Option (Nat × Nat) :=
  match r.origin with
  | .seq _ => none
  | .port tag => tag
  | .remote _ tag => tag

/-- A request is finished, with its reply words or its error code (04 R87, R88); one that turns out to have no reply leaves
the order in which replies are sent. It has then taken its place among its issuer's accesses (05 R108). -/
def State.resolve (s : State) (e p : Nat) (r : TileReq) (ws : List W32) : State :=
  let s := s.requestPlaced r.tag
  let l := (s.tport e p).replies
  if r.replies || r.error != 0 then
    let l' := if l.any fun q => q.1.id == r.id then l.map fun q => if q.1.id = r.id then (r, some ws) else q
      else l ++ [(r, some ws)]
    (s.modPort e p fun t => { t with replies := l' }).flushReplies e p
  else
    ((s.modPort e p fun t => { t with replies := l.filter fun q => q.1.id != r.id }).posted e r).flushReplies e p

/-! ### Waiting (R92-R95) -/

/-- Waiters of a port, its stream among them (04 R94, R95). -/
def State.waitCount (s : State) (e p : Nat) : Nat := (s.waits e p).length

/-- Requests in a comparator that no earlier request of the port holds back: at a random port those whose granule no
earlier one touches, at an ordered-update port the first alone (04 R89). `seen` are granules of earlier requests. -/
def eligibleGo : List Nat → List TileReq → List TileReq
  | _, [] => []
  | seen, r :: rest => if seen.contains r.gran then eligibleGo seen rest else r :: eligibleGo (r.gran :: seen) rest

/-- The requests of a port that may be granted: not behind a waiting request of the port to the granule. A granule at which
the port's own stream holds keeps no request waiting (DESIGN CHOICE, log 148: 04 R93 speaks of requests that wait). -/
def State.eligible (s : State) (e p : Nat) : List TileReq :=
  let t := s.tport e p
  if p ≠ 4 ∧ s.portField e p 0 0 = 3 then (if t.waiters.isEmpty then t.comparator.take 1 else [])
  else eligibleGo (t.waiters.map (·.gran)) t.comparator

/-- Whether a port takes a further request: an entry of its comparator is free, and no request stands there for want of a
fifth waiter (04 R89, R94). -/
def State.portRoom (s : State) (e p : Nat) : Bool :=
  decide ((s.tport e p).comparator.length < 8) &&
    !(decide (4 ≤ s.waitCount e p) && (s.eligible e p).any fun r => r.mustWait (s.granFull e r.gran))

/-! ### Accepting requests (R86, R88, R98) -/

/-- A request that will be answered, or may be: one that waits for a full/empty bit may run out of time (04 R87, R94). Its
place among the replies is that of its arrival (04 R89; DEDUCED, log 134). -/
def TileReq.mayReply (r : TileReq) (feto : Nat) : Bool := r.replies || (r.feq != 0 && feto != 0)

/-- FETO of a tile (04 Table K-27 field 61). -/
def State.feto (s : State) (e : Nat) : Nat := s.planeField (elemDist e) (elemIdx e) 0 61 1000

/-- A port may accept a whole request: it has room, and no earlier request of the same pipeline element to the granule is
still on its way, or stands at another port of the tile ungranted or waiting; those at the port itself go first anyway (04
R89, R93, R98; 05 R108). -/
def State.mayAccept (s : State) (e p : Nat) (tag : Option (Nat × Nat)) (w : W32) : Bool :=
  let t := s.tport e p
  s.portRoom e p && !s.requestBehind tag (some (e, nbits w.toNat 18 0 / 16)) ((t.comparator ++ t.waiters).map (·.tag))

/-- A port accepts a request, or answers its error. -/
def State.acceptReq (s : State) (e p : Nat) (r : TileReq) : State :=
  let n := (s.tile e).nextId
  let r := { r with id := n, error := s.tileCheck e p r }
  let s1 := s.modTile e fun t => { t with nextId := n + 1 }
  if r.error ≠ 0 then s1.resolve e p r []
  else s1.modPort e p fun t =>
    { t with comparator := t.comparator ++ [r]
             replies := if r.mayReply (s.feto e) then t.replies ++ [(r, none)] else t.replies }

/-- The request that a port has received on a channel. -/
def mkReq (p ch : Nat) (a : Partial) (w : W32) (err : BitVec 8) : TileReq :=
  let v := w.toNat
  let route := (a.route.getD 0).toNat
  { op := BitVec.ofNat 4 (nbits v 31 28), feq := BitVec.ofNat 2 (nbits v 27 26), width := BitVec.ofNat 2 (nbits v 25 24)
    rep := v.testBit 23, offset := BitVec.ofNat 19 v, operands := a.operands, channel := BitVec.ofNat 5 ch
    origin := if p = 4 then .remote (BitVec.ofNat 5 (nbits route 27 23)) a.tag else .port a.tag
    error := if err ≠ 0 then err else if nbits v 22 19 ≠ 0 ∨ nbits route 22 18 ≠ 0 then errBadOp else 0 }

/-- Sets or removes the part of a request that a port has received under a key. -/
def State.setPartial (s : State) (e p key : Nat) (a : Option Partial) : State :=
  s.modPort e p fun t => { t with partials := match a with
    | none => terase key t.partials
    | some a => tset key a t.partials }

/-- A port takes the next token of a request from a channel of a link: it is accepted with its last operand, where there is
room. A token that is no data token, where an operand is due, ends the request with BAD_OPERAND and is itself left at the
head (DEDUCED, log 53). A route token that a token of another kind than a request follows is dropped without an answer, and
a second route token after it is taken as a request whose OP no table assigns (DESIGN CHOICE, log 135). -/
def State.takePart (s : State) (e p key link ch : Nat) (a : Partial) (t : Token) : State :=
  match a.request with
  | none =>
    if t.kind ≠ 1 then s.setPartial e p key none
    else
      let a := { a with request := some t.data, tag := t.tag }
      if operandCount (t.data.extractLsb' 28 4) (t.data.extractLsb' 24 2) = 0 then
        (if s.mayAccept e p a.tag t.data then
          ((s.popAt e link ch).setPartial e p key none).acceptReq e p (mkReq p ch a t.data 0) else s)
      else (s.popAt e link ch).setPartial e p key (some a)
  | some w =>
    if t.kind ≠ 0 then (s.setPartial e p key none).acceptReq e p (mkReq p ch a w errBadOperand)
    else
      let a := { a with operands := a.operands ++ [t.data] }
      if operandCount (w.extractLsb' 28 4) (w.extractLsb' 24 2) ≤ a.operands.length then
        (if s.mayAccept e p a.tag w then
          ((s.popAt e link ch).setPartial e p key none).acceptReq e p (mkReq p ch a w 0) else s)
      else (s.popAt e link ch).setPartial e p key (some a)

/-- TILE_REQUEST: the next token of a request at the head of a channel, or, for link 4, the next request that the
district's SEQ has sent straight to the tile (04 R86-R89, R98; 08 R174). Requests at a streaming port are served as at a
random port (DEDUCED, log 54). RECONFIG switches its channel wherever it stands, also where an operand is due (DEDUCED, log
163). -/
def execTileRequest (e link ch : Nat) (s : State) : Out :=
  .next (
    if elemKind e ≠ .mt ∨ s.isSealed e = true ∨ s.accepts (elemDist e) = false then s
    else if link = 4 then
      match (s.tile e).seqQ with
      | [] => s
      | r :: rest => if s.portRoom e 4 then (s.modTile e fun t => { t with seqQ := rest }).acceptReq e 4 r else s
    else match s.headAt e link ch with
      | none => s
      | some h =>
        let t := h.tok
        let key := 32 * link + ch
        if s.routeOf e link ch ≠ 5 ∨ t.code = ctlReconfig then s
        else match s.partialAt e 4 key with
          | some a => s.takePart e 4 key link ch a t
          | none => match s.partialAt e link ch with
            | some a => s.takePart e link ch link ch a t
            | none =>
              if t.kind ≠ 1 then s
              else if nbits t.data.toNat 31 28 = 15 then
                (s.popAt e link ch).setPartial e 4 key (some { route := some t.data })
              else if s.portField e link 0 0 ≠ 0 then s.takePart e link ch link ch {} t
              else s)

/-! ### Applying requests (R87, R90, R96) -/

/-- FADD: the location plus the operand, rounded once (04 Table K-29). -/
def tileFadd (rm : RM) (half : Bool) (w v : Nat) : Nat :=
  let f := if half then bf16 else fp32
  (f.rnd rm false (Val.add rm (f.val w) (f.val v))).1

/-- The new contents that an update gives a location; none where it writes nothing (04 Table K-29). -/
def tileUpdate (rm : RM) (r : TileReq) (w : W32) : Option W32 :=
  let v := nth 0 r.operands
  match r.op.toNat with
  | 2 => some (w + v)
  | 3 => some (if v.slt w then v else w)
  | 4 => some (if w.slt v then v else w)
  | 5 => some (amax32 w v)
  | 6 => some 0
  | 7 => some (BitVec.ofNat 32 (tileFadd rm (r.width = 0) w.toNat (v.toNat % 2 ^ (8 * widthBytes r.width))))
  | 8 => some (w &&& v)
  | 9 => some (w ||| v)
  | 10 => some v
  | 11 => if w = v then some (nth 1 r.operands) else none
  | _ => none

/-- The effect of a request on its district, and its reply words (04 R87). -/
def tileApply (rm : RM) (r : TileReq) (ord : Nat) (x : District) : District × List W32 :=
  let off := r.offset.toNat
  let n := widthBytes r.width
  let old := x.tileRead ord off n
  let ws := wordsOf ((n + 3) / 4) old
  if r.op = 0 then (if r.feq = 2 then x.setFull ord r.gran false else x, ws)
  else if r.op = 1 then (x.tileWrite ord off ((bytesOfWords r.operands).take n), [0])
  else match tileUpdate rm r (nth 0 ws) with
    | some v => (x.tileWrite ord off ((bytesOfWords [v]).take n), ws)
    | none => (x, ws)

/-- Applies a request at a port: one indivisible act on its granule; a store is counted by the monitors that watch the
port, where it came on a channel (04 R90; 10 R248; DEDUCED, log 55: a SEQ's request to its own tile has none). -/
def State.applyReq (s : State) (e p : Nat) (r : TileReq) : State :=
  let rm := RM.ofBits (BitVec.ofNat 2 (s.planeField (elemDist e) (elemIdx e) 0 60 0))
  let (x, ws) := tileApply rm r (tileOrd (elemIdx e)) (s.dist (elemDist e))
  let s1 := s.setDist (elemDist e) x
  let s2 := match r.origin with
    | .seq _ => s1
    | _ => if r.op = 1 then
        s1.counted (elemDist e) (elemIdx e) p r.channel.toNat r.offset.toNat
          ((bytesOfWords r.operands).take (widthBytes r.width))
      else s1
  s2.resolve e p r ws

/-- The request of a port that a bank may grant next, if any (04 R89, R90, R93). -/
def State.candidate (s : State) (e bank p : Nat) : Option TileReq :=
  (s.eligible e p).find? fun r =>
    r.gran % 8 == bank && !s.waking e r.gran &&
      (!r.mustWait (s.granFull e r.gran) || decide (s.waitCount e p < 4))

/-- The channel of every token that a port emits locally: that of the run, or CHAN. -/
def State.streamChan (s : State) (e p : Nat) : BitVec 5 :=
  let r := (s.tport e p).stream
  if r.desc.isSome then r.chan else BitVec.ofNat 5 (s.portField e p 3 0)

/-- Tokens of a port's stream that have not left the tile. -/
def State.pendingOut (s : State) (e p : Nat) : Nat :=
  let ch := s.streamChan e p
  let c := ch.toNat
  let link := if p < 4 then p else s.chanField e c 1 (32 + c / 4) 0 / 16 ^ (c % 4) % 16 - 1
  ((s.outOf e).filter fun q => q.1 == link && q.2.channel == ch).length

/-- The granule that a port's stream would access now: read, or, of a write stream, write (04 R84, R85). -/
def State.streamWants (s : State) (e p : Nat) : Option Nat :=
  let r := (s.tport e p).stream
  let may (g : Nat) (full : Bool) : Bool := !s.waking e g && ((s.pattern e p).fe == 0 || s.granFull e g == full)
  if r.since.isSome then none
  else if s.isWriteStream e p then (if r.whole then (s.streamGran e p).filter fun g =>
    !s.waking e g && !((s.pattern e p).fe == 2 && s.granFull e g) else none)
  else if r.active && !r.ended && decide (s.pendingOut e p ≤ 28) then (s.streamGran e p).filter fun g => may g true
  else none

/-- The port that a bank grants its next access: round-robin over N, E, S, W and V, a port's request and its stream's access
alike (04 R90). -/
def State.turn (s : State) (e bank : Nat) : Option Nat :=
  let last := vget (s.tile e).grant bank
  ([1, 2, 3, 4, 5].map fun k => (last + k) % 5).find? fun p =>
    (s.candidate e bank p).isSome || (s.streamWants e p).any fun g => g % 8 == bank

/-- A bank has granted a port an access. -/
def State.granted (s : State) (e bank p : Nat) : State :=
  s.modTile e fun t => { t with grant := vset t.grant bank p }

/-- REQUEST_APPLY: a bank grants its next request; one that must wait leaves the comparator and becomes a waiter instead (04
R90, R93). Where the turn is a stream's, its own step takes it. -/
def execRequestApply (e bank : Nat) (s : State) : Out :=
  .next (
    if elemKind e ≠ .mt ∨ s.isSealed e = true ∨ s.accepts (elemDist e) = false ∨ 8 ≤ bank then s
    else
      match (s.turn e bank).bind fun p => (s.candidate e bank p).map fun r => (p, r) with
      | none => s
      | some (p, r) =>
        let s1 := s.modPort e p fun t => { t with comparator := t.comparator.filter fun q => q.id != r.id }
        if r.mustWait (s.granFull e r.gran) then
          (s1.modPort e p fun t => { t with waiters := t.waiters ++ [{ r with since := s.timebase }] }).tally
            (elemDist e) evWaiters 1
        else (s1.granted e bank p).applyReq e p r)

/-! ### Streams (R84, R85, R95; 08 R186, R187) -/

/-- Changes the stream of a port. -/
def State.modStream (s : State) (e p : Nat) (f : StreamRun → StreamRun) : State :=
  s.modPort e p fun t => { t with stream := f t.stream }

/-- A run ends: a stream command completes and leaves the scoreboard (08 R170, R187). -/
def State.endRun (s : State) (e p : Nat) : State :=
  let owner := (s.tport e p).stream.owner
  let s1 := s.modStream e p fun _ => {}
  match owner with
  | none => s1
  | some (c, _, _) => (s1.setScore e p ((s1.scoreOf e p).drop 1)).reply c { counter := .cpc }

/-- The run ends if its last token has left. -/
def State.settleRun (s : State) (e p : Nat) : State :=
  if (s.tport e p).stream.ended && s.pendingOut e p == 0 then s.endRun e p else s

/-- The four tokens of a granule of a read stream, with their markers (04 R84). -/
def granToks (q : Pattern) (pos : Nat) (ch : BitVec 5) (ws : List W32) : List Token :=
  let mk : BitVec 2 := if pos + 1 = q.steps then 2 else if pos % (q.cnt0 + 1) = q.cnt0 then 1 else 0
  [dataTok ch (nth 0 ws), dataTok ch (nth 1 ws), dataTok ch (nth 2 ws), dataTok ch (nth 3 ws) mk]

/-- A read stream reads a granule and emits it; with FEMODE 2 the granule becomes empty (04 R84, R92). -/
def State.streamRead (s : State) (e p g : Nat) : State :=
  let q := s.pattern e p
  let ord := tileOrd (elemIdx e)
  let pos := (s.tport e p).stream.pos
  let ws := wordsOf 4 ((s.dist (elemDist e)).tileRead ord (16 * g) 16)
  let s1 := if q.fe = 2 then s.modDist (elemDist e) fun x => x.setFull ord g false else s
  let ch := s.streamChan e p
  let s2 := s1.modStream e p fun r => { r with pos := pos + 1, since := none, ended := pos + 1 == q.steps }
  (s2.tileEmit e p ch (granToks q pos ch ws)).settleRun e p

/-- A read stream ends with an error token (04 R84, R95). -/
def State.streamFail (s : State) (e p : Nat) (code : BitVec 8) : State :=
  let ch := s.streamChan e p
  ((s.modStream e p fun r => { r with since := none, ended := true }).tileEmit e p ch [errTok ch code.toNat]).settleRun e p

/-- The stream of a port begins to wait for its granule's full/empty bit, where a waiter's place is free (04 R95). Where the
port has four waiters the stream stands still, and its hold and FETO begin when a place is free (DESIGN CHOICE, log 146). -/
def State.streamHold (s : State) (e p : Nat) : State :=
  if s.waitCount e p < 4 then
    (s.modStream e p fun r => { r with since := some s.timebase }).tally (elemDist e) evWaiters 1
  else s

/-- MT_READ_STREAM: the next granule of a read stream, while fewer than 8 granules wait to be taken (04 R84). -/
def execMtReadStream (e p : Nat) (s : State) : Out :=
  let r := (s.tport e p).stream
  .next (
    if elemKind e ≠ .mt ∨ s.isSealed e = true ∨ s.accepts (elemDist e) = false ∨ r.active = false ∨
        s.isWriteStream e p = true then s
    else if r.ended then s.settleRun e p
    else if r.since.isSome ∨ 28 < s.pendingOut e p then s
    else match s.streamGran e p with
      | none => s.streamFail e p errRange
      | some g =>
        if (s.pattern e p).fe ≠ 0 ∧ s.granFull e g = false then s.streamHold e p
        else if s.turn e (g % 8) ≠ some p ∨ s.waking e g = true then s
        else (s.granted e (g % 8) p).streamRead e p g)

/-- A write stream goes on to the next granule, or restarts its pattern; a bound run ends there (04 R85; 08 R187). -/
def State.streamNext (s : State) (e p : Nat) : State :=
  let r := (s.tport e p).stream
  let restart := r.endT || r.pos + 1 == (s.pattern e p).steps
  if restart && r.owner.isSome then s.endRun e p
  else s.modStream e p fun r =>
    { r with pos := if restart then 0 else r.pos + 1, buf := [], whole := false, endT := false, since := none }

/-- A write stream discards the tokens of a granule and says so (04 R85, R95). -/
def State.streamDrop (s : State) (e p : Nat) (code : BitVec 8) : State :=
  let ch := s.streamChan e p
  (s.tileEmit e p ch [errTok ch code.toNat]).streamNext e p

/-- A write stream writes its granule: the words received; the others keep their contents (04 R85, R91; 10 R248). -/
def State.streamWrite (s : State) (e p g : Nat) : State :=
  let bs := bytesOfWords (s.tport e p).stream.buf
  let s1 := s.modDist (elemDist e) fun x => x.tileWrite (tileOrd (elemIdx e)) (16 * g) bs
  (s1.counted (elemDist e) (elemIdx e) p (s.streamChan e p).toNat (16 * g) bs).streamNext e p

/-- A complete granule of a write stream: it is written, waits until its granule is empty, or is discarded. A pattern of
DIR 1 with FE keep waits for nothing (DESIGN CHOICE, log 147: 08 R182 gives keep for reads). -/
def State.streamPut (s : State) (e p : Nat) : State :=
  match s.streamGran e p with
  | none => s.streamDrop e p errRange
  | some g =>
    if (s.pattern e p).fe = 2 ∧ s.granFull e g = true then s.streamHold e p
    else if s.turn e (g % 8) ≠ some p ∨ s.waking e g = true then s
    else (s.granted e (g % 8) p).streamWrite e p g

/-- The oldest data token that has arrived for a write stream on the link that its port faces, on any channel that is not
in the middle of a request. -/
def State.streamInput (s : State) (e p : Nat) : Option (Nat × Token) :=
  ((List.range 32).filterMap fun c =>
    if s.routeOf e p c = 5 ∧ (s.partialAt e p c).isNone = true ∧ (s.partialAt e 4 (32 * p + c)).isNone = true then
      ((s.headAt e p c).filter fun h => h.tok.kind == 0).map fun h => (c, h)
    else none).foldl (fun acc q => match acc with
      | none => some (q.2.arr, q.1, q.2.tok)
      | some r => if q.2.arr < r.1 then some (q.2.arr, q.1, q.2.tok) else some r) none |>.map (·.2)

/-- A write stream takes a token (04 R85). -/
def State.streamTake (s : State) (e p : Nat) (t : Token) : State :=
  if t.marker = 3 then
    (if (s.tport e p).stream.owner.isSome then s.endRun e p
     else s.modStream e p fun r => { r with pos := 0, buf := [], whole := false, endT := false })
  else
    let s1 := s.modStream e p fun r =>
      { r with buf := r.buf ++ [t.data], whole := r.buf.length == 3 || t.marker != 0, endT := t.marker == 2 }
    if (s1.tport e p).stream.whole then s1.streamPut e p else s1

/-- MT_WRITE_STREAM: a write stream takes its next data token, and writes the granule that it completes; while a complete
granule is not written the port takes none (04 R85, R95). -/
def execMtWriteStream (e p : Nat) (s : State) : Out :=
  let r := (s.tport e p).stream
  .next (
    if elemKind e ≠ .mt ∨ s.isSealed e = true ∨ s.accepts (elemDist e) = false ∨ 4 ≤ p ∨ s.isWriteStream e p = false ∨
        r.since.isSome = true then s
    else if r.whole then s.streamPut e p
    else match s.streamInput e p with
      | none => s
      | some (c, t) => (s.popAt e p c).streamTake e p t)

/-- Starts the stream command at the head of a scoreboard of a tile's port (08 R186, R187). A configured read run under way
ends first, and words that a configured write stream has taken for an unfinished granule are dropped (DESIGN CHOICE, log
149). -/
def State.startTileCmd (s : State) (e p : Nat) : State :=
  match s.scoreOf e p with
  | [] => s
  | c :: rest =>
    let r := (s.tport e p).stream
    if r.active ∨ r.owner.isSome = true then s
    else if c.bar then s.setScore e p rest
    else s.modStream e p fun _ =>
      { active := true, desc := some c.desc, chan := c.chan, owner := some (c.core, c.pc, c.ecsn) }

/-- STREAM_COMMAND_START: the next bind or barrier of a port's scoreboard (5 is a PORT) starts once the command before it
has emitted, or accepted, its last token; a barrier, and what stands behind it, once every command before it is finished (08
R187). A tile's port takes no token while a granule of its own waits to be written (04 R85, R95), so that there the two
come together. -/
def execStreamCommandStart (e p : Nat) (s : State) : Out :=
  let d := elemDist e
  .next (
    if s.isSealed e then s
    else if elemKind e = .mt ∧ p < 5 then s.startTileCmd e p
    else if elemKind e = .port ∧ p = 5 then
      let n := (s.dist d).port.closing.length
      match (s.scoreOf e 5).drop n with
      | [] => s
      | c :: rest =>
        if (s.dist d).port.stream.active then s
        else if c.bar then (if n = 0 then s.setScore e 5 rest else s)
        else s.modDist d fun x => { x with port := { x.port with stream :=
          { active := true, desc := some c.desc, chan := c.chan, owner := some (c.core, c.pc, c.ecsn) } } }
    else s)

/-! ### Serving waiters (R93-R95) -/

/-- Serves one waiter. -/
def State.serve (s : State) (e : Nat) (w : Wait) : State :=
  match w.req with
  | some r => (s.modPort e w.port fun t => { t with waiters := t.waiters.filter fun q => q.id != r.id }).applyReq e w.port r
  | none => if w.cls = 2 then s.streamWrite e w.port w.gran else s.streamRead e w.port w.gran

/-- WAITER_SERVE: of the waiters whose granule has the bit they wait for, the next: of one granule every .keep waiter,
then the single oldest .take, which empties it; then the single oldest .fill (04 R93). -/
def execWaiterServe (e : Nat) (s : State) : Out :=
  let all := s.allWaits e
  .next (
    if elemKind e ≠ .mt ∨ s.isSealed e = true ∨ s.accepts (elemDist e) = false then s
    else match all.find? fun w => s.servable e w with
      | none => s
      | some w =>
        let here := all.filter fun v => v.gran == w.gran && s.servable e v
        s.serve e ((here.find? fun v => v.cls == 0).getD (here.headD w)))

/-- FE_TIMEOUT: the oldest waiter of a port that is still unserved FETO us after it began to wait is removed and answered
FE_TIMEOUT; the step stands at that instant or later (04 R94, R95). -/
def execFeTimeout (e p : Nat) (s : State) : Out :=
  let feto := s.feto e
  .next (
    if elemKind e ≠ .mt ∨ s.isSealed e = true ∨ s.accepts (elemDist e) = false ∨ feto = 0 then s
    else match (s.waits e p).find? fun w => !s.servable e w with
      | none => s
      | some w =>
        let since := match w.req with
          | some r => r.since
          | none => (s.tport e p).stream.since.getD 0
        let s1 := { s with timebase := max s.timebase (since + 1000 * feto) }
        match w.req with
        | some r =>
          (s1.modPort e p fun t => { t with waiters := t.waiters.filter fun q => q.id != r.id }).resolve e p
            { r with error := errFeTimeout } []
        | none => if w.cls = 2 then s1.streamDrop e p errFeTimeout else s1.streamFail e p errFeTimeout)

end Sys2Proof.Machine
end

