-- ==== Sys2Proof/Machine/Walk.lean ====
section
/-! DEFINITION. What the engines of the spine and the copy engine share: when they run, their input channels, how a
command ends, the walk of a descriptor granule by granule, result areas in tiles (05 R115; 08 R170, R182, R188, R190;
10 R233, R247; 20 R367). -/

namespace Sys2Proof.Machine

/-- An element acts: its region runs, and it is not sealed (01 R20, R29; 16 R320; 17 R342). -/
def State.acts (s : State) (e : Nat) : Bool :=
  !s.isSealed e && match s.regionAt (elemDist e) with
    | some r => r.fires
    | none => false

/-- The unit number of a spine element. -/
def elemUnit (e : Nat) : Nat := idxRow (elemIdx e)

/-- The channels that are an element's input channel of a field, each in its own plane: one, but for a plane switch under
way (10 R233; 01 R32). -/
def State.inputs (s : State) (e f reset : Nat) : List Nat :=
  (List.range 32).filter fun c => s.chanField e c 0 f reset == c

/-- The oldest data token delivered on an input channel: channel, link, token. -/
def State.inputHead (s : State) (e f reset : Nat) (p : Token → Bool) : Option (Nat × Nat × Held) :=
  ((s.inputs e f reset).filterMap fun c => (s.deliveredAt e c p).map fun (l, h) => (c, l, h)).foldl
    (fun acc q => match acc with
      | none => some q
      | some r => if q.2.2.arr < r.2.2.arr then some q else some r) none

/-- A field of an element in the plane of one of its input channels, the region plane where it has none. -/
def State.inField (s : State) (e inF inReset f reset : Nat) : Nat :=
  match s.inputs e inF inReset with
  | c :: _ => s.chanField e c 0 f reset
  | [] => s.planeField (elemDist e) (elemIdx e) 0 f reset

/-- An engine command completes, as finished or with a fault: its counter falls (08 R170, R188). -/
def State.endCmd (s : State) (k : EngCmd) (cls : OpClass) (unit : Nat) (fault : Option (BitVec 8) := none) : State :=
  s.reply k.core
    { counter := cls
      cause := fault.map fun f =>
        { cause := causeEngineFault, sub := f, unit := BitVec.ofNat 8 unit, epc := k.pc, eecsn := k.ecsn } }

/-- ENGINE_FAULT for a fault that no command raised: named by the event on the channel (08 R188; 01 R39). -/
def State.tokenFault (s : State) (e ch : Nat) (code : BitVec 8) : State :=
  let d := elemDist e
  match s.regionAt d with
  | none => s
  | some r =>
    let (_, pc, n) := r.eventName ((s.dist d).slotOf (elemIdx e) ch)
    s.post d { cause := causeEngineFault, sub := code, unit := BitVec.ofNat 8 (elemUnit e), epc := pc, eecsn := n }

/-! ### Result areas (04 R88, R91, R97; 10 R247) -/

/-- The place of n granules from a granule of a region tile: district, ordinal; none where they break a check of 04 R88. -/
def State.resultArea (s : State) (d tile gran n : Nat) : Option (Nat × Nat) :=
  match s.tileAddr d (tile * 2 ^ 19) with
  | none => none
  | some (dd, ord, _) => if s.tileFits dd ord (16 * gran) (16 * n) then some (dd, ord) else none

/-- Whether waiters of some granules are still to be served before a write that comes now (04 R93). -/
def State.areaWaking (s : State) (dd ord gran n : Nat) : Bool :=
  (List.range n).any fun i => s.waking (elemAt dd (tileIdx ord)) (gran + i)

/-- An engine write of whole granules, which sets them full (04 R91). -/
def State.areaWrite (s : State) (dd ord gran : Nat) (bs : List Byte) : State :=
  s.modDist dd fun x => x.tileWrite ord (16 * gran) bs

/-! ### Transfers of a walk (05 R109, R115) -/

/-- What comes of a transfer. -/
inductive WalkRes where
  | wait
  | fail (code : BitVec 8)
  | broken
  | done (bytes : List Byte)
  deriving DecidableEq, Repr, Inhabited

/-- An engine's transfer at an object's page. -/
def EngRes.walk : EngRes → WalkRes
  | .wait => .wait
  | .denied => .fail codeDenied
  | .broken => .broken
  | .done bs => .done bs

/-- The tile granule of a byte of a walk: district, ordinal, granule; or the code with which the command faults where no
such granule can be accessed (DEDUCED, log 61: the codes of 04 Table K-30). -/
def State.walkGran (s : State) (d a : Nat) : Except (BitVec 8) (Nat × Nat × Nat) :=
  match s.tileAddr d a with
  | none => .error errRange
  | some (dd, ord, off) =>
    if tileSize ≤ off then .error errRange
    else if s.tileFits dd ord off 1 then .ok (dd, ord, off / 16)
    else .error errReserved

/-- Reads the transfer at byte n of a walk, all of it that lies in one granule; in tile space FE keep waits until the
granule is full, and take also empties it (10 R253; 04 R92). -/
def State.walkRead (s : State) (d : Nat) (i : Issuer) (q : Descriptor) (n : Nat) : State × WalkRes :=
  let run := q.run n 16
  let a := q.byteAt n
  if capObj q.cap = tileSpace then
    match s.walkGran d a with
    | .error c => (s, .fail c)
    | .ok (dd, ord, g) =>
      if (q.fe ≠ 0 ∧ (s.dist dd).isFull ord g = false) ∨ s.areaWaking dd ord g 1 = true then (s, .wait)
      else
        let bs := run.map fun a => mget (tileKey ord (a % 2 ^ 19)) (s.dist dd).tileMem
        (if q.fe = 2 then s.modDist dd fun x => x.setFull ord g false else s, .done bs)
  else
    let lo := run.foldl min a
    let (s1, r) := s.engRead d i q.cap lo (run.foldl max a + 1 - lo)
    (s1, match r with
      | .done bs => .done (run.map fun a => bs.getD (a - lo) 0)
      | r => r.walk)

/-- Bytes in hand make up the whole transfer at byte n of a walk: a granule is written in one act (05 R109). -/
def Descriptor.wholeRun (q : Descriptor) (n : Nat) (bs : List Byte) : Bool := decide ((q.run n 16).length ≤ bs.length)

/-- Writes bytes as the transfer at byte n of a walk; in tile space FE fill waits until the granule is empty, and the
granule becomes full; FE keep, which is given for reads, acts as none (DESIGN CHOICE, log 147). How many bytes it took. -/
def State.walkWrite (s : State) (d : Nat) (i : Issuer) (q : Descriptor) (n : Nat) (bs : List Byte) : State × WalkRes × Nat :=
  let run := q.run n bs.length
  let a := q.byteAt n
  if capObj q.cap = tileSpace then
    match s.walkGran d a with
    | .error c => (s, .fail c, 0)
    | .ok (dd, ord, g) =>
      if (q.fe = 2 ∧ (s.dist dd).isFull ord g = true) ∨ s.areaWaking dd ord g 1 = true then (s, .wait, 0)
      else
        (s.modDist dd fun x => (run.zip bs).foldl (fun x (a, b) => x.tileWrite ord (a % 2 ^ 19) [b]) x,
          .done [], run.length)
  else
    let (s1, r) := s.engWrite d i q.cap 0 run (bs.take run.length)
    (s1, r.walk, run.length)

end Sys2Proof.Machine
end

