-- ==== Sys2Proof/Machine/Ro.lean ====
section
/-! DEFINITION. Reorder elements (10 R242, R243, R253, R254). -/

namespace Sys2Proof.Machine

/-- The reorder element of an element number. -/
def State.ro (s : State) (e : Nat) : Ro := tgetD (elemUnit e) (s.dist (elemDist e)).ros

/-- Changes a reorder element. -/
def State.modRo (s : State) (e : Nat) (f : Ro → Ro) : State := s.modDist (elemDist e) fun x => x.modRo (elemUnit e) f

/-! ### Shapes (R242) -/

/-- N of a shape. -/
def RoShape.count (q : RoShape) : Nat := (q.cnt[0].toNat + 1) * (q.cnt[1].toNat + 1) * (q.cnt[2].toNat + 1)

/-- The entry that output step n emits. -/
def RoShape.idx (q : RoShape) (n : Nat) : Nat :=
  let c0 := n % (q.cnt[0].toNat + 1)
  let c1 := n / (q.cnt[0].toNat + 1) % (q.cnt[1].toNat + 1)
  let c2 := n / (q.cnt[0].toNat + 1) / (q.cnt[1].toNat + 1)
  (q.off.toNat + c0 * q.str[0].toNat + c1 * q.str[1].toNat + c2 * q.str[2].toNat) % 1024

/-- Whether a shape is valid: N fits, and idx visits each of 0 to N - 1 exactly once. -/
def RoShape.valid (q : RoShape) : Bool :=
  let n := q.count
  if (if q.dbl then 512 else 1024) < n then false
  else
    let l := (List.range n).map q.idx
    l.all (fun i => decide (i < n)) && (List.range n).all fun i => l.contains i

/-- The shape of a plane image (Table K-120). -/
def Image.roShape (im : Image) : RoShape :=
  let f (k r : Nat) : BitVec 10 := BitVec.ofNat 10 (im.field 0 k r)
  { off := f 3 0, cnt := #v[f 4 0, f 5 0, f 6 0], str := #v[f 7 1, f 8 0, f 9 0], dbl := im.field 0 10 0 == 1 }

/-- The shape that a SHAPE command names (Table K-127). -/
def shapeOf (w v : Word) : RoShape :=
  let f (lo : Nat) : BitVec 10 := v.extractLsb' lo 10
  { off := f 0, cnt := #v[f 10, f 20, f 30], str := #v[f 40, f 50, w.extractLsb' 4 10], dbl := w.getLsbD 14 }

/-- The plane slot of the input channel. -/
def State.roSlot (s : State) (e : Nat) : BitVec 2 :=
  match s.inputs e 0 0 with
  | c :: _ => (s.dist (elemDist e)).slotOf (elemIdx e) c
  | [] => s.planeAt (elemDist e)

/-- The shape in force for the next tensor: that of the latest SHAPE while its plane lasts, else the plane's (DEDUCED,
log 64). -/
def State.roShape (s : State) (e : Nat) : RoShape :=
  let slot := s.roSlot e
  let plane := ((s.dist (elemDist e)).image (elemIdx e) slot.toNat).roShape
  match (s.ro e).shape with
  | some (p, q) => if p = slot then q else plane
  | none => plane

/-! ### Input (R243) -/

/-- A tensor has received all that it will. -/
def RoTensor.closed (t : RoTensor) : Bool := t.err.isSome || decide (t.shape.count ≤ t.entries.length)

/-- A tensor with its next input token: end-of-tensor before its last entry gives error 1, an error token its DATA. The
error carries the PHASE of that token (DEDUCED, log 65). -/
def RoTensor.take (t : RoTensor) (h : Held) : RoTensor :=
  if h.tok.marker = 3 then { t with err := some (h.tok.data, h.tok.phase), ended := h }
  else if h.tok.marker = 2 ∧ t.entries.length + 1 < t.shape.count then { t with err := some (1, h.tok.phase), ended := h }
  else { t with entries := t.entries ++ [h.tok], times := t.times ++ [h.ns] }

/-- Changes the last tensor of a list. -/
def modLast (f : RoTensor → RoTensor) : List RoTensor → List RoTensor
  | [] => []
  | [t] => [f t]
  | t :: ts => t :: modLast f ts

/-- Whether a further tensor may enter the buffer: it is empty, or holds one and both are of double shapes; and no command
waits to take hold before it. -/
def Ro.mayBegin (r : Ro) (q : RoShape) : Bool :=
  r.queue.isEmpty && match r.tensors with
    | [] => true
    | [t] => t.shape.dbl && q.dbl
    | _ => false

/-- A tensor leaves the buffer once its last token has left the element. -/
def State.roSettle (s : State) (e : Nat) : State :=
  if (s.outOf e).isEmpty && (s.ro e).tensors.any (·.formed) then
    s.modRo e fun r => { r with tensors := r.tensors.filter fun t => !t.formed }
  else s

/-- RO_INPUT: the next token on INCH enters the tensor in progress, or begins one. -/
def execRoInput (e : Nat) (s : State) : Out :=
  .next (if elemKind e ≠ .ro ∨ s.acts e = false then s
    else
      let s0 := s.roSettle e
      match s0.inputHead e 0 0 Token.isData with
      | none => s0
      | some (c, l, h) =>
        let r := s0.ro e
        let q := s0.roShape e
        if r.tensors.any fun t => !t.closed then
          (s0.popAt e l c).modRo e fun r => { r with tensors := modLast (·.take h) r.tensors }
        else if r.mayBegin q then
          (s0.popAt e l c).modRo e fun r => { r with tensors := r.tensors ++ [RoTensor.take { shape := q } h] }
        else s0)

/-! ### Output (R243) -/

/-- An element emits tokens on its output: link of field `df`, channel of field `df + 1` of page 0, in the plane of its
input. -/
def State.roEmit (s : State) (e : Nat) (f : BitVec 5 → Token) : State :=
  let link := s.inField e 0 0 1 0
  s.emit e [(link, f (BitVec.ofNat 5 (s.inField e 0 0 2 0)))]

/-- The marker of output step n. -/
def RoShape.marker (q : RoShape) (n : Nat) : BitVec 2 :=
  if n + 1 = q.count then 2 else if n % (q.cnt[0].toNat + 1) = q.cnt[0].toNat then 1 else 0

/-- An output step for a token that had arrived: the tokens carry a number, and the step leaves the last-arrival marker by
which a walk goes on through the element (22 R381; DEDUCED, log 51). -/
def State.roStep (s : State) (e : Nat) (h : Held) (t : Token) (f : RoTensor → RoTensor) : State :=
  let n := s.firingNumber e
  let s1 := (s.markFiring e [(h.tok.channel.toNat, h)]).modRo e fun r =>
    { r with tensors := match r.tensors with
        | [] => []
        | x :: rest => f x :: rest }
  (s1.roEmit e fun ch => { t with channel := ch, fire := n }).roSettle e

/-- RO_OUTPUT: the next output step, once its entry has arrived and what the element formed before has left it; or the
error token that ends a tensor. -/
def execRoOutput (e : Nat) (s : State) : Out :=
  let s0 := (s.drain e).roSettle e
  .next (if elemKind e ≠ .ro ∨ s.acts e = false then s
    else match (s0.ro e).tensors, s0.outOf e with
      | t :: _, [] =>
        match t.err with
        | some (code, ph) => s0.roStep e t.ended { data := code, marker := 3, phase := ph } fun x => { x with formed := true }
        | none =>
          let i := t.shape.idx t.sent
          if i < t.entries.length then
            let k := nth i t.entries
            s0.roStep e { ns := nth i t.times, tok := k } { data := k.data, marker := t.shape.marker t.sent, phase := k.phase }
              fun x => { x with sent := x.sent + 1, formed := x.sent + 1 == x.shape.count }
          else s0
      | _, _ => s0)

/-! ### Commands (R253) -/

/-- Code of an invalid shape. -/
abbrev codeRoPerm : BitVec 8 := 0x10

/-- RO_SHAPE: takes hold at the end of the tensor in progress; an invalid shape faults RO_PERM and changes nothing. -/
def execRoShape (e : Nat) (s : State) : Out :=
  .next (if elemKind e ≠ .ro ∨ s.acts e = false then s
    else match (s.ro e).queue with
      | [] => s
      | k :: rest =>
        let q := shapeOf k.cmd k.arg
        if nbits k.cmd.toNat 3 0 ≠ 1 ∨ ((s.ro e).tensors.any fun t => !t.closed) = true then s
        else if q.valid then
          let slot := s.roSlot e
          (s.modRo e fun r => { r with queue := rest, shape := some (slot, q) }).endCmd k .toc (elemUnit e)
        else (s.modRo e fun r => { r with queue := rest }).endCmd k .toc (elemUnit e) (some codeRoPerm))

/-- RO_FLUSH: buffered tokens are discarded; a tensor of which a part has left ends with error 2, and the command completes
as that leaves. -/
def execRoFlush (e : Nat) (s : State) : Out :=
  let s0 := (s.drain e).roSettle e
  .next (if elemKind e ≠ .ro ∨ s.acts e = false then s
    else match (s0.ro e).queue with
      | [] => s0
      | k :: rest =>
        let partly := (s0.ro e).tensors.any fun t => t.sent != 0
        let link := s0.inField e 0 0 1 0
        let ch := s0.inField e 0 0 2 0
        if nbits k.cmd.toNat 3 0 ≠ 2 ∨ (s0.outOf e).isEmpty = false ∨ (partly = true ∧ s0.room e link ch = false) then s0
        else
          let s1 := (s0.modRo e fun r => { r with queue := rest, tensors := [] }).endCmd k .toc (elemUnit e)
          if partly then s1.roEmit e fun c => errTok c 2 else s1)

end Sys2Proof.Machine
end

