-- ==== Sys2Proof/Machine/FieldMap.lean ====
section
/-! DEFINITION. The configuration field maps of every kind of element, and the checks that a commit makes of an image
(04 R81-R83; 06 R130, R134; 09 R202-R206, R214-R232; 10 R233, R234, R242, R248). -/

namespace Sys2Proof.Machine

/-! ### Widths (09 Tables K-99 to K-104; 04 Tables K-27, K-148; 10 Tables K-116, K-120 to K-124, K-149) -/

/-- The highest page of a kind's map; none where the map has one page and field 63 is reserved (06 R134). -/
def Kind.lastPage : Kind → Option Nat
  | .pe => some 6
  | .seq => none
  | .port => some 3
  | _ => some 1

/-- Entry f of a list of widths. -/
def widthIn (l : List Nat) (f : Nat) : Option Nat := l[f]?

/-- The width of n fields of 16 bits. -/
def width16 (n f : Nat) : Option Nat := if f < n then some 16 else none

/-- Widths of a tile's page 0; the fields b + 11 are reserved. -/
def mtWidth (f : Nat) : Option Nat :=
  if f < 60 then widthIn [2, 1, 2, 5, 15, 16, 16, 16, 16, 15, 15] (f % 12) else widthIn [2, 12, 15] (f - 60)

/-- Widths of page 0 of the spine elements of chapter 10. -/
def spineWidth : Kind → Nat → Option Nat
  | .mn, f => widthIn [5, 5, 5, 1, 3, 5, 2, 5] f
  | .ro, f => widthIn [5, 3, 5, 10, 10, 10, 10, 10, 10, 10, 1] f
  | .sel, f => widthIn [5, 5, 4, 1, 18, 15] f
  | .mon, f => if f < 5 then widthIn [3, 10, 1, 18, 15] f else if 8 ≤ f then width16 16 f else none
  | .dec, f => widthIn [3, 5] f
  | _, _ => none

/-- The width of a field of a kind; none where it is reserved or not assigned. -/
def Kind.fieldWidth (k : Kind) (page f : Nat) : Option Nat :=
  match k with
  | .pe =>
    match page with
    | 0 => if f < 48 then some 32 else width16 57 f
    | 1 => width16 34 f
    | 2 | 3 => if f < 32 then some 32 else none
    | 4 | 5 => width16 32 f
    | _ => widthIn [1, 7, 7, 6, 5, 5, 5, 5, 5, 1, 1] f
  | .mt => if page = 0 then mtWidth f else width16 40 f
  | .seq => if f < 32 then some 16 else widthIn [5, 5, 3] (f - 32)
  | .port => if page = 3 then width16 8 f else width16 32 f
  | k => if page = 0 then spineWidth k f else width16 32 f

/-! ### Routers (09 R205, 04 R83, 10 R234) -/

/-- The four codes of a field of route entries. -/
def codesOf (v : Nat) : List Nat := [v % 16, v / 16 % 16, v / 256 % 16, v / 4096 % 16]

/-- Codes that name a link, or 0. -/
def linkCodes (v : Nat) : Bool := (codesOf v).all fun c => decide (c ≤ 4)

/-- Route codes of field n of a router page: assigned, and none leaves by the link it arrived on, but at a tile (R205, 04
R83). -/
def routeCodes (k : Kind) (n v : Nat) : Bool := (codesOf v).all fun c => decide (c ≤ 5) && (k == .mt || c != n / 8 + 1)

/-- A link that the router of an element has (01 R12). -/
def hasLink (e dir : Nat) : Bool := decide (dir < 4) && (neighbour e dir).isSome

/-! ### Stage words (06 R130, 09 R207-R232) -/

/-- What a stage word is checked against: image, handler, whether it runs a rotation head's loop, and its join channels. -/
structure WordCtx where
  im : Image
  h : Nat
  rot : Bool
  joins : List Nat
  deriving Repr, Inhabited

/-- A selector that may be read: assigned; t, j1 and j2 only where the G word brings them in (R207, R215). -/
def WordCtx.selOk (c : WordCtx) (sel : Nat) : Bool :=
  decide (sel < 44) && (sel != 37 || c.rot || !c.joins.isEmpty) && (sel != 38 || decide (2 ≤ c.joins.length))

/-- A DST that a stage may write: a held register, an accumulator or z (R207). -/
def dstOk (d : Nat) : Bool := decide (d < 36) || d == 40

/-- The channels bound to the handler (01 R23). -/
def WordCtx.triggers (c : WordCtx) : List Nat :=
  (List.range 32).filter fun ch => vceBound (c.im.field 1 ch 0) && vceHandler (c.im.field 1 ch 0) == c.h

/-- The channels whose token a token selector reads. -/
def WordCtx.channels (c : WordCtx) (sel : Nat) : List Nat :=
  if sel = 36 then c.triggers
  else if sel = 37 then (if c.rot then [c.im.field 6 5 0] else c.joins.take 1)
  else c.joins.drop 1

/-- FORMAT of a channel. -/
def WordCtx.fmt (c : WordCtx) (ch : Nat) : Nat := vceFormat (c.im.field 1 ch 0)

/-- Every trigger channel carries DS16 (R219). -/
def WordCtx.ds16 (c : WordCtx) : Bool := c.triggers.all fun ch => c.fmt ch == 11

/-- Format codes that cvt and tof convert, but FP32 (R217, R218). -/
def cvtFormats : List Nat := [1, 2, 3, 4, 8, 9, 10]

/-- Bits of an element of a format that cvt converts. -/
def fmtBits (f : Nat) : Nat :=
  if f = 0 ∨ f = 10 then 32 else if f = 1 ∨ f = 2 then 16 else if f = 9 then 4 else 8

/-- A G word (Table K-106, R214). -/
def WordCtx.gOk (c : WordCtx) (w : Nat) : Bool :=
  let d := swDst w
  let a := swSa w
  let b := swSb w
  let m := swMod w
  let read := c.selOk a && a != 39
  match swOp w with
  | 0 => w == 0
  | 1 | 4 => read && d == 0 && b == 0 && m == 0
  | 2 => read && decide (d < 32) && b == 0 && m == 0
  | 3 => read && decide (d < 32) && decide (b < 32) && d != b && m == 0
  | 5 => d == 0 && a == 0 && b == 0 && decide (m < 32)
  | 6 => d == 0 && a == 0 && b == 0 && m == 0
  | _ => false

/-- A C word (Table K-107, R216-R219). -/
def WordCtx.cOk (c : WordCtx) (w : Nat) : Bool :=
  let a := swSa w
  let b := swSb w
  let m := swMod w
  let srcOk (ch : Nat) : Bool :=
    let f := c.fmt ch
    (f == 0 || cvtFormats.contains f) && decide (nbits m 5 3 < 32 / fmtBits f) && !(m.testBit 2 && (f == 8 || f == 9))
  match swOp w with
  | 0 => w == 0
  | 1 | 2 => dstOk (swDst w) && c.selOk a && [36, 37, 38].contains a && b == 0 && m % 4 == 0 && (c.channels a).all srcOk
  | 3 => dstOk (swDst w) && c.selOk a && c.selOk b && decide (m < 2)
  | 4 =>
    let f := m % 16
    dstOk (swDst w) && c.selOk a && cvtFormats.contains f && !m.testBit 4 && (!m.testBit 5 || f == 3 || f == 4) &&
      (if f = 8 ∨ f = 9 then c.selOk b else b == 0)
  | 5 => dstOk (swDst w) && c.selOk a && b == 0 && m == 0
  | 6 | 7 => dstOk (swDst w) && a == 36 && b == 0 && m % 64 == 0 && c.ds16
  | _ => false

/-- An M word (Table K-108, R220). -/
def WordCtx.mOk (c : WordCtx) (w : Nat) : Bool :=
  let ab := dstOk (swDst w) && c.selOk (swSa w) && c.selOk (swSb w)
  let m := swMod w
  match swOp w with
  | 0 => w == 0
  | 1 | 2 | 3 => ab && m % 64 == 0
  | 4 | 6 => ab && decide (m < 2)
  | 5 => ab && m == 0
  | 7 => ab && swSa w == 36 && m % 64 == 0 && c.ds16
  | _ => false

/-- An A word (Table K-109, R221-R223). RM of famax is allowed, as its row of the table names MOD whole (log 71). -/
def WordCtx.aOk (c : WordCtx) (w : Nat) : Bool :=
  let ab := dstOk (swDst w) && c.selOk (swSa w) && c.selOk (swSb w)
  let acc := decide (32 ≤ swDst w) && decide (swDst w < 36) && c.selOk (swSa w) && swSb w == 0
  let m := swMod w
  match swOp w with
  | 0 => w == 0
  | 1 | 2 => ab && m % 64 == 0
  | 3 | 4 => ab && (m == 0 || m == 32)
  | 5 | 19 => acc && nbits m 5 2 == 0 && m % 4 != 3
  | 6 => acc && nbits m 7 6 == 0 && nbits m 4 2 == 0 && m % 4 != 3
  | 7 => acc && !m.testBit 5
  | 8 | 9 | 10 | 11 | 12 | 13 | 14 | 15 | 18 => ab && m == 0
  | 16 => ab && decide (m ≤ 4)
  | 17 => ab && decide (m ≤ 5)
  | _ => false

/-- An F word (Tables K-110, K-111, R224-R226). -/
def WordCtx.fOk (c : WordCtx) (w : Nat) : Bool :=
  let a := dstOk (swDst w) && c.selOk (swSa w)
  let b := swSb w
  let m := swMod w
  let op := swOp w
  if op = 0 then w == 0
  else if op = 5 ∨ op = 10 ∨ op = 11 then a && b == 0 && m == 0
  else if op ≤ 13 then a && c.selOk b && m == 0
  else if op = 24 ∨ op = 28 then a && c.selOk b && m % 64 == 0
  else if op = 25 ∨ op = 26 then a && b == 0 && m == 0
  else if 16 ≤ op ∧ op ≤ 30 then a && b == 0 && m % 64 == 0
  else false

/-- Exactly one edge is named. -/
def oneEdge (m : Nat) : Bool := [1, 2, 4, 8].contains (m % 16)

/-- An E word (Table K-112, R227-R232). -/
def WordCtx.eOk (c : WordCtx) (w : Nat) : Bool :=
  let d := swDst w
  let a := swSa w
  let b := swSb w
  let m := swMod w
  let mk := nbits m 6 4
  let one := c.selOk a && b == 0
  let two := c.selOk a && c.selOk b
  let op := swOp w
  if op = 0 then w == 0
  else
    !m.testBit 7 && (op == 12 || d == 0) && (op == 10 || m % 16 != 0) &&
    ((List.range 4).all fun e => !m.testBit e || (c.im.field 4 (4 * c.h + e) 0).testBit 15) &&
    (match op with
      | 1 => one && decide (mk ≤ 4)
      | 2 => two && decide (mk ≤ 4) && m % 16 == 3
      | 3 | 11 => two && decide (mk ≤ 4)
      | 4 => two && oneEdge m && !m.testBit 6 && nbits m 5 4 != 3
      | 5 => two && oneEdge m && nbits m 6 5 == 0
      | 6 | 8 => one && mk == 0
      | 7 => one && mk == 0 && oneEdge m
      | 9 => a == 0 && b == 0 && decide (mk ≤ 4)
      | 10 => one && decide (mk ≤ 4) && nbits m 3 2 == 0
      | 12 => two && oneEdge m && nbits m 6 5 == 0 && (if m.testBit 4 then c.selOk d else d == 0)
      | _ => false)

/-- The six stage words of a handler. -/
def Image.wordsOk (im : Image) (h : Nat) : Bool :=
  let w (s : Nat) := im.field 0 (6 * h + s) 0
  let c : WordCtx := { im := im, h := h, rot := swOp (w 0) == 6, joins := joinsOf (w 0) }
  c.gOk (w 0) && c.cOk (w 1) && c.mOk (w 2) && c.aOk (w 3) && c.fOk (w 4) && c.eOk (w 5) &&
    c.joins.all fun j => !vceBound (im.field 1 j 0)

/-- A handler has an operation that can retire a firing, or dsout (Table K-105). -/
def Image.retires (im : Image) (h : Nat) : Bool :=
  let w (s : Nat) := im.field 0 (6 * h + s) 0
  swOp (w 1) == 6 || swOp (w 1) == 7 || swOp (w 2) == 7 || swOp (w 3) == 7 || swOp (w 5) == 8 ||
    ([5, 6, 19].contains (swOp (w 3)) && swMod (w 3) % 4 != 0)

/-- The rotation-head rows of Table K-105. -/
def Image.headOk (im : Image) : Bool :=
  let f (k r : Nat) := im.field 6 k r
  let g (h : Nat) := swOp (im.field 0 (6 * h) 0) == 6
  let e (h : Nat) := swOp (im.field 0 (6 * h + 5) 0) == 10
  if f 0 0 = 0 then (List.range 8).all fun h => !g h && !e h
  else
    let h := vceHandler (im.field 1 (f 6 0) 0)
    let edge (i : Nat) := im.field 4 (4 * h + i) 0
    decide (2 ≤ f 1 2) && decide (f 1 2 ≤ 64) && decide (1 ≤ f 2 1) && decide (f 2 1 ≤ f 1 2) &&
      f 3 0 == f 1 2 - f 2 1 &&
      decide ([f 4 0, f 5 0, f 6 0, f 7 0].Nodup) &&
      vceBound (im.field 1 (f 6 0) 0) && !vceBound (im.field 1 (f 4 0) 0) && !vceBound (im.field 1 (f 5 0) 0) &&
      g h && e h && !im.retires h && (edge 3).testBit 15 && (edge 2).testBit 15 && nbits (edge 2) 11 7 == f 7 0

/-! ### Values that a field assigns (01 R5, 06 R137) -/

/-- What a stage word is checked against alone: every join there, every OUTE entry valid, every channel of one format. -/
def loneCtx (fmt : Nat) : WordCtx :=
  { im := { fields := ((List.range 32).map fun c => (64 + c, BitVec.ofNat 32 (fmt * 256))) ++
              (List.range 32).map fun i => (256 + i, 0x8000#32) }
    h := 0, rot := false, joins := [0, 1] }

/-- A word of stage s that could stand in some handler: its OP, selectors and MOD are assigned (06 R130). -/
def wordAssigned (s w : Nat) : Bool :=
  (List.range 12).any fun f =>
    let c := loneCtx f
    match s with
    | 0 => c.gOk w
    | 1 => c.cOk w
    | 2 => c.mOk w
    | 3 => c.aOk w
    | 4 => c.fOk w
    | _ => c.eOk w

/-- A value that a field of an element assigns, whatever the other fields hold (00 R5; 02 Table K-10; 09 R202-R206; 04 Table
K-27; 10 R233, R234, R248). -/
def fieldAssigned (e page f v : Nat) : Bool :=
  let k := elemKind e
  if page = routerPage k ∧ f < 32 then routeCodes k f v
  else match k, page with
  | .pe, 0 => if f < 48 then wordAssigned (f % 6) v else decide (56 ≤ f) || decide (v < 32)
  | .pe, 1 => decide (32 ≤ f) || decide (vceFormat v < 12)
  | .pe, 6 => (f != 1 || decide (2 ≤ v ∧ v ≤ 64)) && (f != 2 || decide (1 ≤ v ∧ v ≤ 64))
  | .pe, 4 => decide (nbits v 14 12 < 4) && v % 128 == 0 && (!v.testBit 15 || hasLink e (nbits v 14 12))
  | .mt, 0 =>
    if f = 62 then decide (v ≤ 0x6000)
    else if 60 ≤ f then true
    else (f % 12 != 2 || decide (v < 3)) && (f % 12 != 4 || decide (v ≤ 24575)) && (f != 48 || decide (v ≤ 1))
  | .mt, _ => linkCodes v
  | .mn, 0 => f != 4 || hasLink e v
  | .ro, 0 => f != 1 || hasLink e v
  | .dec, 0 => f != 0 || hasLink e v
  | .sel, 0 => f != 2 || [0, 1, 2, 10].contains v
  | .mon, 0 =>
    if f = 0 then decide (v ≤ 5)
    else if f = 1 then v == portIdx || (decide (v < 520) && idxKind v == .mt)
    else decide (f < 8) ||
      (!v.testBit 13 && [0, 1, 2, 3, 4, 10].contains (v % 16) && nbits v 7 4 % (fmtBits (v % 16) / 8) == 0)
  | .seq, _ => f != 34 || decide (v < 4)
  | .port, 1 => nbits v 14 10 == 0
  | .port, 2 => !v.testBit 14
  | .port, 3 => linkCodes v
  | _, _ => true

/-! ### What fields must be together -/

/-- The windows of a tile's ports, and FEMODE 1 only for reading (04 Table K-27). -/
def Image.mtOk (im : Image) : Bool :=
  (List.range 5).all fun p =>
    let f (k r : Nat) := im.field 0 (12 * p + k) r
    decide (f 9 0 ≤ f 10 0x5FFF) && !(f 0 0 == 1 && f 1 0 == 1 && f 2 0 == 1)

/-- A monitor watches a tile's port, or the PORT (R248). -/
def Image.monOk (im : Image) : Bool :=
  let p := im.field 0 0 0
  let i := im.field 0 1 0
  if p = 5 then i == portIdx else idxKind i == .mt

/-- The checks that a commit makes of the image of an element (06 R137 BAD_VALUE). -/
def Image.ok (im : Image) (e : Nat) : Bool :=
  let f (i r : Nat) := im.field 0 i r
  (im.fields.all fun (key, v) => fieldAssigned e (key / 64) (key % 64) v.toNat) &&
  match elemKind e with
  | .pe => (List.range 8).all im.wordsOk && im.headOk
  | .mt => im.mtOk
  | .mn => hasLink e (f 4 0) && decide ([f 0 0, f 1 1, f 2 2].Nodup)
  | .ro => hasLink e (f 1 0) && im.roShape.valid
  | .sel => f 0 0 != f 1 1
  | .mon => im.monOk
  | .dec => hasLink e (f 0 0)
  | .seq | .port => true

/-- The field numbers and values that a page's link virtual channels take: valid CUTOUT (page 1) or CUTIN (page 2)
entries, LVC in bits [9:0], DIE of CUTIN in bits [13:10]. -/
def Image.cuts (im : Image) (page : Nat) : List Nat :=
  (List.range 32).filterMap fun c =>
    let v := im.field page c 0
    if v.testBit 15 then some (v % 2 ^ 14) else none

end Sys2Proof.Machine
end

