-- ==== Sys2Proof/Machine/Cfg.lean ====
section
/-! DEFINITION. Configuration streams: the words of a district's configuration tree, and the commit (06 R131-R138; 01
R30, R31; 09 R203, R206; 10 R234; 15 R299). -/

namespace Sys2Proof.Machine

/-- Configuration errors by their order in 06 Table K-50. -/
abbrev cfgBadControl : BitVec 4 := 1
abbrev cfgNoBegin : BitVec 4 := 2
abbrev cfgMixedTarget : BitVec 4 := 3
abbrev cfgAddrOutside : BitVec 4 := 4
abbrev cfgExtOrphan : BitVec 4 := 5
abbrev cfgFieldReserved : BitVec 4 := 6
abbrev cfgBadValue : BitVec 4 := 7
abbrev cfgPlaneSize : BitVec 4 := 8
abbrev cfgSlotBusy : BitVec 4 := 9

/-- An error is found in the stream. -/
def CfgStream.err (c : CfgStream) (e : BitVec 4) : CfgStream := { c with errors := c.errors ++ [e] }

/-- An error is found where a test fails. -/
def CfgStream.need (c : CfgStream) (ok : Bool) (e : BitVec 4) : CfgStream := if ok then c else c.err e

/-- Whether a stream is open. -/
def CfgStream.isOpen (c : CfgStream) : Bool := !c.words.isEmpty

/-- CODE of a CONTROL word; none for a word of another kind (06 Table K-48). -/
def cfgCode (w : W32) : Option Nat := if fld w 31 30 = 3 then some (fld w 29 24).toNat else none

/-- A word other than BEGIN enters the stream; one that opens it is NO_BEGIN (R137). -/
def CfgStream.enter (c : CfgStream) (w : W32) : CfgStream :=
  let c' := { c with words := w :: c.words }
  if c.isOpen then c' else c'.err cfgNoBegin

/-- An EXTEND word just before, that no FIELD word takes, is an orphan (R133). -/
def CfgStream.orphan (c : CfgStream) : CfgStream :=
  match c.high with
  | some _ => { c with high := none }.err cfgExtOrphan
  | none => c

/-- BEGIN opens a stream (R135). -/
def cfgOpen (w : W32) : CfgStream :=
  let c : CfgStream := { words := [w], copy := if w.getLsbD 2 then some (w.setWidth 2) else none }
  c.need (fld w 23 3 == 0) cfgBadControl

/-- A name that the ADDR words of a stream have to share: the first stands, another is MIXED_TARGET (R136). -/
def CfgStream.shared {α : Type} [BEq α] (c : CfgStream) (old : Option α) (new : α) : CfgStream :=
  c.need (old.all fun x => x == new) cfgMixedTarget

/-- ADDR: the cursor and the target slot (R132, R136). A square that is not of the tree's district is outside, as it is
where the region does not have it (DEDUCED, log 70); one outside the grid names a slot but no element. -/
def CfgStream.addr (c0 : CfgStream) (s : State) (d : Nat) (w : W32) : CfgStream :=
  let c := ((c0.enter w).orphan).need (fld w 8 0 == 0) cfgBadControl
  let slot : BitVec 2 := (fld w 10 9).setWidth 2
  let c := { c.shared c.slot slot with slot := some (c.slot.getD slot) }
  match elemOf (fld w 29 26).toNat (fld w 25 19).toNat (fld w 18 11).toNat with
  | none => { c.err cfgAddrOutside with cursor := none }
  | some e =>
    let c := { c.shared c.home (elemDist e) with home := some (c.home.getD (elemDist e)), cursor := some (elemIdx e) }
    c.need ((s.regionAt d).isSome && elemDist e == d) cfgAddrOutside

/-- A value is written to a field of an element of district d (R134): FPAGE, or a field of the map, each with a value that it
assigns (01 R5). -/
def CfgStream.write (c : CfgStream) (d i f : Nat) (v : W32) : CfgStream :=
  let k := idxKind i
  if f = 63 then
    match k.lastPage with
    | none => c.err cfgFieldReserved
    | some n => if v.toNat ≤ n then { c with pages := tset i v.toNat c.pages } else c.err cfgBadValue
  else
    let page := (tget i c.pages).getD 0
    match k.fieldWidth page f with
    | none => c.err cfgFieldReserved
    | some n =>
      let c := c.need (decide (v.toNat < 2 ^ n) && fieldAssigned (elemAt d i) page f v.toNat) cfgBadValue
      { c with writes := (i, 64 * page + f, v) :: c.writes }

/-- FIELD: the cursor advances by OFFSET and the field of that element takes the value (R132, R133); before the first ADDR
it is NO_BEGIN, and after one outside the grid it has no element. -/
def CfgStream.field (c0 : CfgStream) (d : Nat) (w : W32) : CfgStream :=
  let c := c0.enter w
  let v : W32 := match c.high with
    | some h => h ++ w.setWidth 16
    | none => w &&& 0xFFFF#32
  let c := { c with high := none }
  match c.cursor with
  | none => c.need c.slot.isSome cfgNoBegin
  | some i =>
    let j := i + (fld w 29 22).toNat
    if 519 < j then { c with cursor := some j }.err cfgAddrOutside
    else { c with cursor := some j }.write d j (fld w 21 16).toNat v

/-- EXTEND: the high half of the next FIELD value (R133). -/
def CfgStream.extend (c0 : CfgStream) (w : W32) : CfgStream :=
  let c := (c0.enter w).orphan
  { c.need (fld w 29 16 == 0) cfgBadControl with high := some (w.setWidth 16) }

/-- SPARGEAWAIT, or a CONTROL code that is not assigned (R135). -/
def CfgStream.control (c0 : CfgStream) (w : W32) : CfgStream :=
  let c := (c0.enter w).orphan
  if cfgCode w = some 3 then { c.need (fld w 23 0 == 0) cfgBadControl with await := true } else c.err cfgBadControl

/-! ### The commit (R136, R137) -/

/-- The marks of registers that a write gives (09 R203). -/
def markOf (i key : Nat) : Option Nat :=
  if idxKind i = .pe then
    if 128 ≤ key ∧ key < 160 then some (key - 128)
    else if 192 ≤ key ∧ key < 224 then some (32 + (key - 192)) else none
  else none

/-- One write into an image. -/
def Image.put (im : Image) (i key : Nat) (v : W32) : Image :=
  { im with fields := tset key v im.fields
            marks := match markOf i key with
              | some m => nadd m im.marks
              | none => im.marks }

/-- The image of an element at a commit: the source slot's or the reset values, with the stream's writes in order. -/
def CfgStream.imageOf (c : CfgStream) (x : District) (i : Nat) : Image :=
  let base : Image := match c.copy with
    | some k => x.image i k.toNat
    | none => {}
  { (c.writes.filter fun w => w.1 == i).foldr (fun w im => im.put i w.2.1 w.2.2) base with resident := true }

/-- Every image of the district at a commit, by element index. -/
def CfgStream.images (c : CfgStream) (x : District) : List (Nat × Image) := (List.range 520).map fun i => (i, c.imageOf x i)

/-- Some channel of some element of a district has a slot as its active plane. -/
def District.slotActive (x : District) (slot : BitVec 2) : Bool :=
  if slot = 0 then decide ((x.active.filter fun a => a.2 != 0).length < 32 * 520) else x.active.any fun a => a.2 == slot

/-- A target slot is active in a region that runs an instance (01 R31; DEDUCED, log 69). -/
def State.slotBusy (s : State) (d : Nat) (slot : BitVec 2) : Bool :=
  match s.regionAt d with
  | some r => r.started && r.districts.any fun d => (s.dist d).slotActive slot
  | none => false

/-- The images of other PORTs that an image's link virtual channels may not repeat: those of the same slot in the region,
whose other slots are other planes (DESIGN CHOICE, log 172), and the resident ones of other regions (10 R234, 15 R290). -/
def State.otherPorts (s : State) (d : Nat) (slot : BitVec 2) : List (Nat × Image) :=
  let mine := ((s.regionAt d).map (·.districts)).getD []
  s.districts.flatMap fun (d2, x) =>
    if d2 = d then []
    else ([0, 1, 2, 3].filter fun k => (x.image portIdx k).resident && (!mine.contains d2 || k == slot.toNat)).map
      fun k => (d2, x.image portIdx k)

/-- Each link virtual channel of a PORT's image is used once on its die, and each pair of die and channel once on the
module. -/
def State.cutsOk (s : State) (d : Nat) (slot : BitVec 2) (im : Image) : Bool :=
  let others := s.otherPorts d slot
  let outs := (others.filter fun q => distDie q.1 == distDie d).flatMap fun q => q.2.cuts 1
  let ins := others.flatMap fun q => q.2.cuts 2
  decide (im.cuts 1).Nodup && decide (im.cuts 2).Nodup && (im.cuts 1).all (fun v => !outs.contains v) &&
    (im.cuts 2).all fun v => !ins.contains v

/-- The values and cross-field checks of a commit (R137, 09 R206). They bear on an image in which some field is written:
reset values alone form an image of an element that is not used (DEDUCED, log 68). -/
def State.imagesOk (s : State) (d : Nat) (slot : BitVec 2) (l : List (Nat × Image)) : Bool :=
  l.all fun (i, im) =>
    im.fields.isEmpty || (im.ok (elemAt d i) && (i != portIdx || s.cutsOk d slot im))

/-- All errors of a stream at its COMMIT. -/
def CfgStream.allErrors (c : CfgStream) (s : State) (d : Nat) : List (BitVec 4) :=
  let c := c.need (decide (c.words.length ≤ 49152)) cfgPlaneSize
  match c.slot with
  | none => c.errors
  | some slot =>
    let c := c.need (s.imagesOk d slot (c.images (s.dist d))) cfgBadValue
    (c.need (!s.slotBusy d slot) cfgSlotBusy).errors

/-- The error that comes first in the order of Table K-50; 0 for none. -/
def firstCode : List (BitVec 4) → BitVec 4
  | [] => 0
  | e :: t =>
    let m := firstCode t
    if m = 0 then e else if e.toNat ≤ m.toNat then e else m

/-- Every element of the district takes its new image (R136); the elements then act on what they held of the
configuration tree (15 R299). -/
def applyImages (s : State) (d : Nat) (slot : BitVec 2) (l : List (Nat × Image)) : State :=
  let s1 := s.modDist d fun x => l.foldl (fun x (i, im) =>
    let k := 4 * i + slot.toNat
    { x with images := tset k im x.images, stored := tset k im x.stored, used := ndel k x.used }) x
  l.foldl (fun s (i, _) => s.treeGo (elemAt d i)) s1

/-- The stream closes: the report stands, and a stream that waited behind it opens (R138). -/
def cfgClose (s : State) (d : Nat) (code : BitVec 4) : State :=
  s.modDist d fun x =>
    match x.cfgHeld with
    | (w :: _) :: rest => { x with cfg := cfgOpen w, cfgHeld := rest, cfgError := some code }
    | _ => { x with cfg := {}, cfgError := some code }

/-- COMMIT: all or nothing (R136, R137). -/
def cfgCommitWord (s : State) (d : Nat) (w : W32) : State :=
  let x := s.dist d
  let c := ((x.cfg.enter w).orphan).need (fld w 23 0 == 0) cfgBadControl
  let code := firstCode (c.allErrors s d)
  match c.slot with
  | some slot => cfgClose (if code = 0 then applyImages s d slot (c.images x) else s) d code
  | none => cfgClose s d code

/-- Changes the open stream of a district by a word other than BEGIN; while a sparge is awaited the tree delivers none
(R135). -/
def State.cfgWord (s : State) (d : Nat) (f : CfgStream → CfgStream) : State :=
  if (s.dist d).cfg.await then s else s.modDist d fun x => { x with cfg := f x.cfg }

/-- BEGIN reaches the tree: it opens a stream, or is held behind the open one (R138). -/
def cfgBeginWord (s : State) (d : Nat) (w : W32) : State :=
  s.modDist d fun x =>
    if x.cfg.isOpen then { x with cfgHeld := x.cfgHeld ++ [[w]] } else { x with cfg := cfgOpen w }

/-- Any configuration word (R131). -/
def State.cfgDeliver (s : State) (d : Nat) (w : W32) : State :=
  match (fld w 31 30).toNat with
  | 0 => s.cfgWord d fun c => c.field d w
  | 1 => s.cfgWord d fun c => c.addr s d w
  | 2 => s.cfgWord d fun c => c.extend w
  | _ =>
    match (fld w 29 24).toNat with
    | 1 => cfgBeginWord s d w
    | 2 => if (s.dist d).cfg.await then s else cfgCommitWord s d w
    | _ => s.cfgWord d fun c => c.control w

/-- A CONTROL word that is neither BEGIN nor COMMIT (R135). -/
def State.cfgControl (s : State) (d : Nat) (w : W32) : State :=
  match cfgCode w with
  | some 1 | some 2 | none => s
  | some _ => s.cfgWord d fun c => c.control w

/-- CFG_BEGIN (R135, R138); a CONTROL word whose code is not assigned is an error in whatever stream it comes. -/
def execCfgBegin (d : Nat) (w : W32) (s : State) : Out :=
  .next (if cfgCode w = some 1 then cfgBeginWord s d w else if cfgCode w = some 3 then s else s.cfgControl d w)

/-- CFG_ADDR (R132). -/
def execCfgAddr (d : Nat) (w : W32) (s : State) : Out :=
  .next (if fld w 31 30 = 1 then s.cfgWord d fun c => c.addr s d w else s)

/-- CFG_FIELD (R132, R133). -/
def execCfgField (d : Nat) (w : W32) (s : State) : Out :=
  .next (if fld w 31 30 = 0 then s.cfgWord d fun c => c.field d w else s)

/-- CFG_EXTEND (R133). -/
def execCfgExtend (d : Nat) (w : W32) (s : State) : Out :=
  .next (if fld w 31 30 = 2 then s.cfgWord d fun c => c.extend w else s)

/-- CFG_SPARGEAWAIT, and any CONTROL word whose code is not assigned (R135). -/
def execCfgSpargeawait (d : Nat) (w : W32) (s : State) : Out :=
  .next (s.cfgControl d w)

/-- CFG_COMMIT (R136, R137). -/
def execCfgCommit (d : Nat) (w : W32) (s : State) : Out :=
  .next (if cfgCode w = some 2 ∧ (s.dist d).cfg.await = false then cfgCommitWord s d w else s)

end Sys2Proof.Machine
end

