-- ==== Sys2Proof/Machine/Cmp.lean ====
section
/-! DEFINITION. Compares and condition bits: cmp and cnd (07 R153, R154). -/

namespace Sys2Proof.Machine

/-- cmp.eq (07 R153, Table K-58). -/
def execCmpEq (c : BitVec 3) (a b : BitVec 5) (s : State) : Out :=
  .next (finishC s c ((s.cr.rdG a) == (s.cr.rdG b)))

/-- cmp.ne (07 R153, Table K-58). -/
def execCmpNe (c : BitVec 3) (a b : BitVec 5) (s : State) : Out :=
  .next (finishC s c ((s.cr.rdG a) != (s.cr.rdG b)))

/-- cmp.lt (07 R153, Table K-58). -/
def execCmpLt (c : BitVec 3) (a b : BitVec 5) (s : State) : Out :=
  .next (finishC s c (((s.cr.rdG a)).slt (s.cr.rdG b)))

/-- cmp.ltu (07 R153, Table K-58). -/
def execCmpLtu (c : BitVec 3) (a b : BitVec 5) (s : State) : Out :=
  .next (finishC s c (((s.cr.rdG a)).ult (s.cr.rdG b)))

/-- cmp.le (07 R153, Table K-58). -/
def execCmpLe (c : BitVec 3) (a b : BitVec 5) (s : State) : Out :=
  .next (finishC s c (((s.cr.rdG a)).sle (s.cr.rdG b)))

/-- cmp.leu (07 R153, Table K-58). -/
def execCmpLeu (c : BitVec 3) (a b : BitVec 5) (s : State) : Out :=
  .next (finishC s c (((s.cr.rdG a)).ule (s.cr.rdG b)))

/-- cmp.feq (07 R153, Table K-58). -/
def execCmpFeq (c : BitVec 3) (a b : BitVec 5) (s : State) : Out :=
  .next (finishRel s c (fpRel Val.eqv true (fp (s.cr.rdG a)) (fp (s.cr.rdG b))))

/-- cmp.flt (07 R153, Table K-58). -/
def execCmpFlt (c : BitVec 3) (a b : BitVec 5) (s : State) : Out :=
  .next (finishRel s c (fpRel Val.lt false (fp (s.cr.rdG a)) (fp (s.cr.rdG b))))

/-- cmp.fle (07 R153, Table K-58). -/
def execCmpFle (c : BitVec 3) (a b : BitVec 5) (s : State) : Out :=
  .next (finishRel s c (fpRel (fun x y => x.lt y || x.eqv y) false (fp (s.cr.rdG a)) (fp (s.cr.rdG b))))

/-- cmp.fun (07 R153, Table K-58). -/
def execCmpFun (c : BitVec 3) (a b : BitVec 5) (s : State) : Out :=
  .next (finishRel s c (fpUnordered (fp (s.cr.rdG a)) (fp (s.cr.rdG b))))

/-- cnd.and (07 R154, Table K-59). -/
def execCndAnd (c a b : BitVec 3) (s : State) : Out :=
  .next (finishC s c (s.cr.rdC a && s.cr.rdC b))

/-- cnd.or (07 R154, Table K-59). -/
def execCndOr (c a b : BitVec 3) (s : State) : Out :=
  .next (finishC s c (s.cr.rdC a || s.cr.rdC b))

/-- cnd.xor (07 R154, Table K-59). -/
def execCndXor (c a b : BitVec 3) (s : State) : Out :=
  .next (finishC s c (s.cr.rdC a != s.cr.rdC b))

/-- cnd.andn (07 R154, Table K-59). -/
def execCndAndn (c a b : BitVec 3) (s : State) : Out :=
  .next (finishC s c (s.cr.rdC a && !s.cr.rdC b))

/-- cnd.setg (07 R154). -/
def execCndSetg (d : BitVec 5) (a : BitVec 3) (s : State) : Out :=
  .next (finishG s d (if s.cr.rdC a then 1 else 0))

/-- cnd.fromg (07 R154). -/
def execCndFromg (c : BitVec 3) (a : BitVec 5) (s : State) : Out :=
  .next (finishC s c (s.cr.rdG a != 0))

/-- cnd.sel.c0 to sel.c7 (07 R154). -/
def execCndSel (d a b : BitVec 5) (n : BitVec 3) (s : State) : Out :=
  .next (finishG s d (if s.cr.rdC n then s.cr.rdG a else s.cr.rdG b))

end Sys2Proof.Machine
end

