-- ==== Sys2Proof/Machine/Pxb.lean ====
section
/-! DEFINITION. Partitioned-exponent blocks and rows of packed elements (03 R59, R67-R70; 10 R237). -/

namespace Sys2Proof.Machine

/-- Bits of an element of a PXB format (03 R67). -/
def pxbBits (fmt : Nat) : Nat := if fmt = 5 then 7 else if fmt = 6 then 4 else 2

/-- Bytes of a PXB block. -/
def pxbBytes (fmt : Nat) : Nat := if fmt = 5 then 16 else if fmt = 6 then 10 else 6

/-- Whether a format code is a PXB format. -/
def isPxb (fmt : Nat) : Bool := fmt == 5 || fmt == 6 || fmt == 7

/-- The 16 values of a block (03 R68): E = 0 gives +0 throughout, E = 255 quiet NaNs. -/
def pxbDecode (fmt : Nat) (bs : List Byte) : List Val :=
  let m := pxbBits fmt
  let e := (nth 0 bs).toNat
  let sg := (nth 1 bs).toNat
  let field := leNat (bs.drop 2)
  (List.range 16).map fun j =>
    if e = 0 then .fin false 0 1
    else if e = 255 then .nan false
    else
      let x := field / 2 ^ (m * j) % 2 ^ m
      let k : Int := (e : Int) - 127 - (sg / 4 ^ (j / 4) % 4 : Nat) - ((m : Int) - 2)
      Val.scale2 k (.fin (x.testBit (m - 1)) (x % 2 ^ (m - 1)) 1)

/-- The magnitude that a value rounds to at exponent e and shift sh: q of 03 R69. -/
def pxbQ (m : Nat) (rm : RM) (e : Int) (sh : Nat) : Val → Nat
  | .fin neg n d => (roundAt rm neg n d (e - 127 - sh - ((m : Int) - 2))).1
  | _ => 0

/-- The largest shift, from `sh` down to 0, at which all values of a sub-block round to at most top. -/
def pxbShift (m : Nat) (rm : RM) (e : Int) (xs : List Val) : Nat → Nat
  | 0 => 0
  | n + 1 => if xs.any fun v => 2 ^ (m - 1) - 1 < pxbQ m rm e (n + 1) v then pxbShift m rm e xs n else n + 1

/-- The larger of two finite magnitudes. -/
def maxMag (a b : Nat × Nat) : Nat × Nat := if a.1 * b.2 < b.1 * a.2 then b else a

/-- The magnitude of a value as a ratio. -/
def Val.mag : Val → Nat × Nat
  | .fin _ n d => (n, d)
  | _ => (0, 1)

/-- The field of 16 elements of m bits, element 0 lowest. -/
def packField (m : Nat) : List Nat → Nat
  | [] => 0
  | x :: xs => x + 2 ^ m * packField m xs

/-- The exponent of a block of finite values that are not all zero: that of the largest, raised by one where some value
would round past top. -/
def pxbExp (m : Nat) (rm : RM) (xs : List Val) : Int :=
  let (n, d) := (xs.map Val.mag).foldl maxMag (0, 1)
  let e := max 1 (min 254 (floorLog2 n d + 127))
  if e < 254 ∧ (xs.any fun v => 2 ^ (m - 1) - 1 < pxbQ m rm e 0 v) = true then e + 1 else e

/-- Encodes a block of 16 values (03 R69). Its conditions are not needed: the copy engine discards them (08 R190). -/
def pxbEncode (fmt : Nat) (rm : RM) (xs : List Val) : List Byte :=
  let m := pxbBits fmt
  let top := 2 ^ (m - 1) - 1
  let block (e sg : Nat) (els : List Nat) : List Byte :=
    leBytes 1 e ++ leBytes 1 sg ++ leBytes (pxbBytes fmt - 2) (packField m els)
  let sign (v : Val) : Nat := if v.neg? then 2 ^ (m - 1) else 0
  if xs.any fun v => !v.isFinite then block 255 0 (xs.map fun _ => 0)
  else if xs.all Val.isZero then block 0 0 (xs.map sign)
  else
    let e := pxbExp m rm xs
    let sh := (List.range 4).map fun i => pxbShift m rm e ((xs.drop (4 * i)).take 4) 3
    block e.toNat (packField 2 sh)
      ((List.range 16).map fun j =>
        let v := nth j xs
        sign v + min top (pxbQ m rm e (nth (j / 4) sh) v))

/-! ### Rows of a matrix node (10 R237, Table K-118) -/

/-- Bits of an element of a format that packs plainly. -/
def rowBits (fmt : Nat) : Nat := if fmt = 1 ∨ fmt = 2 then 16 else if fmt = 9 then 4 else 8

/-- Elements of a row of k bytes; none where k is not allowed for the format. -/
def rowElems (fmt k : Nat) : Option Nat :=
  match fmt with
  | 1 => if k % 2 = 0 then some (k / 2) else none
  | 2 => if k % 2 = 0 then some (k / 2) else none
  | 3 => some k
  | 4 => some k
  | 8 => some k
  | 9 => some (2 * k)
  | 5 => if k % 16 = 0 then some k else none
  | 6 => if k % 10 = 0 then some (16 * (k / 10)) else none
  | 7 => if k % 6 = 0 then some (16 * (k / 6)) else none
  | _ => none

/-- Bytes of a weight row of e elements. -/
def rowBytes (fmt e : Nat) : Nat :=
  if isPxb fmt then pxbBytes fmt * e / 16 else if fmt = 9 then (e + 1) / 2 else rowBits fmt / 8 * e

/-- The elements of a row where the node supports the pair of formats (10 R237). -/
def pairElems (afmt wfmt k : Nat) : Option Nat :=
  let float (f : Nat) : Bool := decide (1 ≤ f ∧ f ≤ 7)
  let int (f : Nat) : Bool := f == 8 || f == 9
  match rowElems afmt k with
  | none => none
  | some e =>
    if ((float afmt && float wfmt) || (int afmt && int wfmt)) ∧ rowBytes wfmt e ≤ 64 ∧
        (isPxb wfmt = true → e % 16 = 0) then some e
    else none

/-- Element i of a row as its unsigned code (03 R59). -/
def rowCode (fmt : Nat) (bs : List Byte) (i : Nat) : Nat :=
  let b := rowBits fmt
  leNat bs / 2 ^ (b * i) % 2 ^ b

/-- The exact values of the e elements of a floating-point or PXB row. -/
def rowVals (fmt e : Nat) (bs : List Byte) : List Val :=
  if isPxb fmt then
    (List.range (e / 16)).flatMap fun b => pxbDecode fmt ((bs.drop (pxbBytes fmt * b)).take (pxbBytes fmt))
  else (List.range e).map fun i => valOf (BitVec.ofNat 4 fmt) (rowCode fmt bs i)

/-- The differences of the e elements of an INT8 or INT4 row from their blocks' zero points (03 R70). -/
def rowDiffs (fmt e : Nat) (bs : List Byte) (z : Vector Byte 8) : List Int :=
  (List.range e).map fun i => (rowCode fmt bs i : Int) - ((vget z (i / 16)).toNat % 2 ^ rowBits fmt : Nat)

end Sys2Proof.Machine
end

