-- ==== Sys2Proof/Machine/Copy.lean ====
section
/-! DEFINITION. The copy engine (08 R190; 05 R115; 03 R65, R69). -/

namespace Sys2Proof.Machine

/-- Changes the copy engine of a district. -/
def State.modCopy (s : State) (d : Nat) (f : Copy → Copy) : State := s.modDist d fun x => { x with copier := f x.copier }

/-- The values of an element: 16 of a PXB block, else one, which stands in the element's low bits. -/
def elementVals (q : Descriptor) (bs : List Byte) : List Val :=
  if isPxb q.fmt.toNat then pxbDecode q.fmt.toNat bs else [valOf q.fmt (leNat bs)]

/-- The bytes of n elements, in turn. -/
def chunks (size : Nat) : Nat → List Byte → List (List Byte)
  | 0, _ => []
  | n + 1, bs => bs.take size :: chunks size n (bs.drop size)

/-- The bytes of values in a destination's format, each element's unused high bits 0 (DESIGN CHOICE, log 66). -/
def encodeVals (q : Descriptor) (rm : RM) (sat : Bool) (vs : List Val) : List Byte :=
  let f := q.fmt.toNat
  if isPxb f then pxbEncode f rm vs
  else vs.flatMap fun v => leBytes q.size (rndTo q.fmt rm ((f == 3 || f == 4) && sat) v).1.toNat

/-- The source elements that the copy converts at a time: those of one destination block of 16 values; one, where the
formats agree (R190). -/
def copyUnit (a b : Descriptor) : Nat := if a.fmt = b.fmt ∨ isPxb a.fmt.toNat = true then 1 else 16

/-- The destination bytes of some source bytes. With equal formats bytes are copied unchanged; where the element sizes
differ, the low bytes (DESIGN CHOICE, log 66). -/
def copyConvert (a b : Descriptor) (w : Word) (bs : List Byte) : List Byte :=
  if a.fmt = b.fmt then leBytes b.size (leNat bs)
  else
    let els := chunks a.size (bs.length / a.size) bs
    encodeVals b (RM.ofBits (w.extractLsb' 8 2)) (w.getLsbD 10) (els.flatMap (elementVals a))

/-- The copy engine ends its command. -/
def State.copyEnd (s : State) (d : Nat) (k : EngCmd) (fault : Option (BitVec 8)) : State :=
  (s.modCopy d fun c => { queue := c.queue.drop 1 }).endCmd k .cpc 18 fault

/-- Reads source granules until n bytes are in hand. -/
def copyFill (d n : Nat) (q : Descriptor) : Nat → State → State × Option (BitVec 8)
  | 0, s => (s, none)
  | fuel + 1, s =>
    let c := (s.dist d).copier
    if n ≤ c.inb.length then (s, none)
    else match s.walkRead d (.copier d) q c.srcPos with
      | (s1, .done bs) =>
        copyFill d n q fuel (s1.modCopy d fun c => { c with inb := c.inb ++ bs, srcPos := c.srcPos + bs.length })
      | (s1, .fail f) => (s1, some f)
      | (s1, _) => (s1, none)

/-- Writes converted bytes, whole granules, as far as it goes without waiting. -/
def copyFlush (d : Nat) (q : Descriptor) : Nat → State → State × Option (BitVec 8)
  | 0, s => (s, none)
  | fuel + 1, s =>
    let c := (s.dist d).copier
    if c.outb.isEmpty || !q.wholeRun c.dstPos c.outb then (s, none)
    else match s.walkWrite d (.copier d) q c.dstPos c.outb with
      | (s1, .done _, n) => copyFlush d q fuel (s1.modCopy d fun c => { c with outb := c.outb.drop n, dstPos := c.dstPos + n })
      | (s1, .fail f, _) => (s1, some f)
      | (s1, _, _) => (s1, none)

/-- The next block of the copy: source bytes, conversion, destination bytes. The granules of one transfer are performed
in walk order (DESIGN CHOICE, log 142: step 2 of 05 R115 leaves their order open). -/
def State.copyBlock (s : State) (d : Nat) (k : EngCmd) (a b : Descriptor) : State :=
  let c := (s.dist d).copier
  let more := c.outb.isEmpty || !b.wholeRun c.dstPos c.outb
  let need := if more then min (copyUnit a b * a.size) (c.inb.length + (a.bytes - c.srcPos)) else 0
  let (s1, f1) := if more then copyFill d need a (need + 1) s else (s, none)
  match f1 with
  | some f => s1.copyEnd d k (some f)
  | none =>
    let c1 := (s1.dist d).copier
    let s2 := if need ≤ c1.inb.length ∧ 0 < need then
        s1.modCopy d fun c =>
          { c with inb := c.inb.drop need, outb := c.outb ++ copyConvert a b k.cmd (c.inb.take need) }
      else s1
    let (s3, f2) := copyFlush d b ((s2.dist d).copier.outb.length) s2
    match f2 with
    | some f => s3.copyEnd d k (some f)
    | none =>
      let c3 := (s3.dist d).copier
      if c3.outb.isEmpty ∧ c3.inb.isEmpty ∧ a.bytes ≤ c3.srcPos ∧ s3.engineLogged d (.copier d) = false then
        s3.copyEnd d k none
      else s3

/-- COPY_RUN: the copy engine moves the next destination block of the command at the head of its queue, or ends it. -/
def execCopyRun (d : Nat) (s : State) : Out :=
  .next (if s.acts (elemAt d seqIdx) = false ∨ (s.dist d).sealed.contains copierIdx = true then s
    else match (s.dist d).copier.queue with
      | [] => s
      | k :: _ => match k.src, k.dst with
        | some a, some b => s.copyBlock d k a b
        | _, _ => s)

end Sys2Proof.Machine
end

