-- ==== Sys2Proof/Machine/Dec.lean ====
section
/-! DEFINITION. Decompression engines: block format, decoding, release (10 R250-R254; 12 R258, R260). -/

namespace Sys2Proof.Machine

/-- The decompression engine of an element number. -/
def State.dec (s : State) (e : Nat) : Dec := tgetD (elemUnit e) (s.dist (elemDist e)).decs

/-- Changes a decompression engine. -/
def State.modDec (s : State) (e : Nat) (f : Dec → Dec) : State := s.modDist (elemDist e) fun x => x.modDec (elemUnit e) f

/-- Changes the job of a decompression engine. -/
def State.modJob (s : State) (e : Nat) (f : DecJob → DecJob) : State := s.modDec e fun x => { x with job := x.job.map f }

/-- Fault codes (Table K-126). -/
abbrev codeDecHdr : BitVec 8 := 0x40
abbrev codeDecTable : BitVec 8 := 0x41
abbrev codeDecCode : BitVec 8 := 0x42
abbrev codeDecCrc : BitVec 8 := 0x43
abbrev codeDecSrc : BitVec 8 := 0x44
abbrev codeDecDest : BitVec 8 := 0x45

/-! ### CRC-32C (R250) -/

/-- n bits of the reflected division by the CRC-32C polynomial. -/
def crcShift : Nat → Nat → Nat
  | 0, c => c
  | n + 1, c => crcShift n (if c % 2 = 1 then (c / 2) ^^^ 0x82F63B78 else c / 2)

/-- CRC-32C. -/
def crc32c (bs : List Byte) : Nat := (bs.foldl (fun c b => crcShift 8 (c ^^^ b.toNat)) 0xFFFFFFFF) ^^^ 0xFFFFFFFF

/-! ### The header (R250, R251, Table K-125) -/

/-- A block header. -/
structure BlockHdr where
  fmt : Nat
  symw : Nat
  rawLen : Nat
  codedLen : Nat
  lens : List Nat
  stored : Bool
  last : Bool
  crc : Nat
  deriving DecidableEq, Repr, Inhabited

/-- n bytes at an offset of a list. -/
def fieldAt (bs : List Byte) (off n : Nat) : Nat := leNat ((bs.drop off).take n)

/-- Reads a header; DEC_HDR or DEC_TABLE where a check fails. -/
def parseBlock (bs : List Byte) : Except (BitVec 8) BlockHdr :=
  let fmt := fieldAt bs 3 1 % 16
  let symw := fieldAt bs 3 1 / 16
  let flags := fieldAt bs 20 4
  let lentab := fieldAt bs 12 8
  let h : BlockHdr :=
    { fmt := fmt, symw := symw, rawLen := fieldAt bs 4 4, codedLen := fieldAt bs 8 4
      lens := (List.range 16).map fun i => lentab / 16 ^ i % 16
      stored := flags.testBit 0, last := flags.testBit 1, crc := fieldAt bs 24 4 }
  let ok := fieldAt bs 0 2 = 0xD3C5 ∧ fieldAt bs 2 1 = 1 ∧ fmt ≤ 10 ∧ (symw = 2 ∨ symw = 4) ∧
    1 ≤ h.rawLen ∧ h.rawLen ≤ 65536 ∧ 1 ≤ h.codedLen ∧ h.codedLen ≤ 131072 ∧ flags / 4 = 0 ∧ fieldAt bs 28 4 = 0 ∧
    (isPxb fmt = true → h.rawLen % pxbBytes fmt = 0) ∧
    (h.stored = true → h.codedLen = h.rawLen ∧ lentab = 0) ∧
    (h.stored = false → fmt ≠ 0 ∧ fmt ≠ 1 ∧ fmt ≠ 2 ∧ fmt ≠ 10)
  if ¬ok then .error codeDecHdr
  else if h.stored then .ok h
  else
    let used := h.lens.filter (· ≠ 0)
    let kraft : Nat := (used.map fun l => 2 ^ (15 - l)).foldl (· + ·) 0
    if (kraft = 2 ^ 15 ∨ used = [1]) ∧ (symw = 2 → lentab / 2 ^ 16 = 0) then .ok h else .error codeDecTable

/-- The bytes of a whole block. -/
def BlockHdr.size (h : BlockHdr) : Nat := 32 + (h.codedLen + 15) / 16 * 16

/-! ### Decoding (R251) -/

/-- The symbols of nonzero length in canonical order: length, symbol. -/
def canonOrder (lens : List Nat) : List (Nat × Nat) :=
  (List.range 16).flatMap fun l =>
    if l = 0 then [] else (List.range 16).filterMap fun i => if nth i lens = l then some (l, i) else none

/-- Canonical codes: length, code, symbol. -/
def canonGo : Nat → Nat → List (Nat × Nat) → List (Nat × Nat × Nat)
  | _, _, [] => []
  | len, code, (l, i) :: rest =>
    let c := code * 2 ^ (l - len)
    (l, c, i) :: canonGo l (c + 1) rest

/-- The code table of a header. -/
def BlockHdr.codes (h : BlockHdr) : List (Nat × Nat × Nat) :=
  match canonOrder h.lens with
  | [] => []
  | (l, i) :: rest => canonGo l 0 ((l, i) :: rest)

/-- Bits of bytes, bit 7 first. -/
def bitsOf (bs : List Byte) : List Bool := bs.flatMap fun b => (List.range 8).reverse.map fun i => b.getLsbD i

/-- Reads one symbol: its code is that of `len` bits read so far and those that follow. -/
def readSym (tab : List (Nat × Nat × Nat)) : Nat → Nat → Nat → List Bool → Option (Nat × List Bool)
  | 0, _, _, _ => none
  | _, _, _, [] => none
  | fuel + 1, len, code, b :: rest =>
    let c := 2 * code + (if b then 1 else 0)
    match tab.find? fun t => t.1 == len + 1 && t.2.1 == c with
    | some (_, _, i) => some (i, rest)
    | none => readSym tab fuel (len + 1) c rest

/-- Reads n symbols, with what remains. -/
def readSyms (tab : List (Nat × Nat × Nat)) : Nat → List Bool → Option (List Nat × List Bool)
  | 0, bits => some ([], bits)
  | n + 1, bits => match readSym tab 15 0 0 bits with
    | none => none
    | some (i, rest) => (readSyms tab n rest).map fun (l, r) => (i :: l, r)

/-- The bytes of symbols of w bits, the low symbol first; `per` symbols a byte. -/
def bytesOfSyms (w per : Nat) : Nat → List Nat → List Byte
  | 0, _ => []
  | n + 1, l => BitVec.ofNat 8 (((l.take per).foldr (fun x v => x + 2 ^ w * v) 0)) :: bytesOfSyms w per n (l.drop per)

/-- Blocks rebuilt from their first two bytes and their element-field bytes. -/
def joinBlocks (size : Nat) : Nat → List Byte → List Byte → List Byte
  | 0, _, _ => []
  | n + 1, hd, el => hd.take 2 ++ el.take (size - 2) ++ joinBlocks size n (hd.drop 2) (el.drop (size - 2))

/-- The raw bytes of a payload, before the CRC. -/
def BlockHdr.decode (h : BlockHdr) (payload : List Byte) : Except (BitVec 8) (List Byte) :=
  let p := payload.take h.codedLen
  if h.stored then .ok p
  else
    let blocks := if isPxb h.fmt then h.rawLen / pxbBytes h.fmt else 0
    let coded := h.rawLen - 2 * blocks
    let per := 8 / h.symw
    if p.length < 2 * blocks then .error codeDecCode
    else match readSyms h.codes (coded * per) (bitsOf (p.drop (2 * blocks))) with
      | none => .error codeDecCode
      | some (syms, rest) =>
        if 8 ≤ rest.length ∨ rest.any id = true then .error codeDecCode
        else
          let els := bytesOfSyms h.symw per coded syms
          .ok (if isPxb h.fmt then joinBlocks (pxbBytes h.fmt) blocks p els else els)

/-- A whole block decoded and checked (R252). -/
def BlockHdr.raw (h : BlockHdr) (payload : List Byte) : Except (BitVec 8) (List Byte) :=
  match h.decode payload with
  | .error c => .error c
  | .ok bs => if crc32c bs = h.crc then .ok bs else .error codeDecCrc

/-! ### The engine (R252, R253; 12 R258) -/

/-- What marks the tokens of an engine's command on their way: no bits on the wire (log 8). -/
def decTag (e : Nat) (j : DecJob) : Option (Nat × Nat) := some (1024 + e, 1 + j.cmd.arr)

/-- Tokens of a released block (R252). -/
def blockToks (ch : BitVec 5) (tag : Option (Nat × Nat)) (last : Bool) (bs : List Byte) : List Token :=
  let ws := wordsOf ((bs.length + 3) / 4) bs
  ws.mapIdx fun i w =>
    { dataTok ch w (if i + 1 = ws.length then (if last then 2 else 1) else 0) with tag := tag }

/-- A token of the command is still on its way: with `arrived` false, not yet in the buffer of the element that receives it,
else not yet taken from it (12 R258). -/
def State.decAbroad (s : State) (e : Nat) (j : DecJob) (arrived : Bool) : Bool :=
  match s.regionAt (elemDist e) with
  | none => false
  | some r => r.districts.any fun d =>
      let x := s.dist d
      (x.outq.any fun (_, l) => l.any fun (_, t) => t.tag == decTag e j) ||
      x.skid.any fun (k, l) => (l.any fun h => h.tok.tag == decTag e j) &&
        (arrived ||
          (let c := k % 32
           let link := k / 32 % 4
           let i := k / 128
           x.route i link c != 5 || (idxKind i == .port && (x.chField i c 1 c 0).testBit 15)))

/-- Channel mode. -/
def DecJob.toch (j : DecJob) : Bool := j.cmd.cmd.getLsbD 12

/-- The command faults; what it has released stands, and in channel mode an error token goes out (R252). -/
def State.decFail (s : State) (e : Nat) (j : DecJob) (code : BitVec 8) : State :=
  let s1 := s.modJob e fun j => { j with fault := some code, ready := none, buf := [] }
  if j.toch then
    let ch := BitVec.ofNat 5 (s.planeField (elemDist e) (elemIdx e) 0 1 0)
    s1.emit e [(s.planeField (elemDist e) (elemIdx e) 0 0 0, { errTok ch code.toNat with tag := decTag e j })]
  else s1

/-- Releases a block. -/
def State.decRelease (s : State) (e : Nat) (j : DecJob) (last : Bool) (bs : List Byte) : State :=
  let d := elemDist e
  if j.toch then
    let ch := BitVec.ofNat 5 (s.planeField d (elemIdx e) 0 1 0)
    let link := s.planeField d (elemIdx e) 0 0 0
    (s.modJob e fun j => { j with ready := none, last := last }).emit e ((blockToks ch (decTag e j) last bs).map fun t => (link, t))
  else if (match j.cmd.dst with
    | some q => q.bytes
    | none => 0) < j.dstPos + j.raw.length + bs.length then s.decFail e j codeDecDest
  else s.modJob e fun j => { j with ready := none, last := last, raw := j.raw ++ bs }

/-- Reads source granules until the engine holds n bytes, or must wait (none), or a code of fault. -/
def decFill (e n : Nat) (q : Descriptor) : Nat → State → State × Option (BitVec 8)
  | 0, s => (s, none)
  | fuel + 1, s =>
    match (s.dec e).job with
    | none => (s, none)
    | some j =>
      if n ≤ j.buf.length then (s, none)
      else if q.bytes ≤ j.srcPos then (s, some codeDecSrc)
      else match s.walkRead (elemDist e) (.dec e) q j.srcPos with
        | (s1, .done bs) =>
          decFill e n q fuel (s1.modJob e fun j => { j with buf := j.buf ++ bs, srcPos := j.srcPos + bs.length })
        | (s1, .fail c) => (s1, some c)
        | (s1, _) => (s1, none)

/-- The released bytes that may be written now: whole granules, and at the end of the command what is left. -/
def DecJob.due (j : DecJob) (q : Descriptor) : Bool :=
  !j.raw.isEmpty && (q.wholeRun j.dstPos j.raw || j.last || j.fault.isSome)

/-- Writes released bytes, as far as it goes without waiting, granules in walk order (DESIGN CHOICE, log 142: step 2 of
05 R115 leaves their order open). -/
def decFlush (e : Nat) (q : Descriptor) : Nat → State → State
  | 0, s => s
  | fuel + 1, s =>
    match (s.dec e).job with
    | none => s
    | some j =>
      if !j.due q then s
      else match s.walkWrite (elemDist e) (.dec e) q j.dstPos j.raw with
        | (s1, .done _, n) =>
          decFlush e q fuel ((s1.modJob e fun j => { j with raw := j.raw.drop n, dstPos := j.dstPos + n }).markFired (elemDist e))
        | (s1, .fail c, _) => (s1.modJob e fun j => { j with raw := [] }).decFail e j c
        | (s1, _, _) => s1

/-- The command in progress ends. -/
def State.decEnd (s : State) (e : Nat) (j : DecJob) : State :=
  (s.modDec e fun x => { job := none, queue := x.queue.drop 1 }).endCmd j.cmd .cpc (elemUnit e) j.fault

/-- The next block of the command: header, payload, decoding. A source that ends between blocks ends the command. -/
def State.decNext (s : State) (e : Nat) (j : DecJob) (q : Descriptor) : State :=
  if j.buf.isEmpty ∧ q.bytes ≤ j.srcPos then s.modJob e fun j => { j with last := true }
  else
    let failed (s : State) (c : BitVec 8) : State := s.modJob e fun j => { j with ready := some (.inl c) }
    let (s1, f1) := decFill e 32 q 33 s
    match f1 with
    | some c => failed s1 c
    | none =>
      let buf := (((s1.dec e).job).getD j).buf
      if buf.length < 32 then s1
      else match parseBlock (buf.take 32) with
        | .error c => failed s1 c
        | .ok h =>
          let (s2, f2) := decFill e h.size q h.size s1
          match f2 with
          | some c => failed s2 c
          | none =>
            let buf := (((s2.dec e).job).getD j).buf
            if buf.length < h.size then s2
            else match h.raw ((buf.take h.size).drop 32) with
              | .error c => failed s2 c
              | .ok bs => s2.modJob e fun j =>
                  { j with ready := some (.inr (h.last, bs)), buf := j.buf.drop h.size }

/-- DEC_RUN: the engine begins the next command, the one before it having finished or faulted (R253; 12 R258). -/
def execDecRun (e : Nat) (s : State) : Out :=
  .next (if elemKind e ≠ .dec ∨ s.acts e = false then s
    else match (s.dec e).job, (s.dec e).queue with
      | none, k :: _ => s.modDec e fun x => { x with job := some { cmd := k } }
      | _, _ => s)

/-- The engine decodes the next block of its command where none stands decoded (R252). -/
def State.decAhead (s : State) (e : Nat) (j : DecJob) : State :=
  if j.ready.isSome ∨ j.fault.isSome ∨ j.last = true then s
  else match j.cmd.src with
    | some q => s.decNext e j q
    | none => s

/-- The engine releases the block that stands decoded, or ends its command where nothing is left of it (R252; 12 R258; 05
R115). -/
def State.decSettle (s : State) (e : Nat) (j : DecJob) : State :=
  match j.ready with
  | some (.inl c) => s.decFail e j c
  | some (.inr (last, bs)) => s.decRelease e j last bs
  | none =>
    if !(j.fault.isSome || j.last) || !j.raw.isEmpty || s.engineLogged (elemDist e) (.dec e) ||
        (j.toch && s.decAbroad e j j.fault.isNone) then s
    else s.decEnd e j

/-- DEC_BLOCK: the engine goes on with its command: it writes what is released, decodes the next block meanwhile, and
releases that, or ends the command, once nothing released before waits. In descriptor mode a command ends when none of its
writes stands in the side log; in channel mode when the receiving element has taken the last token, or holds the error token
(R252; 12 R258; 05 R115). -/
def execDecBlock (e : Nat) (s : State) : Out :=
  .next (if elemKind e ≠ .dec ∨ s.acts e = false then s
    else
      let s0 := s.drain e
      match (s0.dec e).job with
      | none => s0
      | some j =>
        let s1 := match j.cmd.dst with
          | some q => decFlush e q j.raw.length s0
          | none => s0
        match (s1.dec e).job with
        | none => s1
        | some j =>
          let s2 := s1.decAhead e j
          match (s2.dec e).job with
          | none => s2
          | some j =>
            let waits := match j.cmd.dst with
              | some q => j.due q
              | none => false
            if waits ∨ (s2.outOf e).isEmpty = false then s2 else s2.decSettle e j)

end Sys2Proof.Machine
end

