-- ==== Sys2Proof/Machine/Fpu.lean ====
section
/-! DEFINITION. Scalar floating point: fpu (07 R155, R156). -/

namespace Sys2Proof.Machine

/-- fpu.add (07 R156, Table K-60). -/
def execFpuAdd (d a b : BitVec 5) (r : BitVec 2) (s : State) : Out :=
  .next (finishF s d (fpAdd (RM.ofBits r) (fp (s.cr.rdG a)) (fp (s.cr.rdG b))))

/-- fpu.sub (07 R156, Table K-60). -/
def execFpuSub (d a b : BitVec 5) (r : BitVec 2) (s : State) : Out :=
  .next (finishF s d (fpSub (RM.ofBits r) (fp (s.cr.rdG a)) (fp (s.cr.rdG b))))

/-- fpu.mul (07 R156, Table K-60). -/
def execFpuMul (d a b : BitVec 5) (r : BitVec 2) (s : State) : Out :=
  .next (finishF s d (fpMul (RM.ofBits r) (fp (s.cr.rdG a)) (fp (s.cr.rdG b))))

/-- fpu.div (07 R156, Table K-60). -/
def execFpuDiv (d a b : BitVec 5) (r : BitVec 2) (s : State) : Out :=
  .next (finishF s d (fdiv32 (RM.ofBits r) (fp (s.cr.rdG a)) (fp (s.cr.rdG b))))

/-- fpu.sqrt (07 R156). -/
def execFpuSqrt (d a : BitVec 5) (r : BitVec 2) (s : State) : Out :=
  .next (finishF s d (fpSqrt (RM.ofBits r) (fp (s.cr.rdG a))))

/-- fpu.fma: the addend is g[gd] (07 R156). -/
def execFpuFma (d a b : BitVec 5) (r : BitVec 2) (s : State) : Out :=
  .next (finishF s d (fpFma (RM.ofBits r) (fp (s.cr.rdG a)) (fp (s.cr.rdG b)) (fp (s.cr.rdG d))))

/-- fpu.min (07 R156). -/
def execFpuMin (d a b : BitVec 5) (s : State) : Out :=
  .next (finishF s d (minMax32 false (fp (s.cr.rdG a)) (fp (s.cr.rdG b))))

/-- fpu.max (07 R156). -/
def execFpuMax (d a b : BitVec 5) (s : State) : Out :=
  .next (finishF s d (minMax32 true (fp (s.cr.rdG a)) (fp (s.cr.rdG b))))

/-- fpu.abs: no condition, a NaN kept bit for bit (07 R156). -/
def execFpuAbs (d a : BitVec 5) (s : State) : Out :=
  .next (finishF s d (fp (s.cr.rdG a) &&& 0x7FFFFFFF, 0))

/-- fpu.neg: no condition, a NaN kept bit for bit (07 R156). -/
def execFpuNeg (d a : BitVec 5) (s : State) : Out :=
  .next (finishF s d (fp (s.cr.rdG a) ^^^ 0x80000000, 0))

/-- fpu.cvto: FP32 to the format coded in gb (07 R156). -/
def execFpuCvto (d a f : BitVec 5) (r : BitVec 2) (sat : BitVec 1) (s : State) : Out :=
  let r := fpCvto (f.setWidth 4) (RM.ofBits r) (sat == 1) (fp (s.cr.rdG a))
  .next (finish s ((s.cr.wrG d r.1).raiseFlags r.2))

/-- fpu.cvfrom: the format coded in gb to FP32 (07 R156). -/
def execFpuCvfrom (d a f : BitVec 5) (r : BitVec 2) (s : State) : Out :=
  .next (finishF s d (fpCvfrom (f.setWidth 4) (RM.ofBits r) (s.cr.rdG a)))

/-- fpu.flags: reads FLAGS and clears it in the same act (07 R155, R156). -/
def execFpuFlags (d : BitVec 5) (s : State) : Out :=
  .next (finish s { s.cr.wrG d (s.cr.flags.setWidth 64) with flags := 0 })

end Sys2Proof.Machine
end

