-- ==== Sys2Proof/Machine/Gang.lean ====
section
/-! DEFINITION. Halting a region for a save, restoring one, and the gang schedule (16 R320-R322; 17 R333). -/

namespace Sys2Proof.Machine

/-! ### Halt and restore (R320) -/

/-- A region's instance runs. -/
def Region.active (r : Region) : Bool := r.status == .running || r.status == .draining

/-- A region's instance halts, if each of its SEQs stands at an interrupt point; else the halt waits (R320). -/
def askHalt (s : State) (r : Region) : State :=
  if r.active && s.halted r then s.modRegion r.loadId fun r => { r with gangHalt := true } else s

/-- No fault of a region waits to be sealed. -/
def State.sound (s : State) (r : Region) : Bool := !(s.husks.any fun h => r.districts.contains (elemDist h.elem))

/-- A region may be saved now: idle, or halted with nothing to be sealed. -/
def State.mayMove (s : State) (r : Region) : Bool := r.status == .idle || (r.gangHalt && s.halted r && s.sound r)

/-- What the side logs of a region hold of pages that have become mapped meanwhile is replayed (17 R333). -/
def State.replayRegion (s : State) (r : Region) : State :=
  r.districts.foldl (fun s d =>
    ((s.dist d).port.sideLog.foldl (fun s x => s.replayMapped d r.part.toNat x.acc.obj.toNat
      (s.pageOf r.part.toNat x.acc)) s)) s

/-- A saved region comes back; none where what occupies its districts cannot make room. -/
def State.bringIn (s : State) (r : Region) : Option State := (s.swapIn r).map fun t => t.replayRegion r

/-! ### The gang registers (R321) -/

/-- The shortest slice: save, restore and 10 us. -/
def gangMin : Nat := 24000

/-- LEN of an entry. -/
def Gang.len (g : Gang) (i : Nat) : Nat := (tgetD i g.ent).toNat % 2 ^ 32

/-- PART of an entry. -/
def Gang.partOf (g : Gang) (i : Nat) : BitVec 6 := (tgetD i g.ent).extractLsb' 32 6

/-- The effective lengths. -/
def Gang.lens (g : Gang) : List Nat := (List.range g.n.toNat).map fun i => max (g.len i) gangMin

/-- Some length is raised. -/
def Gang.short (g : Gang) : Bool := (List.range g.n.toNat).any fun i => decide (g.len i < gangMin)

/-- A partition stands in the schedule. -/
def Gang.scheduled (g : Gang) (p : BitVec 6) : Bool := (List.range g.n.toNat).any fun i => g.partOf i == p

/-- The slice in which a time since the start of a period lies, and when that slice ends; `i` and `a` are the number and
start of the first in the list. -/
def sliceGo (r : Nat) : Nat → Nat → List Nat → Option (Nat × Nat)
  | _, _, [] => none
  | i, a, l :: t => if r < a + l then some (i, a + l) else sliceGo r (i + 1) (a + l) t

/-- The slice at an instant, and the instant at which it ends; none before GANGEPOCH, or with the schedule off. -/
def Gang.slice (g : Gang) (t : Nat) : Option (Nat × Nat) :=
  if t < g.epoch.toNat then none
  else
    let r := (t - g.epoch.toNat) % g.lens.sum
    (sliceGo r 0 0 g.lens).map fun (i, e) => (i, t - r + e)

/-- The first instant of the schedule after a time. -/
def Gang.nextInstant (g : Gang) (t : Nat) : Option Nat :=
  if g.n = 0 then none else if t < g.epoch.toNat then some g.epoch.toNat else (g.slice t).map (·.2)

/-- A register takes a value; GANGN above 64 is not assigned and reads as zero (00 R5). -/
def Gang.put (g : Gang) (off : Nat) (v : BitVec 64) : Gang :=
  if off = 0x3000 then { g with epoch := v }
  else if off = 0x3008 then { g with n := if v.toNat % 128 ≤ 64 then v.setWidth 7 else 0 }
  else if 0x3100 ≤ off ∧ off < 0x3300 then { g with ent := tset ((off - 0x3100) / 8) (v &&& 0x3FFFFFFFFF) g.ent }
  else g

/-- The writes that waited take effect; RAISED where a length is raised. -/
def Gang.applied (g : Gang) : Gang :=
  let h := g.next.foldl (fun g (off, v) => g.put off.toNat v) g
  { h with next := [], raised := h.raised || h.short }

/-- A write to a gang register: it takes effect at the next instant (R322), or now while no schedule runs (log 44). -/
def gangWrite (off : Nat) (v : BitVec 64) (s : State) : State :=
  let g := s.gang
  let h := { g with next := g.next ++ [(BitVec.ofNat 20 off, v)] }
  if g.due.isSome then { s with gang := h }
  else { s with gang := { h.applied with due := h.applied.nextInstant s.timebase } }

/-! ### Switches (R321, R322) -/

/-- A partition is switched out: it stands in the schedule, and the current slice is another's. -/
def State.switchedOut (s : State) (p : BitVec 6) : Bool :=
  match s.gang.part with
  | none => false
  | some q => q != p && s.gang.scheduled p

/-- The slice that begins at an instant, with the writes that wait for it: its number and partition. -/
def Gang.incoming (g : Gang) (t : Nat) : Option (Nat × BitVec 6) := (g.applied.slice t).map fun (i, _) => (i, g.applied.partOf i)

/-- The resident regions that an instant saves: those of other partitions of the schedule that share a district with a
saved region of the incoming partition; none where the partition stays the same. -/
def State.gangOuts (s : State) (t : Nat) : List Region :=
  match s.gang.incoming t with
  | none => []
  | some (_, q) =>
    if s.gang.part = some q then []
    else
      let ins := s.regions.filter fun r => r.part == q && r.saved
      s.regions.filter fun r => r.part != q && !r.saved && (s.gang.applied.scheduled r.part || s.gang.part == some r.part) &&
        ins.any fun i => i.districts.any fun d => r.districts.contains d

/-- A region is about to be saved by the next instant, whose halt has begun. -/
def State.gangDue (s : State) (r : Region) : Bool :=
  match s.gang.due with
  | none => false
  | some t => decide (t ≤ s.timebase + 1000) && (s.gangOuts t).any fun o => o.loadId == r.loadId

/-- GANG_HALT: 1 us before an instant the regions that it saves begin to halt (R321). -/
def execGangHalt (s : State) : Out :=
  .next (match s.gang.due with
    | none => s
    | some t =>
      let s1 := { s with timebase := max s.timebase (t - 1000) }
      (s1.gangOuts t).foldl askHalt s1)

/-- Saves a region at an instant; with no free slot it stays for the slice, and SKIPPED is set (R322). -/
def gangSave (s : State) (r : Region) : State :=
  if s.roomToSave r then saveRegion s r
  else { (s.modRegion r.loadId fun r => { r with gangHalt := false }) with gang := { s.gang with skipped := true } }

/-- Restores a region at an instant, where its districts are free for it. -/
def gangRestore (s : State) (r : Region) : State :=
  let occ := s.occupants r.loadId r.districts
  if occ.isEmpty || (r.status == .saved && occ.all fun q => q.status == .idle) then (s.bringIn r).getD s else s

/-- A bank's partition is switched out or in: COUNT as committed before the switch-out is what PROGRESS reads meanwhile
(R310). -/
def Bank.suspend (k : Bank) (x : Bool) : Bank :=
  { k with suspended := x, frozen := if x && !k.suspended then k.progress else k.frozen }

/-- SUSPENDED of every bank (R310). -/
def State.markBanks (s : State) : State :=
  (List.range 64).foldl (fun s b =>
    let k := tgetD b s.banks
    let x := s.switchedOut (k.cfg.extractLsb' 8 6)
    if k.suspended = x then s else { s with banks := tset b (k.suspend x) s.banks }) s

/-- The schedule enters the slice that begins at an instant. -/
def State.enterSlice (s : State) (t : Nat) : State :=
  let g := s.gang.applied
  let i := g.slice t
  { s with gang := { g with
      index := BitVec.ofNat 6 ((i.map (·.1)).getD 0), part := i.map fun (i, _) => g.partOf i, due := g.nextInstant t } }

/-- GANG_INSTANT: once what it saves has halted, the outgoing partition's regions are saved, and the incoming one's saved
regions restored, running ones first, in the districts that they share; waiting register writes take effect (R321, R322).
It stands at the instant or, where a sparge delays the halt, later. -/
def execGangInstant (s : State) : Out :=
  .next (match s.gang.due with
    | none => s
    | some t =>
      let outs := s.gangOuts t
      if !(outs.all s.mayMove) then s
      else
        let s1 := outs.foldl gangSave { s with timebase := max s.timebase t }
        let old := s1.gang.part
        let s2 := s1.enterSlice t
        let ins := if old = s2.gang.part then [] else s2.regions.filter fun r => some r.part == s2.gang.part && r.saved
        let s3 := (ins.filter fun r => r.status == .saved).foldl gangRestore s2
        let s4 := (ins.filter fun r => r.status == .idle).foldl gangRestore s3
        s4.markBanks)

/-- GANGSTAT_WRITE: SKIPPED and RAISED are cleared by writing 1 (Table D-10). -/
def gangstatWrite (v : BitVec 64) (s : State) : State :=
  { s with gang := { s.gang with
      skipped := s.gang.skipped && !v.getLsbD 2, raised := s.gang.raised && !v.getLsbD 1 } }

end Sys2Proof.Machine
end

