-- ==== Sys2Proof/Machine/Kiln.lean ====
section
/-! DEFINITION. The kiln controller: power tokens, thermal and module steps, limit tables, boost, weight-store refresh,
alerts, retirement (19 R354-R361; 20 R367, R368; 21 R371; 22 R375-R377; 01 R25, R29; 04 R101). -/

namespace Sys2Proof.Machine

/-! ### Limits in force (19 R356, R357) -/

/-- PCEIL in W, TTHROT and TCRIT in units of 0.125 degrees. -/
structure Limits where
  pceil : Nat
  tthrot : Int
  tcrit : Int
  deriving DecidableEq, Repr, Inhabited

/-- The cap of PCEIL by cooling mode (00 R2, R356). -/
def pceilCap (mode : Nat) : Nat := if mode = 0 then 3000 else if mode = 1 then 12000 else 16000

/-- The limits of a row: air row 0 that is not VALID gives fixed ones. -/
def rowLimits (key : Nat) (v : BitVec 64) : Limits :=
  if key = 0 ∧ v.getLsbD 63 = false then ⟨3000, 8 * 85, 8 * 100⟩
  else ⟨min (nbits v.toNat 39 24) (pceilCap (key / 8)), 8 * (nbits v.toNat 47 40 : Int), 8 * (nbits v.toNat 55 48 : Int)⟩

/-- The limits as latched at the latest 1 us interval. -/
def Kiln.limits (k : Kiln) : Limits := rowLimits k.limKey k.limNow

/-- The key of the row that the latest report chose. -/
def Kiln.chosen (k : Kiln) : Nat := 8 * k.mode.toNat + k.row.toNat

/-- The row chosen takes effect, with its fields as they stand: at each 1 us interval. -/
def Kiln.latchRow (k : Kiln) : Kiln := { k with limKey := k.chosen, limNow := tgetD k.chosen k.limtab }

/-- The row of a mode that matches inlet and flow: the first valid one (R356). -/
def Kiln.findRow (k : Kiln) (mode : Nat) (inlet flow : BitVec 16) : Option Nat :=
  if mode < 3 then
    (List.range 8).find? fun r =>
      let v := tgetD (8 * mode + r) k.limtab
      v.getLsbD 63 && decide (inlet.toInt ≤ 8 * (nbits v.toNat 7 0 : Int)) && decide (nbits v.toNat 23 12 ≤ flow.toNat)
  else none

/-- A row is chosen: air row 0 where none is given; COOLANT where MODE or ROW changes (R356, R361). -/
def State.chooseRow (s : State) (pick : Option (Nat × Nat)) : State :=
  let (m, r) := pick.getD (0, 0)
  let old := s.kiln.chosen
  let s1 := { s with kiln := { s.kiln with mode := BitVec.ofNat 2 m, row := BitVec.ofNat 3 r } }
  if 8 * m + r = old then s1 else s1.alert alertCoolant none

/-- BOARD_REPORT: inlet, flow and MEDIUM from the board; the limit-table row is chosen (R356). A MEDIUM that Table D-29 does
not assign is taken as 0, as which it reads (00 R5; DEDUCED, log 159). -/
def execBoardReport (inlet flow : BitVec 16) (medium : BitVec 4) (s : State) : Out :=
  let medium := if medium.toNat ≤ 2 then medium else 0
  let k := { s.kiln with inlet := inlet, flow := flow, medium := medium, stale := false, lastReport := some s.timebase }
  .next ({ s with kiln := k }.chooseRow ((k.findRow medium.toNat inlet flow).map fun r => (medium.toNat, r)))

/-- COOLANT_STALE: 100 ms after the last report STALE becomes 1 and the row is air row 0 (R356). -/
def execCoolantStale (s : State) : Out :=
  .next (match s.kiln.lastReport with
    | none => s
    | some t =>
      if s.kiln.stale then s
      else
        let s1 := { s with timebase := max s.timebase (t + 100000000), kiln := { s.kiln with stale := true } }
        (s1.chooseRow none).alert alertCoolant none)

/-! ### Power tokens (R354, 01 R25) -/

/-- THROT of a region: its largest STEP and FWSTEP, and the module step. -/
def State.throt (s : State) (r : Region) : Nat :=
  r.districts.foldl (fun m d => let g := s.distReg d; max m (max g.step g.fwstep.toNat)) s.kiln.modStep

/-- The allotment of a region for a 1 us interval. -/
def State.allotment (s : State) (r : Region) : Nat :=
  (r.districts.foldl (fun m d => m + (s.distReg d).allot.toNat) 0) * (8 - s.throt r) / 8

/-! ### Temperatures and steps (R355, 22 R375) -/

/-- A run of refreshes: its start stands while the condition holds. -/
def runOn (cond : Bool) (since : Option Nat) (now : Nat) : Option Nat := if cond then some (since.getD now) else none

/-- One refresh of a step: rise after 100 us above, fall after 1,000 us below, each counted from the later of the run's
start and the last change of the step. Step and the two runs afterwards. -/
def stepRun (now : Nat) (above below : Bool) (step : Nat) (hot cool : Option Nat) : Nat × Option Nat × Option Nat :=
  let h := runOn above hot now
  let c := runOn below cool now
  let due (r : Option Nat) (n : Nat) : Bool := match r with
    | some t => decide (t + n ≤ now)
    | none => false
  let changed (r : Option Nat) : Option Nat := r.map fun _ => now
  if step < 7 ∧ due h 100000 = true then (step + 1, changed h, changed c)
  else if 0 < step ∧ due c 1000000 = true then (step - 1, changed h, changed c)
  else (step, h, c)

/-- The supply of a level in mV (01 Table K-7); V0 retains, with no figure. -/
def levelMv (level : Nat) : Option Nat :=
  match level with
  | 1 => some 600
  | 2 => some 720
  | 3 => some 800
  | 4 => some 860
  | _ => none

/-- DVOLT lies outside 5 % of its level (19 Table D-29). -/
def voltOut (mv level : Nat) : Bool :=
  match levelMv level with
  | some n => decide (100 * mv < 95 * n ∨ 105 * n < 100 * mv)
  | none => false

/-- The mirror of a district's sensors (22 Table F-1). -/
def State.mirrorOf (s : State) (d : Nat) : BitVec 64 :=
  let g := s.distReg d
  let (level, _, _) := s.dlevel d
  BitVec.ofNat 64 (g.temp.toNat + g.mv.toNat * 2 ^ 16 + g.ring.toNat * 2 ^ 32 + level * 2 ^ 60 +
    (if g.retired then 2 ^ 63 else 0))

/-- A district of the sensors is past TCRIT (R355). -/
def Limits.past (l : Limits) (g : DistReg) : Bool := decide (l.tcrit < g.temp.toInt)

/-- A district's step is what a refresh gives, or 7 while it is past TCRIT, with the alerts that the change raises. -/
def stepTo (l : Limits) (s : State) (d n : Nat) (hot cool : Option Nat) : State :=
  let g := s.distReg d
  let crit := l.past g
  let changed (r : Option Nat) : Option Nat := if crit && n != 7 then r.map fun _ => s.timebase else r
  let n' := if crit then 7 else n
  let s1 := s.modReg d fun g => { g with step := n', hotSince := changed hot, coolSince := changed cool, crit := crit }
  let s2 := if g.step = 0 ∧ 0 < n' then s1.alert alertThrot (some d) else s1
  if crit && !g.crit then s2.alert alertCrit (some d) else s2

/-- The refresh of a district: its steps, alerts and mirror. -/
def refreshDistrict (l : Limits) (s : State) (d : Nat) : State :=
  let g := s.distReg d
  let t := g.temp.toInt
  let (n, h, c) := stepRun s.timebase (decide (l.tthrot < t)) (decide (t < l.tthrot - 24)) g.step g.hotSince g.coolSince
  let s1 := stepTo l s d n h c
  let s2 := if voltOut g.mv.toNat (s.dlevel d).1 then s1.alert alertVolt (some d) else s1
  s2.modReg d fun g => { g with mirror := s2.mirrorOf d }

/-- POWER_INTERVAL: a change of the limits takes effect, a new TCRIT at once; every region's pool is filled anew, what was
left lapses (R354-R356). -/
def execPowerInterval (s : State) : Out :=
  let s0 := { s with timebase := max s.timebase s.nextPower, nextPower := s.nextPower + 1000, kiln := s.kiln.latchRow }
  let l := s0.kiln.limits
  let s1 := (List.range 640).foldl (fun s d =>
    let g := s.distReg d
    if l.past g == g.crit then s else stepTo l s d g.step g.hotSince g.coolSince) s0
  .next (s1.regions.foldl (fun s r =>
    if r.saved then s
    else s.modRegion r.loadId fun r => { r with pool := s1.allotment r }) s1)

/-- SENSOR_REFRESH: the sensors as the step shows them, each district packed as 22 Table F-1 packs TEMP, MV and RING (a
district that is not listed shows what it showed), and the module's power over the last 100 us; the steps move. -/
def execSensorRefresh (shown : List (Nat × BitVec 64)) (watts : BitVec 16) (s : State) : Out :=
  let s1 := { s with timebase := max s.timebase s.nextSense, nextSense := s.nextSense + 10000 }
  let s2 := shown.foldl (fun s (d, v) => s.modReg d fun g =>
    { g with temp := v.setWidth 16, mv := v.extractLsb' 16 12, ring := v.extractLsb' 32 16 }) s1
  let l := s2.kiln.limits
  let s3 := (List.range 640).foldl (refreshDistrict l) s2
  let k := s3.kiln
  let above := decide (l.pceil < watts.toNat)
  let (n, h, c) := stepRun s3.timebase above (decide (100 * watts.toNat < 95 * l.pceil)) k.modStep k.modHot k.modCool
  let s4 := { s3 with kiln := { k with modpwr := watts, modStep := n, modHot := h, modCool := c } }
  .next (if above && k.modHot.isNone then s4.alert alertPceil none else s4)

/-! ### Boost (R358, R359) -/

/-- A region at a boundary: permits after the charge, level, request under the throttle, target, and whether a district
of it is past TCRIT. -/
structure Claim where
  load : BitVec 32
  num : Nat
  districts : List Nat
  permits : Nat
  level : Nat
  want : Nat
  target : Nat
  crit : Bool
  deriving DecidableEq, Repr, Inhabited

/-- The charge of the interval that ended, and the target level before arbitration, under the limits in force. -/
def State.claimOf (s : State) (l : Limits) (r : Region) : Claim :=
  let p := if !r.firedNow then min (r.permits + 1) 64
    else if r.level = 3 then r.permits - 1 else if r.level = 4 then r.permits - 2 else r.permits
  let w := if 4 ≤ s.throt r ∧ 2 < r.want then 2 else r.want
  let cap := if 2 ≤ p then 4 else if p = 1 then 3 else 2
  { load := r.loadId, num := r.root, districts := r.districts, permits := p, level := r.level, want := w
    target := min w cap, crit := r.districts.any fun d => l.past (s.distReg d) }

/-- The die group of a district. -/
def dieGroup (d : Nat) : Nat := d / 160

/-- The districts of a claim in a die group. -/
def Claim.inGroup (c : Claim) (g : Nat) : Nat := (c.districts.filter fun d => dieGroup d == g).length

/-- The order of two claimants in a group: more permits first, then region number after TIEPREF, cyclically; the lowest
first while TIEPREF is above 639. -/
def Claim.before (tp : Nat) (a b : Claim) : Bool :=
  let key (c : Claim) : Nat := if 639 < tp then c.num else (c.num + 1280 - tp - 1) % 640
  decide (b.permits < a.permits) || (a.permits == b.permits && decide (key a ≤ key b))

/-- Puts a claim into an ordered list. -/
def Claim.insert (tp : Nat) (c : Claim) : List Claim → List Claim
  | [] => [c]
  | b :: t => if c.before tp b then c :: b :: t else b :: c.insert tp t

/-- Which claimants, taken in order, a group grants within HEAD. -/
def grantGo (g head : Nat) : Nat → List Claim → List (Claim × Bool)
  | _, [] => []
  | used, c :: t =>
    let n := used + c.inGroup g
    if n ≤ head then (c, true) :: grantGo g head n t else (c, false) :: grantGo g head used t

/-- TIEPREF after the grants: the last granted of the last permit count whose claimants did not all fare alike. -/
def tieAfter (tp : Nat) (l : List (Claim × Bool)) : Nat :=
  l.foldl (fun tp (c, ok) =>
    if ok && l.any (fun q => q.1.permits == c.permits && !q.2) then c.num else tp) tp

/-- HEAD of a group (R359): ⌊(PCEIL / 4 - WATTS) / BOOSTW⌋, at most what the register holds. -/
def headOf (pceil watts boostw : Nat) : Nat :=
  if pceil < 4 * watts then 0
  else if boostw = 0 then 0xFFFF else min 0xFFFF ((pceil - 4 * watts) / (4 * boostw))

/-- Arbitration in every group: HEAD and TIEPREF, and the claims that lose somewhere (R359). -/
def State.arbitrate (s : State) (pceil : Nat) (watts : Vector (BitVec 16) 4) (claims : List Claim) :
    State × List (BitVec 32) :=
  (List.range 4).foldl (fun (s, lost) g =>
    let k := s.kiln
    let head := headOf pceil (vget watts g).toNat k.boostw.toNat
    let tp := (vget k.tiepref g).toNat
    let order := (claims.filter fun c => decide (0 < c.inGroup g)).foldl (fun l c => c.insert tp l) []
    let out := grantGo g head 0 order
    let k' := { k with
      head := vset k.head g (BitVec.ofNat 16 head), gwatts := vset k.gwatts g (vget watts g)
      tiepref := vset k.tiepref g (BitVec.ofNat 10 (tieAfter tp out)) }
    ({ s with kiln := k' }, lost ++ (out.filter fun q => !q.2).map fun q => q.1.load)) (s, [])

/-- The next level of a claim (R358). -/
def Claim.next (c : Claim) (lost : Bool) : Nat :=
  if c.crit then 1
  else
    let t := if lost && decide (2 < c.target) then 2 else c.target
    if c.level ≤ c.want ∧ t < c.level ∧ t = c.target then c.level - 1 else t

/-- BOOST_BOUNDARY: the kiln charges permits, arbitrates and grants levels to every resident region; `w0` to `w3` are the
die groups' power over the last 100 us. A row change at the same instant counts (R358-R360). A changed level ramps within
1 us at the lower level's rates (01 R29). -/
def execBoostBoundary (w0 w1 w2 w3 : BitVec 16) (s : State) : Out :=
  let due := s.nextBoost
  let s0 := { s with timebase := max s.timebase due, nextBoost := due + 4000 }
  let l := (if s.nextPower ≤ due then s.kiln.latchRow else s.kiln).limits
  let here := s0.regions.filter fun r => !r.saved
  let s1 := here.foldl (fun s r => r.districts.foldl (fun s d => s.settlePerf d) s) s0
  let claims := here.map (s1.claimOf l)
  let (s2, lost) := s1.arbitrate l.pceil #v[w0, w1, w2, w3] (claims.filter fun c => !c.crit && decide (2 < c.target))
  .next (claims.foldl (fun s c =>
    let n := c.next (lost.contains c.load)
    s.modRegion c.load fun r =>
      { r with permits := c.permits, firedNow := false, level := n
               ramp := if n = c.level then r.ramp else some (min n c.level) }) s2)

/-- SUPPLY_RAMP_END: the region leaves the lower level's rates (01 R29). -/
def execSupplyRampEnd (load : BitVec 32) (s : State) : Out := .next (s.modRegion load fun r => { r with ramp := none })

/-! ### Weight-store refresh (04 R101) -/

/-- The hottest DTEMP of a die. -/
def State.hottest (s : State) (die : Nat) : Int :=
  (List.range 40).foldl (fun m i => max m (s.distReg (40 * die + i)).temp.toInt) (-32768)

/-- WS_REFRESH_PERIOD: at each multiple of 64 us, before which no step lets time pass, HOT of every die becomes 1 above 85
degrees, 0 below 82 (R101). -/
def execWsRefreshPeriod (s : State) : Out :=
  let s1 := { s with timebase := max s.timebase s.nextHot, nextHot := s.nextHot + 64000 }
  .next { s1 with hot := (List.range 16).foldl (fun v die =>
    let t := s1.hottest die
    if 680 < t then vset v die true else if t < 656 then vset v die false else v) s1.hot }

/-! ### Register writes of the management core as steps of their own -/

/-- ALERTST_WRITE (R361). -/
def execAlertstWrite (v : Word) (s : State) : Out := .next (alertstWrite v s)

/-- ALERTEN_WRITE (21 R371). -/
def execAlertenWrite (v : Word) (s : State) : Out := .next (alertenWrite v s)

/-- GOREADY (R362): a write to BOOTST. -/
def execGoready (v : Word) (s : State) : Out := .next (goreadyWrite v s)

/-- LIMTAB_WRITE (R356, R357). -/
def execLimtabWrite (key : Nat) (v : Word) (s : State) : Out := .next (if key < 24 then limtabWrite key v s else s)

/-- RETIRE (22 R376). -/
def execRetire (v : Word) (s : State) : Out := .next (retireWrite v s)

/-! ### Retirement (22 R376, R377) -/

/-- The number of retired districts. -/
def State.retiredCount (s : State) : Nat := (s.regs.filter fun g => g.2.retired).length

/-- CAPACITY of MODHEALTH (22 Table F-2). -/
def State.capacity (s : State) : Nat := 639 - s.retiredCount

/-- REPLACE_REQUESTED sets while CAPACITY is below REPLTH (22 R377). -/
def State.checkReplace (s : State) : State :=
  if s.capacity < s.fleet.replth.toNat then { s with fleet := { s.fleet with replace := true } } else s

/-- DISTRICT_RETIRED: a marked district in which no region is resident or saved becomes RETIRED, which is notified. -/
def execDistrictRetired (d : Nat) (s : State) : Out :=
  let g := s.distReg d
  .next (if g.retiring && !g.retired && !(s.regions.any fun r => r.districts.contains d) then
    ((s.modReg d fun g => { g with retired := true }).notify 5 0 codeRetired.toNat 0 0 0 0 d).checkReplace
  else s)

/-- REPLTH_WRITE: a write to MODHEALTH takes effect at once; it clears no REPLACE_REQUESTED (22 R377). -/
def replthWrite (v : Word) (s : State) : State :=
  { s with fleet := { s.fleet with replth := v.extractLsb' 32 10 } }.checkReplace

/-- REPLTH_WRITE. -/
def execReplthWrite (v : Word) (s : State) : Out := .next (s.hostWrites (replthWrite v))

/-- SYSFAULT: an uncorrectable soft error struck the system district (22 R377). -/
def execSysfault (s : State) : Out := .next { s with fleet := { s.fleet with sysfault := true, replace := true } }

end Sys2Proof.Machine
end

