-- ==== Sys2Proof/Machine/Launch.lean ====
section
/-! DEFINITION. Triggers, launches with pre-emption, cask saves and restores, priority tokens (16 R308-R319; 22 R376). -/

namespace Sys2Proof.Machine

/-! ### Triggers (R308, R309) -/

/-- Field of a trigger record. -/
def trigField (b : List Byte) (off n : Nat) : Nat := leNat ((b.drop off).take n)

/-- A trigger record has its reserved bytes zero, at most 6 patches, and offsets in the PARAM block (Table D-4). -/
def triggerOk (b : List Byte) : Bool :=
  let n := trigField b 2 1
  decide (trigField b 0 2 < 4096) && decide (n ≤ 6) && trigField b 3 1 == 0 && trigField b 56 8 == 0 &&
    (List.range n).all fun i =>
      trigField b (8 + 8 * i) 2 % 4 == 0 && decide (trigField b (8 + 8 * i) 2 ≤ 60) && trigField b (10 + 8 * i) 2 == 0

/-- The LASTERR code of the first check that a trigger fails; 0 for none. -/
def Bank.refusal (k : Bank) (whole : Bool) (b : List Byte) : BitVec 8 :=
  if !whole then 1
  else if !k.cfg.getLsbD 15 then 2
  else if !triggerOk b then 3
  else if 256 ≤ (k.tail - k.progress).toNat then 4
  else 0

/-- A trigger arrives at a bank: it enters the FIFO, or is dropped. -/
def triggerWrite (bank : Nat) (whole : Bool) (w : BitVec 512) (s : State) : State :=
  let b := leBytes 64 w.toNat
  let k := tgetD bank s.banks
  let e := k.refusal whole b
  let k1 := if e = 0 then { k with fifo := k.fifo ++ [(k.tail, b, false)], tail := k.tail + 1 }
    else { k with dropped := satInc k.dropped, lastErr := e }
  { s with banks := tset bank k1 s.banks }

/-- TRIGGER (R308). -/
def execTrigger (bank : Nat) (whole : Bool) (w : BitVec 512) (s : State) : Out :=
  .next (s.hostWrites (triggerWrite bank whole w))

/-- The bank that the scheduler serves next: it has a trigger not taken, and its partition is not switched out. -/
def State.nextBank (s : State) : Option Nat :=
  ((List.range 64).map fun i => (s.hostif.rr + i) % 64).find? fun b =>
    let k := tgetD b s.banks
    k.taken != k.tail && !s.switchedOut (k.cfg.extractLsb' 8 6)

/-- Writes the patches of a trigger into PARAM of an entry, in order. -/
def State.patch (s : State) (e : Nat) (b : List Byte) : State :=
  (List.range (trigField b 2 1)).foldl (fun s i =>
    s.setDep e (64 + trigField b (8 + 8 * i) 2) 4 (trigField b (12 + 8 * i) 4)) s

/-- SCHEDULE_TRIGGER: the scheduler takes the next trigger: patches, then a predecessor event; one that names an invalid
entry or another partition's completes as failed (R309). -/
def execScheduleTrigger (s : State) : Out :=
  .next (match s.nextBank with
    | none => s
    | some b =>
      let k := tgetD b s.banks
      let n := k.taken
      let s1 := { s with
        banks := tset b { k with taken := n + 1 } s.banks
        hostif := { s.hostif with rr := (b + 1) % 64 } }
      match k.fifo.find? fun f => f.1 == n with
      | none => s1
      | some (_, r, _) =>
        let e := trigField r 0 2
        if s.depValid e = false ∨ s.depPart e ≠ (k.cfg.extractLsb' 8 6).toNat then completeTrigger s1 (some (b, n)) true
        else predEvent (s1.patch e r) e (some (b, n)))

/-! ### Pre-emption (R318) -/

/-- The entry of a region's instance. -/
def Region.entryD (r : Region) : Nat := r.entry.getD 0

/-- Remaining time of a running instance. -/
def State.remaining (s : State) (r : Region) : Nat :=
  s.depEstimate r.entryD - (r.ranNs + (s.timebase - r.startedAt))

/-- The victims in the order in which they are taken: lowest priority, then largest remaining time. -/
def State.victimOrder (s : State) (l : List Region) : List Region :=
  l.mergeSort fun a b =>
    let p := s.depPriority a.entryD
    let q := s.depPriority b.entryD
    decide (p < q) || (p == q && decide (s.remaining b ≤ s.remaining a))

/-- Spends one priority token of a partition. -/
def State.spendToken (s : State) (p : Nat) : State :=
  { s with parts := tmod p (fun k => { k with tokens := k.tokens - 1 }) s.parts }

/-- The action on one victim: drain, checkpoint, kill or drain, the first that applies. A checkpoint begins with the
victim's halt, which may have to wait for its SEQs (R320). -/
def preempt (s : State) (v : Region) : State :=
  let drain := s.modRegion v.loadId fun r => { r with status := .draining }
  let p := v.part.toNat
  if s.remaining v ≤ s.hostif.drainth.toNat then drain
  else if (tgetD p s.parts).tokens = 0 then drain
  else if s.roomToSave v then askHalt ((s.spendToken p).modRegion v.loadId fun r => { r with haltAsked := true }) v
  else if s.depKillable v.entryD then killRegion (s.spendToken p) v
  else drain

/-! ### Launch (R313, R318, R319) -/

/-- An earlier waiting launch goes to the same region (R319). -/
def State.behind (s : State) (i : Nat) (load : BitVec 32) : Bool :=
  (s.hostif.waiting.take i).any fun w => !w.pending && s.depLoad w.entry == load

/-- A checkpointed region that comes before a launch of that priority in some of the districts: one of the partition with
at least that priority (R318), and one of another partition until the gang schedule takes the districts from it (R319). -/
def State.restoreFirst (s : State) (r : Region) (prio : Nat) : Bool :=
  s.regions.any fun q => q.status == .saved && q.loadId != r.loadId && (q.districts.any fun d => r.districts.contains d) &&
    (if q.part = r.part then decide (prio ≤ s.depPriority q.entryD) else !s.switchedOut q.part)

/-- The i-th waiting launch, of entry e, must wait whatever it could pre-empt: the entry has an instance (R312), its region has
one or an earlier launch, a district is to be retired, the partition is switched out, or a checkpointed region comes
first. -/
def State.launchWaits (s : State) (r : Region) (i e prio : Nat) : Bool :=
  s.hasInstance e || r.status != .idle || s.behind i r.loadId || s.switchedOut r.part || s.restoreFirst r prio ||
    r.districts.any fun d => (s.distReg d).retiring || (s.distReg d).retired

/-- A running region that a launch can only wait for: another partition's, one that drains or halts, or one of equal or
higher priority. -/
def State.unyielding (s : State) (r : Region) (prio : Nat) (q : Region) : Bool :=
  q.active && (q.part != r.part || q.status == .draining || q.gangHalt || q.haltAsked || decide (prio ≤ s.depPriority q.entryD))

/-- The launch goes ahead: districts are acquired, and the instance starts, unless a reply with its incarnation is still
out (17 R343). -/
def State.launchNow (s : State) (r : Region) (i e : Nat) (t : Option (Nat × BitVec 32)) : State :=
  match (if r.saved then s.bringIn r else some s) with
  | none => s
  | some s1 =>
    if s1.incarnationFree r (s1.nextIncarnation r) then
      startInstance { s1 with hostif := { s1.hostif with waiting := delNth i s1.hostif.waiting } } r e t
    else s

/-- A waiting launch of an entry, the i-th that waits, is taken up. -/
def State.tryLaunch (s : State) (i e : Nat) (t : Option (Nat × BitVec 32)) : State :=
  match s.regionOf (s.depLoad e) with
  | none => completeTrigger { s with hostif := { s.hostif with waiting := delNth i s.hostif.waiting } } t true
  | some r =>
    let prio := s.depPriority e
    let occ := s.occupants r.loadId r.districts
    if s.launchWaits r i e prio || occ.any (s.unyielding r prio) then s
    else
      let s1 := (s.victimOrder (occ.filter Region.active)).foldl preempt s
      if (s1.occupants r.loadId r.districts).any Region.active then s1 else s1.launchNow r i e t

/-- LAUNCH: the first waiting launch of an entry (R313). It waits, pre-empts or starts; a launch whose region has been
unloaded ends as failed (DESIGN CHOICE, log 83). -/
def execLaunch (e : Nat) (s : State) : Out :=
  .next (match findPos (fun w => w.entry == e && !w.pending) s.hostif.waiting with
    | none => s
    | some (i, w) => s.tryLaunch i e w.trigger)

/-! ### Checkpoint and restore (R318, R320) -/

/-- CASK_SAVE: a region halted for a checkpoint is saved; one whose halt waits halts, once each of its SEQs stands at an
interrupt point. What a gang instant saves is left to that instant. -/
def execCaskSave (load : BitVec 32) (s : State) : Out :=
  .next (match s.regionOf load with
    | none => s
    | some r =>
      if r.haltAsked && !r.gangHalt then askHalt s r
      else if r.active && s.mayMove r && s.roomToSave r && !s.gangDue r then saveRegion s r else s)

/-- A launch of higher priority that waits for some of a checkpointed region's districts, and for nothing else than regions
that yield to it, or drain or halt because of it: the region comes back after it (R318; that the drain of a further victim
keeps a checkpointed one out is a DESIGN CHOICE, log 161). -/
def State.launchFirst (s : State) (r : Region) : Bool :=
  (List.range s.hostif.waiting.length).any fun i =>
    let w := nth i s.hostif.waiting
    let prio := s.depPriority w.entry
    !w.pending && (match s.regionOf (s.depLoad w.entry) with
      | none => false
      | some q => q.part == r.part && (q.districts.any fun d => r.districts.contains d) &&
          decide (s.depPriority r.entryD < prio) && !s.launchWaits q i w.entry prio &&
          (s.occupants q.loadId q.districts).all fun o =>
            !o.active || (o.part == q.part && !o.gangHalt && decide (s.depPriority o.entryD < prio)))

/-- CASK_RESTORE: a saved instance comes back as soon as its districts are free, its partition is not switched out, and no
waiting launch of higher priority takes them. -/
def execCaskRestore (load : BitVec 32) (s : State) : Out :=
  .next (match s.regionOf load with
    | none => s
    | some r =>
      if r.status = .saved ∧ s.switchedOut r.part = false ∧ s.launchFirst r = false ∧
          (s.occupants r.loadId r.districts).all (fun q => q.status == .idle) = true then (s.bringIn r).getD s
      else s)

/-! ### Unload (R307) -/

/-- A dependence entry that is valid names a region. -/
def State.named (s : State) (load : BitVec 32) : Bool :=
  (List.range 4096).any fun e => s.depValid e && s.depLoad e == load

/-- A loaded region is released: its districts and cask slots become free, and its LOADID names nothing any more. -/
def State.release (s : State) (r : Region) : State :=
  let s1 := if r.saved then s.dropContexts r
    else r.districts.foldl vacate (s.endCapture r.districts)
  { s1 with
    regions := s1.regions.filter fun q => q.loadId != r.loadId
    husks := if r.saved then s1.husks else s1.husks.filter fun h => !r.districts.contains (elemDist h.elem)
    hostif := { s1.hostif with
      bellHeld := s1.hostif.bellHeld.filter fun (d, p) => !(p == r.part && r.districts.contains d) } }

/-- A write to UNLOAD arrives: it is pending (0), or ignored (3) because an earlier one still is. -/
def unloadWrite (v : BitVec 64) (s : State) : State :=
  if s.hostif.unload.isSome then { s with hostif := { s.hostif with unloadSt := 3 } }
  else { s with hostif := { s.hostif with unload := some v, unloadSt := 0 } }

/-- The device carries the pending unload out: done (1) or refused (2). -/
def carryUnload (s : State) : State :=
  match s.hostif.unload with
  | none => s
  | some v =>
    let st (n : BitVec 2) (s : State) : State := { s with hostif := { s.hostif with unload := none, unloadSt := n } }
    match s.regionOf (v.setWidth 32) with
    | none => st 2 s
    | some r => if v.toNat / 2 ^ 32 ≠ 0 ∨ r.status ≠ .idle ∨ s.named r.loadId = true then st 2 s else st 1 (s.release r)

/-- UNLOAD: a write that is pending is carried out, one that finds none pending arrives and is carried out; another than
the pending one is ignored (DESIGN CHOICE, log 120). -/
def execUnload (v : BitVec 64) (s : State) : Out :=
  if s.hostif.unload.any fun u => u != v then .next (s.hostWrites (unloadWrite v))
  else if s.hostif.unload.isSome then .next (carryUnload s)
  else .next (s.hostWrites fun s => carryUnload (unloadWrite v s))

/-! ### Priority tokens (R317) -/

/-- PRIORITY_TOKEN_REFILL: at each ms every partition gains TOKRATE tokens, up to TOKMAX. -/
def execPriorityTokenRefill (s : State) : Out :=
  let s1 := { s with timebase := max s.timebase s.nextTok, nextTok := s.nextTok + 1000000 }
  .next { s1 with parts := (List.range 64).foldl (fun l p => tmod p (fun k =>
    if k.tokMax.toNat ≤ k.tokens.toNat then k
    else { k with tokens := BitVec.ofNat 8 (min k.tokMax.toNat (k.tokens.toNat + k.tokRate.toNat)) }) l) s1.parts }

end Sys2Proof.Machine
end

