-- ==== Sys2Proof/Machine/Plf.lean ====
section
/-! DEFINITION. Module files: header, sections, grist records, handlers, data, weights, relocations, symbols, and the
file checks of a load (14 R265-R279). -/

namespace Sys2Proof.Machine

/-- A refusal of a load: what its status record names (15 R297, R298, Tables C-11, C-12). -/
structure LoadErr where
  code : Nat
  sub : Nat := 0
  id1 : Nat := 0xFFFF
  id2 : Nat := 0xFFFF
  dist : Nat := 0xFFFF
  slot : Nat := 0
  word : Nat := 0
  deriving DecidableEq, Repr, Inhabited

/-- Load error codes (15 Table C-12). -/
abbrev ldBadMagic : Nat := 0x01
abbrev ldBadVersion : Nat := 0x02
abbrev ldBadSection : Nat := 0x03
abbrev ldBadRecord : Nat := 0x04
abbrev ldTextSize : Nat := 0x05
abbrev ldDataRange : Nat := 0x06
abbrev ldRelocRange : Nat := 0x07
abbrev ldDupField : Nat := 0x08
abbrev ldBadFetch : Nat := 0x09
abbrev ldBadCmd : Nat := 0x0A
abbrev ldGenNewer : Nat := 0x10
abbrev ldPlaneCount : Nat := 0x11
abbrev ldNoRoom : Nat := 0x12
abbrev ldKindRoute : Nat := 0x13
abbrev ldRotSize : Nat := 0x14
abbrev ldVcShared : Nat := 0x15
abbrev ldReqClass : Nat := 0x16
abbrev ldCycle : Nat := 0x17
abbrev ldRotShape : Nat := 0x18
abbrev ldMeter : Nat := 0x19
abbrev ldReconvRate : Nat := 0x1A
abbrev ldReconvSkew : Nat := 0x1B
abbrev ldLinkFull : Nat := 0x1C
abbrev ldLinkShared : Nat := 0x1D
abbrev ldRouteOrder : Nat := 0x1E
abbrev ldCommit : Nat := 0x1F

/-- A check of a load. -/
abbrev Check := Except LoadErr

/-- A check that refuses with a code where a test fails. -/
def need (ok : Bool) (e : LoadErr) : Check Unit := if ok then .ok () else .error e

/-- A field of a list of bytes, little-endian. -/
abbrev plfField (b : List Byte) (off n : Nat) : Nat := blockField b off n

/-- Bytes of a list are zero. -/
def zeroAt (b : List Byte) (off n : Nat) : Bool := plfField b off n == 0

/-! ### Header and sections (R265, R266) -/

/-- A section of a file. -/
structure Section where
  type : Nat
  link : Nat
  off : Nat
  data : List Byte
  deriving DecidableEq, Repr, Inhabited

/-- ENTSIZE of a section type (Table C-2). -/
def entSize (type : Nat) : Nat := if type = 3 then 28 else if type = 6 then 16 else 0

/-- A section-table entry with its data; none where the entry or the section breaks R266. The file ends where FILESIZE or
the bytes fetched end (DEDUCED, log 74). -/
def parseSection (file : List Byte) (len : Nat) (ent : List Byte) : Option Section :=
  let f (off n : Nat) := plfField ent off n
  let type := f 0 2
  if 1 ≤ type ∧ type ≤ 8 ∧ f 4 4 = 0 ∧ f 8 8 % 16 = 0 ∧ f 8 8 + f 16 8 ≤ len ∧ f 24 4 = 16 ∧ f 28 4 = entSize type then
    some { type := type, link := f 2 2, off := f 8 8, data := (file.drop (f 8 8)).take (f 16 8) }
  else none

/-- Two sections share a byte. -/
def Section.overlaps (a b : Section) : Bool :=
  decide (a.off < b.off + b.data.length) && decide (b.off < a.off + a.data.length)

/-- No two of a list of sections overlap. -/
def noOverlap : List Section → Bool
  | [] => true
  | a :: t => (t.all fun b => !a.overlaps b) && noOverlap t

/-- LINK of a section (Table C-2). -/
def Section.linkOk (l : List Section) (a : Section) : Bool :=
  match a.type with
  | 2 => true
  | 6 => decide (a.link < l.length)
  | 1 | 7 => a.link == 0xFFFF
  | _ => ((l[a.link]?).map fun g => g.type == 1).getD false

/-- The sections of a file: the checks BAD_MAGIC, BAD_VERSION and BAD_SECTION of Table C-5. -/
def parseSections (file : List Byte) : Check (List Section) := do
  let f (off n : Nat) := plfField file off n
  need (f 0 4 == 0x1A464C50) { code := ldBadMagic }
  need (f 4 2 == 1 && decide (f 6 2 < 2) && f 10 2 == 0 && f 28 4 == 0 && zeroAt file 32 32) { code := ldBadVersion }
  let len := min (f 16 8) file.length
  let n := f 8 2
  let off := f 12 4
  let bad : LoadErr := { code := ldBadSection }
  need (decide (1 ≤ n) && decide (n ≤ 1024) && off % 8 == 0 && decide (off + 32 * n ≤ len)) bad
  let l := (List.range n).filterMap fun i => parseSection file len ((file.drop (off + 32 * i)).take 32)
  need (l.length == n && noOverlap l && l.all (·.linkOk l)) bad
  need ((l.filter (·.type == 7)).length == 1 && l.any (·.type == 1)) bad
  return l

/-! ### Grist records (R267-R271) -/

/-- A setting of an ELEMENT record: page, field, value. -/
structure Setting where
  page : Nat
  field : Nat
  value : W32
  deriving DecidableEq, Repr, Inhabited

/-- An ELEMENT record; `kind` counts as Table C-3 does. -/
structure GElem where
  id : Nat
  kind : Nat
  settings : List Setting
  deriving DecidableEq, Repr, Inhabited

/-- An EDGE record. -/
structure GEdge where
  src : Nat
  sout : Nat
  ch : Nat
  dst : Nat
  dport : Nat
  deriving DecidableEq, Repr, Inhabited

/-- A ROTATION record. -/
structure GRot where
  head : Nat
  slots : Nat
  initReg : Nat
  loopCh : Nat
  opndCh : Nat
  admitCh : Nat
  annCh : Nat
  flags : Nat
  deriving DecidableEq, Repr, Inhabited

/-- A NODE record. -/
structure GNode where
  id : Nat
  kind : Nat
  lag : Nat
  parent : Option Nat
  text : Nat
  entry : Nat
  estimate : Nat
  priority : Nat
  stack : Nat
  deriving DecidableEq, Repr, Inhabited

/-- A LEAF record. -/
structure GLeaf where
  id : Nat
  node : Nat
  elems : List Nat
  deriving DecidableEq, Repr, Inhabited

/-- A VC record. -/
structure GVc where
  elem : Nat
  ch : Nat
  vce : Nat
  sat : Nat
  deriving DecidableEq, Repr, Inhabited

/-- A PARAM record. -/
structure GParam where
  elem : Nat
  reg : Nat
  value : W32
  deriving DecidableEq, Repr, Inhabited

/-- A CAP record. -/
structure GCap where
  kreg : Nat
  node : Option Nat
  cap : Cap
  deriving DecidableEq, Repr, Inhabited

/-- A grist, its records in order. -/
structure Grist where
  gen : Nat := 1
  nelem : Nat := 0
  nnode : Nat := 0
  elems : List GElem := []
  edges : List GEdge := []
  rots : List GRot := []
  nodes : List GNode := []
  leaves : List GLeaf := []
  /-- the file has no LEAF record, and leaf 0 stands for it (R270) -/
  noLeaf : Bool := false
  vcs : List GVc := []
  params : List GParam := []
  objects : List (Nat × Nat) := []
  caps : List GCap := []
  deriving DecidableEq, Repr, Inhabited

/-- The ELEMENT record of an id. -/
def Grist.elem (g : Grist) (id : Nat) : Option GElem := g.elems.find? fun e => e.id == id

/-- An id is that of an element of a kind. -/
def Grist.isKind (g : Grist) (id kind : Nat) : Bool := ((g.elem id).map fun e => e.kind == kind).getD false

/-- The kind of element that a record's KIND names (Table C-3). -/
def gristKind (k : Nat) : Kind :=
  match k with
  | 0 => .pe
  | 1 => .mt
  | 2 => .mn
  | 3 => .ro
  | 4 => .sel
  | 5 => .mon
  | _ => .dec

/-- A setting that a grist may not make: routes, OUTE, LEAFNO and the rotation page are Birgil's (R268); FPAGE and what a
FIELD word cannot number are no fields of a page (06 R134; DEDUCED, log 129). -/
def Setting.reserved (kind : Nat) (q : Setting) : Bool :=
  decide (63 ≤ q.field) || if kind = 0 then q.page == 4 || q.page == 5 || q.page == 6 || (q.page == 0 && q.field == 56) else q.page == 1

/-- The n settings of an ELEMENT record. -/
def parseSettings : Nat → List Byte → List Setting
  | 0, _ => []
  | n + 1, b => ⟨plfField b 0 1, plfField b 1 1, BitVec.ofNat 32 (plfField b 4 4)⟩ :: parseSettings n (b.drop 8)

/-- The n half-words of a list of bytes. -/
def parseHalves : Nat → List Byte → List Nat
  | 0, _ => []
  | n + 1, b => plfField b 0 2 :: parseHalves n (b.drop 2)

/-- The LEN that Table C-3 gives a record; none for a TAG that is not assigned. -/
def recordLen (b : List Byte) : Option Nat :=
  match plfField b 0 2 with
  | 1 => some 16
  | 2 => some (12 + 8 * plfField b 7 1)
  | 3 => some 12
  | 4 => some 16
  | 5 => some 28
  | 6 => some ((12 + 2 * plfField b 8 2 + 3) / 4 * 4)
  | 7 => some 12
  | 8 => some 12
  | 9 => some 24
  | 10 => some 32
  | _ => none

/-- Adds one record of its right length to a grist; none where it breaks R267 to R270. -/
def Grist.add (g : Grist) (b : List Byte) : Option Grist :=
  let f (off n : Nat) := plfField b off n
  match f 0 2 with
  | 2 =>
    let e : GElem := { id := f 4 2, kind := f 6 1, settings := parseSettings (f 7 1) (b.drop 12) }
    let pads := (List.range (f 7 1)).all fun i => zeroAt b (14 + 8 * i) 2
    if e.kind ≤ 6 ∧ (g.elem e.id).isNone = true ∧ pads = true ∧ (e.settings.any fun q => q.reserved e.kind) = false then
      some { g with elems := g.elems ++ [e] } else none
  | 3 =>
    let e : GEdge := { src := f 4 2, sout := f 6 1, ch := f 7 1, dst := f 8 2, dport := f 10 1 }
    let outOk := if g.isKind e.src 0 then decide (e.sout < 32) else e.sout == 0xFF
    let inOk := if g.isKind e.dst 1 then decide (e.dport < 5) else e.dport == 0xFF
    if (g.elem e.src).isSome = true ∧ (g.elem e.dst).isSome = true ∧ outOk = true ∧ inOk = true ∧ e.ch < 32 ∧ f 11 1 = 0 then
      some { g with edges := g.edges ++ [e] } else none
  | 4 =>
    let r : GRot := { head := f 4 2, slots := f 6 1, initReg := f 7 1, loopCh := f 8 1, opndCh := f 9 1, admitCh := f 10 1
                      annCh := f 11 1, flags := f 12 1 }
    if g.isKind r.head 0 = true ∧ r.initReg < 32 ∧ r.loopCh < 32 ∧ r.opndCh < 32 ∧ r.admitCh < 32 ∧ r.annCh < 32 ∧
        r.flags < 4 ∧ f 13 3 = 0 then
      some { g with rots := g.rots ++ [r] } else none
  | 5 =>
    let par := f 8 2
    let n : GNode := { id := f 4 2, kind := f 6 1, lag := f 7 1, parent := if par = 0xFFFF then none else some par
                       text := f 10 2, entry := f 16 4, estimate := f 20 4, priority := f 24 1, stack := f 26 2 }
    let lagOk := if n.kind = 1 then decide (1 ≤ n.lag) && decide (n.lag ≤ 4) else n.lag == 0
    let parOk := match n.parent with
      | none => n.id == 0
      | some q => n.id != 0 && g.nodes.any fun m => m.id == q
    if n.id = g.nodes.length ∧ n.kind ≤ 2 ∧ lagOk = true ∧ parOk = true ∧ n.priority ≤ 7 ∧ f 25 1 = 0 ∧ n.stack ≤ 4096 then
      some { g with nodes := g.nodes ++ [n] } else none
  | 6 =>
    let n := f 8 2
    let l : GLeaf := { id := f 4 2, node := f 6 2, elems := parseHalves n (b.drop 12) }
    if (g.nodes.any fun m => m.id == l.node) = true ∧ (g.leaves.any fun q => q.id == l.id) = false ∧ f 10 2 = 0 ∧
        (l.elems.all fun e => (g.elem e).isSome) = true ∧ (b.drop (12 + 2 * n)).all (fun x => x == 0) = true then
      some { g with leaves := g.leaves ++ [l] } else none
  | 7 =>
    let v : GVc := { elem := f 4 2, ch := f 6 1, vce := f 8 2, sat := f 10 1 }
    if g.isKind v.elem 0 = true ∧ v.ch < 32 ∧ v.sat ≤ 1 ∧ f 7 1 = 0 ∧ f 11 1 = 0 then
      some { g with vcs := g.vcs ++ [v] } else none
  | 8 =>
    let p : GParam := { elem := f 4 2, reg := f 6 1, value := BitVec.ofNat 32 (f 8 4) }
    if g.isKind p.elem 0 = true ∧ p.reg < 64 ∧ f 7 1 = 0 then some { g with params := g.params ++ [p] } else none
  | 9 =>
    let o := f 4 4
    if 1 ≤ o ∧ o ≤ 0xFFFFFE ∧ f 16 1 ≤ 2 ∧ f 17 1 ≤ 2 ∧ f 18 2 = 0 ∧ (g.objects.any fun q => q.1 == o) = false then
      some { g with objects := g.objects ++ [(o, f 8 8)] } else none
  | 10 =>
    let node := f 6 2
    let obj := f 8 4
    if 1 ≤ f 4 1 ∧ f 4 1 ≤ 15 ∧ f 5 1 = 0 ∧ f 13 3 = 0 ∧ f 16 8 < 2 ^ 40 ∧ f 24 8 < 2 ^ 40 ∧
        (node == 0xFFFF || g.nodes.any fun m => m.id == node) = true ∧
        (obj == 0xFFFFFF || g.objects.any fun q => q.1 == obj) = true then
      some { g with caps := g.caps ++ [{
        kreg := f 4 1, node := if node = 0xFFFF then none else some node
        cap := capMake (BitVec.ofNat 40 (f 24 8)) (BitVec.ofNat 40 (f 16 8)) (BitVec.ofNat 8 (f 12 1)) (BitVec.ofNat 24 obj) }] }
    else none
  | _ => none

/-- The refusal of a record: it names the id in bytes 4 and 5 (DEDUCED, log 75). -/
def recordErr (b : List Byte) : LoadErr := { code := ldBadRecord, id1 := plfField b 4 2 }

/-- The records of a section after the first; `n` bounds their number. -/
def parseRecords : Nat → List Byte → Grist → Check Grist
  | 0, _, g => .ok g
  | n + 1, b, g =>
    if b.isEmpty then .ok g
    else match recordLen b with
      | none => .error (recordErr b)
      | some len =>
        if plfField b 2 2 ≠ len ∨ b.length < len then .error (recordErr b)
        else match g.add (b.take len) with
          | none => .error (recordErr b)
          | some g' => parseRecords n (b.drop len) g'

/-- Leaf 0 with every element where there is no LEAF record (R270). -/
def Grist.withLeaf (g : Grist) : Grist :=
  if g.leaves.isEmpty then { g with leaves := [{ id := 0, node := 0, elems := g.elems.map (·.id) }], noLeaf := true } else g

/-- A GRIST section: record 1 first, counts as it gives them, every element in a leaf (R267, R270). -/
def parseGrist (b : List Byte) : Check Grist := do
  let bad : LoadErr := { code := ldBadRecord }
  need (plfField b 0 2 == 1 && plfField b 2 2 == 16 && decide (16 ≤ b.length) && zeroAt b 14 2 && plfField b 12 2 != 0) bad
  let g ← parseRecords b.length (b.drop 16) { gen := plfField b 12 2, nelem := plfField b 8 2, nnode := plfField b 10 2 }
  need (g.elems.length == g.nelem && g.nodes.length == g.nnode) bad
  let g' := g.withLeaf
  match g'.elems.find? fun e => !(g'.leaves.any fun l => l.elems.contains e.id) with
  | some e => .error { code := ldBadRecord, id1 := e.id }
  | none => return g'

/-! ### Handlers (R272), data and weights (R273, R274) -/

/-- A HANDLERS entry. -/
structure GHandler where
  elem : Nat
  h : Nat
  fatal : Nat
  words : List W32
  deriving DecidableEq, Repr, Inhabited

/-- The entries of HANDLERS sections; `n` bounds their number. -/
def parseHandlers : Nat → List Byte → List GHandler
  | 0, _ => []
  | n + 1, b =>
    if b.isEmpty then []
    else { elem := plfField b 0 2, h := plfField b 2 1, fatal := plfField b 3 1, words := wordsOf 6 (b.drop 4) } ::
      parseHandlers n (b.drop 28)

/-- A DATA or WEIGHTS record: where, offset, bytes. -/
structure DataRec where
  tile : Nat
  off : Nat
  bytes : List Byte
  deriving DecidableEq, Repr, Inhabited

/-- The records of a DATA section; none where one is cut short or its zero word is not zero. -/
def parseData : Nat → List Byte → Option (List DataRec)
  | 0, _ => some []
  | n + 1, b =>
    if b.isEmpty then some []
    else
      let len := plfField b 8 4
      let size := 16 + (len + 15) / 16 * 16
      if b.length < size ∨ plfField b 12 4 ≠ 0 then none
      else (parseData n (b.drop size)).map fun t =>
        { tile := plfField b 0 4, off := plfField b 4 4, bytes := (b.drop 16).take len } :: t

/-- The records of a WEIGHTS section; none where one is cut short. -/
def parseWeights : Nat → List Byte → Option (List DataRec)
  | 0, _ => some []
  | n + 1, b =>
    if b.isEmpty then some []
    else
      let len := plfField b 8 8
      let size := 16 + (len + 63) / 64 * 64
      if b.length < size then none
      else (parseWeights n (b.drop size)).map fun t =>
        { tile := 0, off := plfField b 0 8, bytes := (b.drop 16).take len } :: t

/-- No two records overlap. -/
def dataApart : List DataRec → Bool
  | [] => true
  | a :: t => (t.all fun b => decide (a.off + a.bytes.length ≤ b.off) || decide (b.off + b.bytes.length ≤ a.off)) && dataApart t

/-! ### Symbols and relocations (R275-R277) -/

/-- A symbol: kind and value. -/
structure Sym where
  kind : Nat
  value : Nat
  deriving DecidableEq, Repr, Inhabited

/-- The symbols of a SYMTAB section; none where it is cut short. -/
def parseSyms (b : List Byte) : Option (List Sym) :=
  let n := plfField b 0 4
  if b.length < 8 + 24 * n + plfField b 4 4 then none
  else some ((List.range n).map fun i =>
    let e := (b.drop (8 + 24 * i)).take 24
    { kind := plfField e 4 1, value := plfField e 12 8 })

/-- A RELOC entry with the section it patches. -/
structure Reloc where
  target : Nat
  off : Nat
  kind : Nat
  sym : Nat
  addend : Int
  deriving DecidableEq, Repr, Inhabited

/-- The entries of a RELOC section; `n` bounds their number. -/
def parseRelocs (target : Nat) : Nat → List Byte → List Reloc
  | 0, _ => []
  | n + 1, b =>
    if b.length < 16 then []
    else { target := target, off := plfField b 0 4, kind := plfField b 4 2, sym := plfField b 8 4
           addend := (BitVec.ofNat 32 (plfField b 12 4)).toInt } :: parseRelocs target n (b.drop 16)

/-- First bit and number of the bits that a relocation patches (Table C-4); none for a KIND that is not assigned. -/
def Reloc.span (r : Reloc) : Option (Nat × Nat) :=
  match r.kind with
  | 1 | 2 | 3 => some (8 * r.off, 32)
  | 4 => some (8 * r.off, 21)
  | 5 => some (8 * r.off, 15)
  | 6 => some (8 * r.off + 13, 19)
  | 7 => some (8 * r.off, 64)
  | _ => none

/-- Two relocations patch a common bit. -/
def Reloc.clash (a b : Reloc) : Bool :=
  match a.span, b.span with
  | some (x, n), some (y, m) => a.target == b.target && decide (x < y + m) && decide (y < x + n)
  | _, _ => false

/-- No two of a list clash. -/
def relocsApart : List Reloc → Bool
  | [] => true
  | a :: t => (t.all fun b => !a.clash b) && relocsApart t

/-! ### A module -/

/-- A module file as read and checked: its sections, the grist placed, and what hangs on it. -/
structure Plf where
  sections : List Section
  grist : Grist
  /-- the index of the grist section -/
  index : Nat
  gristBytes : List Byte
  syms : List Sym
  relocs : List Reloc
  deriving DecidableEq, Repr, Inhabited

/-- The sections of a type that belong to the grist. -/
def Plf.parts (p : Plf) (type : Nat) : List Section := p.sections.filter fun s => s.type == type && s.link == p.index

/-- Every handler of the grist. -/
def Plf.handlers (p : Plf) : List GHandler := (p.parts 3).flatMap fun s => parseHandlers s.data.length s.data

/-- Every DATA record. -/
def Plf.dataRecs (p : Plf) : List DataRec := (p.parts 4).flatMap fun s => (parseData s.data.length s.data).getD []

/-- Every WEIGHTS record. -/
def Plf.weightRecs (p : Plf) : List DataRec := (p.parts 5).flatMap fun s => (parseWeights s.data.length s.data).getD []

/-- A stage word of a handler of an element: of its HANDLERS entry, else of an ELEMENT setting of that field (14 R268). -/
def Grist.wordOf (g : Grist) (hs : List GHandler) (elem h s : Nat) : Nat :=
  match hs.find? fun q => q.elem == elem && q.h == h with
  | some q => (nth s q.words).toNat
  | none => ((g.elems.filter fun x => x.id == elem).flatMap fun x =>
      (x.settings.filter fun q => q.page == 0 && q.field == 6 * h + s).map fun q => q.value.toNat).headD 0

/-- The entries of OUTE, by 4h + i, that the EDGE records of a grist name for an edge (R269). At a rotation head
selectors 2 and 3 name the entries of the handler on LOOPCH. A further record with the selector n < 4 of the edge is handler
0's own, 4h + n for h = 0. -/
def Grist.namedBy (g : Grist) (hs : List GHandler) (e : GEdge) : List Nat :=
  if e.sout = 0xFF then []
  else if 4 ≤ e.sout then [e.sout]
  else
    let outs := (g.edges.filter fun q => q.src == e.src).map (·.sout)
    let own := (outs.filter fun n => decide (4 ≤ n)) ++ if 2 ≤ outs.count e.sout then [e.sout] else []
    let rotH := (List.range 8).find? fun h => g.wordOf hs e.src h 0 / 2 ^ 26 == 6
    let special := match rotH with
      | some h => if (g.rots.any fun r => r.head == e.src) && decide (2 ≤ e.sout) then [4 * h + e.sout] else []
      | none => []
    ((((List.range 8).filter fun h => (g.wordOf hs e.src h 5).testBit e.sout).map fun h => 4 * h + e.sout) ++ special).eraseDups.filter
      fun k => !own.contains k

/-- The fields that a ROTATION record gives its head (Table C-3; 09 Table K-104), by 64 page + field. -/
def rotKeys : List Nat := [0, 1, 4, 5, 6, 7, 8, 9, 10].map fun f => 64 * 6 + f

/-- The VCSAT fields that the VC records of an element write. -/
def Grist.satKeys (g : Grist) (e : GElem) : List Nat :=
  [0, 1].filterMap fun k =>
    if g.vcs.any fun v => v.elem == e.id && v.ch / 16 == k then some (64 + 32 + k) else none

/-- The fields of an element that a grist writes, by 64 page + field, each as often as it does; the SAT bits of its VC
records together are one write. -/
def Grist.keysOf (g : Grist) (hs : List GHandler) (e : GElem) : List Nat :=
  (e.settings.map fun q => 64 * q.page + q.field) ++ g.satKeys e ++
  ((g.rots.filter fun r => r.head == e.id).flatMap fun _ => rotKeys) ++
  ((g.vcs.filter fun v => v.elem == e.id).map fun v => 64 + v.ch) ++
  ((g.params.filter fun p => p.elem == e.id).map fun p => 128 + p.reg % 32 + 64 * (p.reg / 32)) ++
  ((hs.filter fun h => h.elem == e.id).flatMap fun h => (48 + h.h) :: (List.range 6).map fun s => 6 * h.h + s)

/-- Whether bytes of a DATA record may lie where they do, as far as the file alone says (R273). -/
def Plf.dataOk (p : Plf) (ndist : Nat) (r : DataRec) : Bool :=
  decide (r.off + r.bytes.length ≤ tileSize) &&
    (if 2 ^ 31 ≤ r.tile then p.grist.isKind (r.tile - 2 ^ 31) 1 else decide (r.tile < 250 * ndist))

/-- The file checks of Table C-5 from BAD_RECORD to DUP_FIELD; `ndist` is NDIST, `grant` the bytes of the partition's
weight-store grant. Of several grists the first is placed (DESIGN CHOICE, log 78). -/
def parsePlf (file : List Byte) (ndist grant : Nat) : Check Plf := do
  let l ← parseSections file
  let syms := ((l.find? fun s => s.type == 7).bind fun s => parseSyms s.data)
  need syms.isSome { code := ldBadSection }
  need (l.all fun s => s.type != 3 || s.data.length % 28 == 0) { code := ldBadSection }
  let idx := (findPos (fun (s : Section) => s.type == 1) l).map (·.1)
  let i := idx.getD 0
  let gb := (nth i l).data
  let g ← parseGrist gb
  let relocs := (l.filter fun s => s.type == 6).flatMap fun s => parseRelocs s.link s.data.length s.data
  let p : Plf := { sections := l, grist := g, index := i, gristBytes := gb, syms := syms.getD [], relocs := relocs }
  let hs := p.handlers
  (g.nodes.forM fun n => need ((l[n.text]?).map (fun s => s.type == 2 && s.link == n.id) |>.getD false)
    { code := ldBadRecord, id1 := n.id })
  (hs.forM fun h => need (g.isKind h.elem 0 && decide (h.h < 8) && decide (h.fatal < 32)) { code := ldBadRecord, id1 := h.elem })
  (g.edges.forM fun e => need (e.sout == 0xFF || decide (4 ≤ e.sout) || !(g.namedBy hs e).isEmpty)
    { code := ldBadRecord, id1 := e.src })
  (g.rots.forM fun r => need (decide ((g.edges.filter fun e => e.src == r.head && e.sout == 3).length ≤ 1))
    { code := ldBadRecord, id1 := r.head })
  need (l.all fun s => s.type != 2 || (s.data.length % 4 == 0 && decide (s.data.length ≤ 262144))) { code := ldTextSize }
  let range : LoadErr := { code := ldDataRange }
  need ((p.parts 4).all fun s => (parseData s.data.length s.data).isSome) range
  need ((p.parts 5).all fun s => (parseWeights s.data.length s.data).isSome) range
  need (p.dataRecs.all fun r => p.dataOk ndist r) range
  need (p.weightRecs.all fun r => r.off % 64 == 0 && decide (r.off + r.bytes.length ≤ grant)) range
  need (dataApart p.weightRecs) range
  need (relocs.all fun r => r.span.isSome && decide (r.sym < p.syms.length) &&
    decide (r.off + (if r.kind = 7 then 8 else 4) ≤ (nth r.target l).data.length)) { code := ldRelocRange }
  (g.elems.forM fun e => need (decide (g.keysOf hs e).Nodup) { code := ldDupField, id1 := e.id })
  need (relocsApart relocs) { code := ldDupField }
  return p

end Sys2Proof.Machine
end

