-- ==== Sys2Proof/Machine/Mash.lean ====
section
/-! DEFINITION. From grist to mash: planes, placement, plane images, and the deadlock and placement checks of a load
(15 R286-R296; 14 R268-R272). -/

namespace Sys2Proof.Machine

/-! ### Planes (15 R286) -/

/-- A node lies at or below another; `n` bounds the depth. -/
def Grist.below (g : Grist) (top : Nat) : Nat → Nat → Bool
  | 0, _ => false
  | n + 1, k =>
    if k = top then true
    else match (g.nodes.find? fun m => m.id == k).bind (·.parent) with
      | some p => g.below top n p
      | none => false

/-- Leaves grouped by plane: those below one concurrent or staggered node share a plane, taken transitively; planes in the
order of their lowest leaf number. -/
def Grist.planes (g : Grist) : List (List Nat) :=
  let start := g.leaves.map fun l => [l.id]
  let merged := (g.nodes.filter fun m => m.kind != 0).foldl (fun gs m =>
    let under := (g.leaves.filter fun l => g.below m.id (g.nodes.length + 1) l.node).map (·.id)
    let (hit, rest) := gs.partition fun q => q.any under.contains
    if hit.isEmpty then rest else hit.flatten :: rest) start
  let low (l : List Nat) : Nat := l.foldl min 0xFFFF
  merged.mergeSort fun a b => decide (low a ≤ low b)

/-- The elements of a plane. -/
def Grist.inPlane (g : Grist) (leaves : List Nat) (id : Nat) : Bool :=
  g.leaves.any fun l => leaves.contains l.id && l.elems.contains id

/-- The edges of a plane, with their numbers. -/
def Grist.planeEdges (g : Grist) (leaves : List Nat) : List (Nat × GEdge) :=
  ((List.range g.edges.length).map fun i => (i, nth i g.edges)).filter fun q =>
    g.inPlane leaves q.2.src && g.inPlane leaves q.2.dst

/-- The leaf number of an element in a plane: the lowest that names it. -/
def Grist.leafIn (g : Grist) (leaves : List Nat) (id : Nat) : Nat :=
  ((g.leaves.filter fun l => leaves.contains l.id && l.elems.contains id).map (·.id)).foldl min 0xFFFF

/-! ### Placement (15 R287) -/

/-- The place of a grist element. -/
def mashAt (m : Config.Mash) (g : Grist) (id : Nat) : Nat :=
  match findPos (fun (e : GElem) => e.id == id) g.elems with
  | some (i, _) => nth i m.place
  | none => 0

/-- The grist id of the MT that a MON watches: the value of its WIDX setting, which Birgil replaces (14 R281; that the file
holds it so is DEDUCED, log 129); none where it watches the PORT. -/
def GElem.watched (e : GElem) : Option Nat :=
  let v (f : Nat) : Option Nat := (e.settings.find? fun q => q.page == 0 && q.field == f).map fun q => q.value.toNat
  if e.kind = 5 ∧ v 0 ≠ some 5 then v 1 else none

/-- An element with a unit number, which a SEQ of its own district commands (06 R122). -/
def GElem.hasUnit (e : GElem) : Bool := decide (2 ≤ e.kind)

/-- The nodes that may command an element: those of the leaves that hold it, and any where the file has no LEAF record
(DEDUCED, log 157; 14 R270). -/
def Grist.commanders (g : Grist) (id : Nat) : List Nat :=
  if g.noLeaf then List.range g.nodes.length else (g.leaves.filter fun l => l.elems.contains id).map (·.node)

/-- A placement keeps R287: every element on a square of its kind in a granted district, no two on one, what has a unit
number in the district of the node that commands it, a MON in the district of what it watches; padding elements on further
squares of pipeline elements. The mash splits no ordered reduction: one element's tree is that of R76 (DESIGN CHOICE, log
158). -/
def mashPlaced (m : Config.Mash) (g : Grist) (ds : List Nat) : Bool :=
  let inside (e : Nat) := ds.contains (elemDist e)
  let commanded (x : GElem) (e : Nat) := (g.commanders x.id).any fun n => ds[n]? == some (elemDist e)
  let near (x : GElem) (e : Nat) := match x.watched with
    | none => true
    | some w => elemDist (mashAt m g w) == elemDist e
  m.place.length == g.elems.length &&
    (List.range g.elems.length).all (fun i =>
      let x := nth i g.elems
      let e := nth i m.place
      inside e && elemKind e == gristKind x.kind && (!x.hasUnit || commanded x e) && near x e) &&
    m.pads.all (fun p => inside p.2 && elemKind p.2 == .pe && decide (p.1 < g.edges.length)) &&
    decide (m.place ++ m.pads.map (·.2)).Nodup

/-! ### Plane images (14 R268-R272; 09 R230; 15 R285) -/

/-- The fields that Birgil decides by itself: routes, OUTE entries, CFGBASE, the maps of SEQ and PORT, LEAFNO of a padding
element (R268; 10 R234). -/
def birgilWrites (k : Kind) (pad : Bool) (key : Nat) : Bool :=
  let page := key / 64
  match k with
  | .pe => page == 4 || page == 5 || (pad && key == 56)
  | .mt => page == 1 || key == 62
  | .seq | .port => true
  | _ => page == 1

/-- The page-6 fields that a ROTATION record gives (14 Table C-3; 09 Table K-104). -/
def GRot.writes (r : GRot) : List (Nat × W32) :=
  let v (f n : Nat) : Nat × W32 := (64 * 6 + f, BitVec.ofNat 32 n)
  [v 0 1, v 1 r.slots, v 4 r.admitCh, v 5 r.opndCh, v 6 r.loopCh, v 7 r.annCh, v 8 r.initReg, v 9 (r.flags % 2),
   v 10 (r.flags / 2)]

/-- VCSAT as the VC records of an element give it: field 32 for channels 0 to 15, 33 for the others (09 R202). -/
def Grist.satWord (g : Grist) (e : GElem) (key : Nat) : W32 :=
  BitVec.ofNat 32 ((g.vcs.filter fun v => v.elem == e.id && v.sat == 1 && v.ch / 16 == key - 96).foldl
    (fun n v => n + 2 ^ (v.ch % 16)) 0)

/-- A setting as it is written: WIDX of a MON from the placement of the MT that it watches (14 R281). -/
def settingValue (m : Config.Mash) (g : Grist) (e : GElem) (q : Setting) : W32 :=
  match e.watched with
  | some w => if q.page = 0 ∧ q.field = 1 then BitVec.ofNat 32 (elemIdx (mashAt m g w)) else q.value
  | none => q.value

/-- What the grist writes into an element's image: key and value. -/
def Grist.writesOf (g : Grist) (hs : List GHandler) (m : Config.Mash) (leaves : List Nat) (e : GElem) : List (Nat × W32) :=
  (e.settings.map fun q => (64 * q.page + q.field, settingValue m g e q)) ++
  ((g.satKeys e).map fun k => (k, g.satWord e k)) ++
  ((hs.filter fun h => h.elem == e.id).flatMap fun h =>
    (48 + h.h, BitVec.ofNat 32 h.fatal) :: (List.range 6).map fun s => (6 * h.h + s, nth s h.words)) ++
  ((g.vcs.filter fun v => v.elem == e.id).map fun v => (64 + v.ch, BitVec.ofNat 32 v.vce)) ++
  (if e.kind = 0 then [(56, BitVec.ofNat 32 (g.leafIn leaves e.id))] else []) ++
  ((g.params.filter fun p => p.elem == e.id).map fun p => (128 + p.reg % 32 + 64 * (p.reg / 32), p.value)) ++
  ((g.rots.filter fun r => r.head == e.id).flatMap GRot.writes)

/-- What a padding element holds: one handler that emits its trigger unchanged (15 R296). -/
def padWrites (ch : Nat) : List (Nat × W32) := [(5, 0x0409C001#32), (64 + ch, 0x8000#32)]

/-- The writes of a plane that NATLAT and DELAY do not rest on, in the order of elements: element number, key, value. No word
of Birgil's takes the place of one of the grist's (R268, R281). -/
def gristWrites (g : Grist) (hs : List GHandler) (m : Config.Mash) (k : Nat) (leaves : List Nat) : List (Nat × Nat × W32) :=
  let ws := (g.elems.filter fun e => g.inPlane leaves e.id).flatMap (fun e =>
    (g.writesOf hs m leaves e).map fun q => (mashAt m g e.id, q.1, q.2)) ++
  (m.pads.filter fun p => (g.planeEdges leaves).any fun q => q.1 == p.1).flatMap fun p =>
    (padWrites (nth p.1 g.edges).ch).map fun q => (p.2, q.1, q.2)
  ws ++ (m.own.filter fun w => w.1 == k && birgilWrites (elemKind w.2.1) (m.pads.any fun p => p.2 == w.2.1) w.2.2.1 &&
    !(ws.any fun q => q.1 == w.2.1 && q.2.1 == w.2.2.1)).map (·.2)

/-- The value that a plane's writes give a field. -/
def fieldOf (ws : List (Nat × Nat × W32)) (e key reset : Nat) : Nat :=
  ws.foldl (fun v w => if w.1 = e ∧ w.2.1 = key then w.2.2.toNat else v) reset

/-! ### What the checks look at -/

/-- A plane under check: grist, handlers, mash, writes, edges. -/
structure PlaneCheck where
  g : Grist
  hs : List GHandler
  m : Config.Mash
  ws : List (Nat × Nat × W32)
  edges : List (Nat × GEdge)
  deriving Repr, Inhabited

/-- A field of a grist element. -/
def PlaneCheck.field (p : PlaneCheck) (id page f reset : Nat) : Nat := fieldOf p.ws (mashAt p.m p.g id) (64 * page + f) reset

/-- The kind number of an element; 7 for the PORT of a vertex. -/
def PlaneCheck.kind (p : PlaneCheck) (id : Nat) : Nat := if 0x10000 ≤ id then 7 else ((p.g.elem id).map (·.kind)).getD 0

/-- A stage word of an element. -/
def PlaneCheck.word (p : PlaneCheck) (id h s : Nat) : Nat := p.field id 0 (6 * h + s) 0

/-- The rotation whose head an element is. -/
def PlaneCheck.rot (p : PlaneCheck) (id : Nat) : Option GRot := p.g.rots.find? fun r => r.head == id

/-- OUTE entries of an edge that carry tokens: those whose handler's E word names them, and the announce and loop entries
of a rotation head. -/
def PlaneCheck.entries (p : PlaneCheck) (e : GEdge) : List Nat :=
  (p.g.namedBy p.hs e).filter fun k =>
    (p.word e.src (k / 4) 5).testBit (k % 4) || (swOp (p.word e.src (k / 4) 0) == 6 && decide (2 ≤ k % 4))

/-- Ports of a tile that emit on a channel: enabled, with that CHAN. -/
def PlaneCheck.emitPorts (p : PlaneCheck) (id ch : Nat) : List Nat :=
  (List.range 5).filter fun q => p.field id 0 (12 * q) 0 != 0 && p.field id 0 (12 * q + 3) 0 == ch &&
    !(p.field id 0 (12 * q) 0 == 1 && p.field id 0 (12 * q + 1) 0 == 1)

/-- An edge carries remote requests: it leads to port V, or reqr sends on it (04 R83, R98; 09 R228). -/
def PlaneCheck.remote (p : PlaneCheck) (e : GEdge) : Bool :=
  e.dport == 4 || (p.kind e.src == 0 && (p.entries e).any fun k => swOp (p.word e.src (k / 4) 5) == 5)

/-- Replies to remote requests that an edge brings to the tile may leave on a channel: RCH, which a route token names, lies
in ch24 to ch31 (04 R98). -/
def PlaneCheck.answers (p : PlaneCheck) (id ch : Nat) : Bool :=
  decide (24 ≤ ch) && p.edges.any fun q => q.2.dst == id && p.remote q.2

/-- The kinds of token that an edge carries (01 R14; 04 R81; 09 R227-R232). -/
def PlaneCheck.kinds (p : PlaneCheck) (e : GEdge) : List Nat :=
  match p.kind e.src with
  | 0 => ((p.entries e).map fun k =>
      if 2 ≤ k % 4 ∧ swOp (p.word e.src (k / 4) 0) = 6 then 0
      else match swOp (p.word e.src (k / 4) 5) with
        | 4 | 5 | 12 => 1
        | 6 => 4
        | 7 => 3
        | _ => 0).eraseDups
  | 1 => ((p.emitPorts e.src e.ch).map fun q => if p.field e.src 0 (12 * q) 0 = 1 then 0 else 2).eraseDups ++
      (if p.answers e.src e.ch then [2] else [])
  | 4 | 5 => []
  | _ => [0]

/-- Whether the end of an edge accepts a kind of token. -/
def PlaneCheck.accepts (p : PlaneCheck) (e : GEdge) (kind : Nat) : Bool :=
  match p.kind e.dst with
  | 0 => kind == 0 || kind == 2
  | 1 =>
    if e.dport = 4 then kind == 1
    else
      let k := p.field e.dst 0 (12 * e.dport) 0
      if kind = 1 then k != 0 else kind == 0 && k == 1 && p.field e.dst 0 (12 * e.dport + 1) 0 == 1
  | 2 =>
    if e.ch = p.field e.dst 0 0 0 then kind == 4
    else if e.ch = p.field e.dst 0 1 1 then kind == 0
    else e.ch == p.field e.dst 0 2 2 && kind == 0 && p.field e.dst 0 3 0 == 1
  | _ => kind == 0

/-! ### The channel dependence graph (15 R292, Table C-9) -/

/-- A vertex: an element and a channel of it; the element is a grist id, or 0x10000 + d for the PORT of district d. -/
abbrev Vertex := Nat × Nat

/-- An edge's source and destination lie on different dies (15 R290). -/
def PlaneCheck.isCut (p : PlaneCheck) (e : GEdge) : Bool :=
  distDie (elemDist (mashAt p.m p.g e.src)) != distDie (elemDist (mashAt p.m p.g e.dst))

/-- The PORT by which a cut edge leaves its source's district, with its channel there (15 R290). -/
def PlaneCheck.portOf (p : PlaneCheck) (e : GEdge) : Vertex := (0x10000 + elemDist (mashAt p.m p.g e.src), e.ch)

/-- Where the arc of an edge from a vertex leads: over a cut edge first to the PORT of its source's district, and from there
to its destination (Table C-9). -/
def PlaneCheck.tip (p : PlaneCheck) (v : Vertex) (e : GEdge) : Vertex :=
  if p.isCut e && v != p.portOf e then p.portOf e else (e.dst, e.ch)

/-- The element number of a vertex. -/
def PlaneCheck.square (p : PlaneCheck) (v : Vertex) : Nat :=
  if 0x10000 ≤ v.1 then elemAt (v.1 - 0x10000) portIdx else mashAt p.m p.g v.1

/-- The cut edges that a PORT carries on a channel from its district. -/
def PlaneCheck.carried (p : PlaneCheck) (v : Vertex) : List GEdge :=
  (p.edges.map (·.2)).filter fun e => p.isCut e && p.portOf e == v

/-- The handlers that take a channel of an element, as trigger or join. -/
def PlaneCheck.takers (p : PlaneCheck) (id ch : Nat) : List Nat :=
  (List.range 8).filter fun h =>
    let v := p.field id 1 ch 0
    (vceBound v && vceHandler v == h) || (joinsOf (p.word id h 0)).contains ch

/-- The handler of a rotation head. -/
def PlaneCheck.rotHandler (p : PlaneCheck) (r : GRot) : Nat := vceHandler (p.field r.head 1 r.loopCh 0)

/-- Edges out of an element that a test on OUTE entries picks. -/
def PlaneCheck.outBy (p : PlaneCheck) (id : Nat) (test : Nat → Bool) : List GEdge :=
  (p.edges.map (·.2)).filter fun e => e.src == id && (p.entries e).any test

/-- The edges on which an element may emit for a token taken on a channel. -/
def PlaneCheck.leads (p : PlaneCheck) (v : Vertex) : List GEdge :=
  let (id, ch) := v
  let all := (p.edges.map (·.2)).filter fun e => e.src == id
  match p.kind id with
  | 0 =>
    match p.rot id with
    | some r =>
      let h := p.rotHandler r
      if ch = r.loopCh ∨ ch = r.opndCh then p.outBy id fun k => k / 4 == h
      else if ch = r.admitCh then p.outBy id fun k => k == 4 * h + 2
      else p.outBy id fun k => (p.takers id ch).contains (k / 4)
    | none => p.outBy id fun k => (p.takers id ch).contains (k / 4)
  | 1 =>
    let into := (p.edges.map (·.2)).filter fun e => e.dst == id && e.ch == ch
    all.filter fun e => into.any fun q => e.dst != q.src &&
      ((p.remote q && decide (24 ≤ e.ch)) ||
        (q.dport != 4 && decide (2 ≤ p.field id 0 (12 * q.dport) 0) && p.field id 0 (12 * q.dport + 3) 0 == e.ch))
  | 2 =>
    if ch = p.field id 0 0 0 ∨ ch = p.field id 0 1 1 ∨ ch = p.field id 0 2 2 then all else []
  | 3 => if ch = p.field id 0 0 0 then all else []
  | 7 => p.carried v
  | _ => []

/-- The vertices that follow one; the loop of a head with no loop record closes on itself (14 R269). -/
def PlaneCheck.succs (p : PlaneCheck) (v : Vertex) : List Vertex :=
  let out := (p.leads v).map (p.tip v)
  match p.rot v.1 with
  | some r =>
    if (v.2 = r.loopCh ∨ v.2 = r.opndCh) ∧ (p.edges.any fun q => q.2.src == v.1 && q.2.sout == 3) = false then
      (v.1, r.loopCh) :: out else out
  | none => out

/-- Every vertex of the plane. -/
def PlaneCheck.vertices (p : PlaneCheck) : List Vertex :=
  ((p.edges.flatMap fun q => if p.isCut q.2 then [p.portOf q.2, (q.2.dst, q.2.ch)] else [(q.2.dst, q.2.ch)]) ++
    (p.g.rots.map fun r => (r.head, r.loopCh))).eraseDups

/-- What can be reached from a set, through vertices that a test lets pass; `n` bounds the length. -/
def PlaneCheck.reachGo (p : PlaneCheck) (ok : Vertex → Bool) : Nat → List Vertex → List Vertex → List Vertex
  | 0, _, seen => seen
  | n + 1, front, seen =>
    let next := ((front.flatMap p.succs).filter fun v => ok v && !seen.contains v).eraseDups
    if next.isEmpty then seen else reachGo p ok n next (seen ++ next)

/-- What can be reached from a vertex by at least one arc. -/
def PlaneCheck.reach (p : PlaneCheck) (ok : Vertex → Bool) (v : Vertex) : List Vertex :=
  p.reachGo ok (p.vertices.length + 1) [v] []

/-- (H, LOOPCH) and (H, OPNDCH) of every head. -/
def PlaneCheck.special (p : PlaneCheck) (v : Vertex) : Bool :=
  p.g.rots.any fun r => v.1 == r.head && (v.2 == r.loopCh || v.2 == r.opndCh)

/-- The handlers by which an element passes from one vertex to the next. -/
def PlaneCheck.passing (p : PlaneCheck) (v : Vertex) : List Nat :=
  match p.rot v.1 with
  | some r => if v.2 = r.loopCh ∨ v.2 = r.opndCh then [p.rotHandler r] else p.takers v.1 v.2
  | none => p.takers v.1 v.2

/-- A handler uses a retiring operation or dsout (09 R209). -/
def PlaneCheck.retires (p : PlaneCheck) (id h : Nat) : Bool :=
  let w (s : Nat) := swOp (p.word id h s)
  w 1 == 6 || w 1 == 7 || w 2 == 7 || w 3 == 7 || w 5 == 8 ||
    ([5, 6, 19].contains (w 3) && swMod (p.word id h 3) % 4 != 0)

/-! ### Routes as placed (15 R290, R291) -/

/-- One hop of a route: element, link it leaves by. -/
abbrev Hop := Nat × Nat

/-- The entry of a channel among the four of a field (09 Table K-103). -/
def nibble (v ch : Nat) : Nat := v / 16 ^ (ch % 4) % 16

/-- The link that a pipeline element's OUTE entry names for a channel; 9, no link, where it is not valid or names another
channel. -/
def outLink (ws : List (Nat × Nat × W32)) (e k ch : Nat) : Nat :=
  let o := fieldOf ws e (64 * 4 + k) 0
  if o.testBit 15 ∧ nbits o 11 7 = ch then nbits o 14 12 else 9

/-- The link by which a source's tokens on an edge leave; none where it emits nothing on the edge's channel (09 R205), by
OUTE entry, port or OUTDIR (09 R205, 04 R83, 10 R233). -/
def PlaneCheck.firstLinks (p : PlaneCheck) (e : GEdge) : List Nat :=
  let here := mashAt p.m p.g e.src
  match p.kind e.src with
  | 0 => (p.entries e).map fun k => outLink p.ws here k e.ch
  | 1 =>
      let v := nibble (fieldOf p.ws here (64 + 32 + e.ch / 4) 0) e.ch - 1
      ((p.emitPorts e.src e.ch).map fun q => if q < 4 then q else v) ++ (if p.answers e.src e.ch then [v] else [])
  | 2 => if fieldOf p.ws here 5 0 = e.ch then [fieldOf p.ws here 4 0] else []
  | 3 => if fieldOf p.ws here 2 0 = e.ch then [fieldOf p.ws here 1 0] else []
  | 6 => if fieldOf p.ws here 1 0 = e.ch then [fieldOf p.ws here 0 0] else []
  | _ => []

/-- The route entry of a link and channel at an element. -/
def routeField (ws : List (Nat × Nat × W32)) (e link ch : Nat) : Nat :=
  let i := 32 * link + ch
  nibble (fieldOf ws e (64 * routerPage (elemKind e) + i / 4) 0) i

/-- Follows a channel from an element over a link to where it is delivered: the hops, and the element; none where it
leads nowhere. -/
def follow (ws : List (Nat × Nat × W32)) (ch : Nat) : Nat → Nat → Nat → Option (List Hop × Nat)
  | 0, _, _ => none
  | n + 1, e, link =>
    match neighbour e link with
    | none => none
    | some x =>
      let r := routeField ws x (opposite link) ch
      if r = 5 then some ([(e, link)], x)
      else if 1 ≤ r ∧ r ≤ 4 then (follow ws ch n x (r - 1)).map fun (l, y) => ((e, link) :: l, y)
      else none

/-- A leg is dimension-ordered: along its row one way, then along the column one way (15 R291). -/
def legOrdered (l : List Hop) : Bool :=
  let ds := l.map (·.2)
  let row := ds.takeWhile fun d => d % 2 == 1
  let col := ds.drop row.length
  (row.all fun d => d == row.headD 1) && (col.all fun d => d == col.headD 0 && d % 2 == 0)

/-- The link virtual channel of an edge. -/
def PlaneCheck.lvc (p : PlaneCheck) (num : Nat) : Nat := (tget num p.m.lvcs).getD 0

/-- What an edge passes on its way: its padding elements, those on the source's die first, and for a cut edge the PORTs of
both districts between them (15 R290, R296). -/
def PlaneCheck.waypoints (p : PlaneCheck) (num : Nat) (e : GEdge) : List Nat :=
  let src := mashAt p.m p.g e.src
  let dst := mashAt p.m p.g e.dst
  let pads := (p.m.pads.filter fun q => q.1 == num).map (·.2)
  if p.isCut e then
    let (near, far) := pads.partition fun x => distDie (elemDist x) == distDie (elemDist src)
    near ++ [elemAt (elemDist src) portIdx, elemAt (elemDist dst) portIdx] ++ far
  else pads

/-- The PORTs of a cut edge carry its channel across the base on its link virtual channel, and on no other (10 Table
K-149). -/
def PlaneCheck.crosses (p : PlaneCheck) (num ch a b : Nat) : Bool :=
  let c := p.lvc num
  fieldOf p.ws a (64 + ch) 0 == 2 ^ 15 + c && fieldOf p.ws b (64 * 2 + ch) 0 == 2 ^ 15 + distDie (elemDist a) * 2 ^ 10 + c

/-- The last leg comes to a tile over the link that the edge's port faces; remote requests come to port V over any (04
R83). -/
def arrives (e : GEdge) (legs : List (List Hop)) : Bool :=
  decide (4 ≤ e.dport) || (((legs.getLast?.bind List.getLast?).map fun h => opposite h.2 == e.dport).getD false)

/-- The legs of an edge from its source to its destination, from one stop to the next; none where a leg leads elsewhere. -/
def PlaneCheck.legs (p : PlaneCheck) (num : Nat) (e : GEdge) (link : Nat) : Option (List (List Hop)) :=
  let step (acc : Option (List (List Hop) × Nat × Nat)) (stop : Nat) : Option (List (List Hop) × Nat × Nat) :=
    acc.bind fun (ls, at_, l) =>
      if elemKind at_ = .port ∧ elemKind stop = .port then
        (if p.crosses num e.ch at_ stop then
          some (ls, stop, nibble (fieldOf p.ws stop (64 * 3 + e.ch / 4) 0) e.ch - 1) else none)
      else
        (follow p.ws e.ch 600 at_ l).bind fun (leg, x) =>
          if x = stop then some (ls ++ [leg], stop, outLink p.ws stop 0 e.ch) else none
  match (p.waypoints num e ++ [mashAt p.m p.g e.dst]).foldl step (some ([], mashAt p.m p.g e.src, link)) with
  | some (ls, _, _) => if arrives e ls then some ls else none
  | none => none

/-- The rotation of a head whose loop holds no element but the head (14 R269). -/
def PlaneCheck.selfLoop (p : PlaneCheck) (r : GRot) : Bool :=
  !(p.edges.any fun q => q.2.src == r.head && q.2.sout == 3)

/-- The rotations whose heads the plane holds. -/
def PlaneCheck.rots (p : PlaneCheck) : List GRot := p.g.rots.filter fun r => p.ws.any fun w => w.1 == mashAt p.m p.g r.head

/-- The edge that such a loop is. -/
def GRot.loopEdge (r : GRot) : GEdge := { src := r.head, sout := 3, ch := r.loopCh, dst := r.head, dport := 0xFF }

/-- The route of such a loop: out by one link and back by it, turned in an adjacent MT router (14 R269, 15 R291). -/
def PlaneCheck.selfLoopHops (p : PlaneCheck) (r : GRot) : Option (List Hop) :=
  let e := mashAt p.m p.g r.head
  let l := outLink p.ws e (4 * p.rotHandler r + 3) r.loopCh
  match follow p.ws r.loopCh 4 e l with
  | some (hs, x) => if x = e ∧ hs.length = 2 ∧ (neighbour e l).map elemKind = some .mt then some hs else none
  | none => none

/-- Each edge with the hops of all its legs, a rotation's own loop among them. -/
def PlaneCheck.hops (p : PlaneCheck) : List (GEdge × List Hop) :=
  (p.edges.map fun (i, e) => (e, ((p.firstLinks e).filterMap (p.legs i e)).flatten.flatten)) ++
  ((p.rots.filter p.selfLoop).map fun r => (r.loopEdge, (p.selfLoopHops r).getD []))

/-! ### Latencies of what is placed (02 R40; 15 R296, R300) -/

/-- Simple paths from a vertex to another; `n` bounds their length. -/
def PlaneCheck.paths (p : PlaneCheck) (goal : Vertex) : Nat → List Vertex → Vertex → List (List Vertex)
  | 0, _, _ => []
  | n + 1, seen, v =>
    if v = goal then [[v]]
    else ((p.succs v).filter fun w => !seen.contains w).eraseDups.flatMap fun w =>
      (p.paths goal n (w :: seen) w).map fun l => v :: l

/-- Hops between two elements along dimension-ordered routes; a cut edge goes by the PORTs (15 R290, R291). -/
def hopsBetween (a b : Nat) : Nat :=
  let flat (x y : Nat) : Nat :=
    (max (elemRow x) (elemRow y) - min (elemRow x) (elemRow y)) + (max (elemCol x) (elemCol y) - min (elemCol x) (elemCol y))
  if distDie (elemDist a) = distDie (elemDist b) then flat a b
  else flat a (elemAt (elemDist a) portIdx) + flat (elemAt (elemDist b) portIdx) b

/-- The stops of an arc: source, padding elements, destination; of a cut edge's padding elements those on the source's die
stand before its PORT, the others behind it. -/
def PlaneCheck.stops (p : PlaneCheck) (v w : Vertex) : List Nat :=
  let near (e : GEdge) (x : Nat) : Bool := distDie (elemDist x) == distDie (elemDist (mashAt p.m p.g e.src))
  let pads := match (p.edges.find? fun q => (q.2.src == v.1 || (p.isCut q.2 && p.portOf q.2 == v)) && p.tip v q.2 == w) with
    | some (i, e) => ((p.m.pads.filter fun q => q.1 == i).map (·.2)).filter fun x => near e x != (p.portOf e == v)
    | none => []
  p.square v :: (pads ++ [p.square w])

/-- Hops and padding elements of a path; the turn of a head's own loop is two hops (02 R41). -/
def PlaneCheck.pathHops (p : PlaneCheck) : List Vertex → Nat × Nat
  | v :: w :: t =>
    let st := p.stops v w
    let (h, n) := p.pathHops (w :: t)
    let here := if v.1 = w.1 then 2 else ((st.zip (st.drop 1)).map fun q => hopsBetween q.1 q.2).sum
    (here + h, n + (st.length - 2))
  | _ => (0, 0)

/-- N of a reorder element's shape (10 R242). -/
def PlaneCheck.roCount (p : PlaneCheck) (id : Nat) : Nat :=
  (p.field id 0 4 0 + 1) * (p.field id 0 5 0 + 1) * (p.field id 0 6 0 + 1)

/-- Hop, stage, MN firing and rate of a level, in 10 ps and 10 M firings per second (01 Table K-7). -/
def levelTimes : List (Nat × Nat × Nat × Nat) := [(84, 50, 1000, 60), (50, 30, 600, 100), (44, 27, 530, 115), (40, 24, 480, 125)]

/-- Latency in token positions, the largest over V1 to V4, of so many hops, pipeline elements, reorder elements and MN
firings (02 R40). -/
def positions (hops pes ros mns : Nat) : Nat :=
  (levelTimes.map fun (h, st, mn, rate) =>
    ((hops * h + 6 * st * pes + 2 * st * ros + mn * mns) * rate + 9999) / 10000).foldl max 0

/-- The skew and the capacity of a path (15 R296). -/
def PlaneCheck.skewCap (p : PlaneCheck) (path : List Vertex) : Nat × Nat :=
  let inside := (path.drop 1).dropLast
  let (hops, pads) := p.pathHops path
  let pes := (inside.filter fun v => p.kind v.1 == 0).length + pads
  let ros := inside.filter fun v => p.kind v.1 == 3
  (positions hops pes ros.length 0 + (ros.map fun v => p.roCount v.1).sum, 2 * hops + 6 * pes)

/-- The loop of a rotation, from the head's LOOPCH vertex to itself: over its loop edge (14 R269). -/
def PlaneCheck.loopPath (p : PlaneCheck) (r : GRot) : List Vertex :=
  let v : Vertex := (r.head, r.loopCh)
  if p.selfLoop r then [v, v]
  else
    let starts := (p.edges.filter fun q => q.2.src == r.head && q.2.sout == 3).map fun q => p.tip v q.2
    v :: ((starts.flatMap fun w => p.paths v (p.vertices.length + 2) [w] w).headD [])

/-- NATLAT of a rotation as placed: its natural latency, at least 1 (02 R40; 09 Table K-104). -/
def PlaneCheck.natLat (p : PlaneCheck) (r : GRot) : Nat :=
  let path := p.loopPath r
  let inside := (path.drop 1).dropLast
  let (hops, pads) := p.pathHops path
  max 1 (positions hops (1 + pads + (inside.filter fun v => p.kind v.1 == 0).length) 0
    (inside.filter fun v => p.kind v.1 == 2).length)

/-- What Birgil computes from the loops as placed: NATLAT and DELAY of every head (14 R269; 15 R287). -/
def PlaneCheck.rotWrites (p : PlaneCheck) : List (Nat × Nat × W32) :=
  p.rots.flatMap fun r =>
    let e := mashAt p.m p.g r.head
    let l := p.natLat r
    [(e, 64 * 6 + 2, BitVec.ofNat 32 l), (e, 64 * 6 + 3, BitVec.ofNat 32 (r.slots - l))]

/-- CFGBASE of every tile of the districts to which neither the grist nor Birgil gives another: nothing is reserved there
(04 R82; 15 R285). -/
def baseWrites (ws : List (Nat × Nat × W32)) (ds : List Nat) : List (Nat × Nat × W32) :=
  ds.flatMap fun d => ((List.range 250).map fun i => elemAt d (tileIdx i)).filterMap fun e =>
    if ws.any fun w => w.1 == e && w.2.1 == 62 then none else some (e, 62, 0x6000)

/-- A plane of a mash with all its writes (15 R285). -/
def planeOf (g : Grist) (hs : List GHandler) (m : Config.Mash) (ds : List Nat) (k : Nat) (leaves : List Nat) : PlaneCheck :=
  let p : PlaneCheck := { g := g, hs := hs, m := m, ws := gristWrites g hs m k leaves, edges := g.planeEdges leaves }
  { p with ws := p.ws ++ p.rotWrites ++ baseWrites p.ws ds }

/-- Time at V1, in 10 ps, from one vertex to the next and through the element there, a pipeline element's six stages among
it (15 R300). -/
def PlaneCheck.arcTime (p : PlaneCheck) (v w : Vertex) : Nat :=
  let (hops, pads) := p.pathHops [v, w]
  84 * hops + 300 * (pads + if p.kind w.1 = 0 then 1 else 0)

/-- The vertices to which a path goes on from one, whatever the handlers are: P_V1 is part of the mash, which rests on the
GRIST section alone (R285, R288; DEDUCED, log 160). A pipeline element leads on to all its edges, a tile that answers a
request to those on which the answer may leave. -/
def PlaneCheck.onward (p : PlaneCheck) (v : Vertex) : List Vertex :=
  let all := (p.edges.map (·.2)).filter fun e => e.src == v.1
  let into := (p.edges.map (·.2)).filter fun e => e.dst == v.1 && e.ch == v.2
  let out := match p.kind v.1 with
    | 0 => all
    | 1 => all.filter fun e => into.any fun q => e.dst != q.src &&
        (((q.dport == 4 || p.kind q.src == 0) && decide (24 ≤ e.ch)) ||
          (q.dport != 4 && decide (2 ≤ p.field v.1 0 (12 * q.dport) 0) && p.field v.1 0 (12 * q.dport + 3) 0 == e.ch))
    | _ => p.leads v
  out.map (p.tip v)

/-- The longest such time from a vertex onwards, no vertex passed twice; `n` bounds the number of arcs. -/
def PlaneCheck.longest (p : PlaneCheck) : Nat → List Vertex → Vertex → Nat
  | 0, _, _ => 0
  | n + 1, seen, v =>
    (((p.onward v).filter fun w => !seen.contains w).eraseDups.map fun w =>
      p.arcTime v w + p.longest n (w :: seen) w).foldl max 0

/-- P_V1 of a plane in 10 ps: the longest path from a source to a sink, with both (15 R300). -/
def PlaneCheck.propagation (p : PlaneCheck) : Nat :=
  (p.edges.map fun q =>
    let v : Vertex := (q.2.src, 32)
    let w := p.tip v q.2
    (if p.kind q.2.src = 0 then 300 else 0) + p.arcTime v w + p.longest p.vertices.length [w] w).foldl max 0

/-! ### The checks of Table C-10, in table order -/

/-- The refusal that an edge causes. -/
def edgeErr (code : Nat) (e : GEdge) : LoadErr := { code := code, id1 := e.src }

/-- Kinds (01 R14). -/
def PlaneCheck.kindRoute (p : PlaneCheck) : Check Unit :=
  (p.edges.map (·.2)).forM fun e => need ((p.kinds e).all (p.accepts e)) (edgeErr ldKindRoute e)

/-- Rotation size (02 R41). -/
def PlaneCheck.rotSize (p : PlaneCheck) : Check Unit :=
  p.rots.forM fun r => need (decide (2 ≤ r.slots) && decide (r.slots ≤ 64) && decide (p.natLat r ≤ r.slots))
    { code := ldRotSize, id1 := r.head }

/-- The elements whose input channel an edge uses: its padding elements, the source's PORT where it is cut, and its
destination. -/
def PlaneCheck.inputsOf (p : PlaneCheck) (e : GEdge) : List Nat :=
  mashAt p.m p.g e.dst :: (p.edges.filter fun q => q.2 == e).flatMap fun q =>
    (p.waypoints q.1 e).filter fun x => elemKind x != .port || elemDist x == elemDist (mashAt p.m p.g e.src)

/-- Channels: no input channel of an element and no channel of a link carries tokens of two sources. -/
def PlaneCheck.vcShared (p : PlaneCheck) : Check Unit :=
  let uses := p.hops.map fun (e, l) => (e, p.inputsOf e, l)
  uses.forM fun (e, x, l) =>
    match uses.find? fun q => q.1.src != e.src && q.1.ch == e.ch && (q.2.1.any x.contains || q.2.2.any l.contains) with
    | some q => .error { code := ldVcShared, id1 := e.src, id2 := q.1.src }
    | none => .ok ()

/-- Classes of channels: requests on 16 to 23, replies on 24 to 31, the rest below; so too a SEQ's RQCH and RPCH, the RCH
of its requests. The RCH of a pipeline element's request is data of its route token, and no field. -/
def PlaneCheck.reqClass (p : PlaneCheck) : Check Unit := do
  (p.edges.map (·.2)).forM fun e => need ((p.kinds e).all fun k =>
    if k = 1 then decide (16 ≤ e.ch) && decide (e.ch < 24) else if k = 2 then decide (24 ≤ e.ch) else decide (e.ch < 16))
      (edgeErr ldReqClass e)
  p.g.elems.forM fun t => need (t.kind != 1 || !(p.ws.any fun w => w.1 == mashAt p.m p.g t.id) || (List.range 5).all fun q =>
    decide (p.field t.id 0 (12 * q) 0 < 2) || decide (24 ≤ p.field t.id 0 (12 * q + 3) 0)) { code := ldReqClass, id1 := t.id }
  need (p.ws.all fun w => elemKind w.1 != .seq || !(w.2.1 == 32 || w.2.1 == 33) || w.2.2.toNat / 8 == w.2.1 - 30)
    { code := ldReqClass }

/-- Loops: every cycle passes through (H, LOOPCH) or (H, OPNDCH) of exactly one head. -/
def PlaneCheck.cycle (p : PlaneCheck) : Check Unit :=
  (p.edges.map (·.2)).forM fun e =>
    let v : Vertex := (e.dst, e.ch)
    let own (w : Vertex) : Bool := p.special v && p.special w && v.1 != w.1
    let bad := if p.special v then
        (p.reach (fun _ => true) v).any fun w => own w && (p.reach (fun _ => true) w).contains v
      else (p.reach (fun w => !p.special w) v).contains v
    need (!bad) (edgeErr ldCycle e)

/-- The OUTE entries by which handler h of an element emits onto edges that a test picks, as often as it does. -/
def PlaneCheck.sends (p : PlaneCheck) (w : Vertex) (h : Nat) (onto : Vertex → Bool) : List Nat :=
  ((p.leads w).filter fun e => onto (p.tip w e)).flatMap fun e => (p.entries e).filter fun k => k / 4 == h

/-- Loop shape: what lies on a cycle through (H, LOOPCH) that does not pass (H, OPNDCH) (DEDUCED, log 79), which starts on
the loop edge, emits one token onto it for each that it takes; ADMITCH is not reachable from H. -/
def PlaneCheck.rotShape (p : PlaneCheck) : Check Unit :=
  p.rots.forM fun r =>
    let v : Vertex := (r.head, r.loopCh)
    let o : Vertex := (r.head, r.opndCh)
    let ok (w : Vertex) := w != o
    let ring := (p.reach ok v).filter fun w => (p.reach ok w).contains v
    let h := p.rotHandler r
    let startOk := (p.leads v).all fun e =>
      let t := p.tip v e
      (p.entries e).contains (4 * h + 3) || t == o || !(t == v || (p.reach ok t).contains v)
    let elemOk (w : Vertex) : Bool :=
      w.1 == r.head || (p.kind w.1 == 2 && decide (((p.leads w).filter fun e => ring.contains (p.tip w e)).length = 1)) ||
        (p.kind w.1 == 0 && (p.passing w).all fun h => !p.retires w.1 h &&
          [1, 2, 3, 9].contains (swOp (p.word w.1 h 5)) && decide ((p.sends w h ring.contains).length = 1))
    let admits := (v :: o :: p.vertices.filter fun w => w.1 == r.head).any fun w =>
      (p.reach (fun _ => true) w).contains (r.head, r.admitCh)
    need (startOk && ring.all elemOk && !admits) { code := ldRotShape, id1 := r.head }

/-- The cycles through a vertex that pass no vertex twice, each from the vertex to itself. -/
def PlaneCheck.cyclesAt (p : PlaneCheck) (o : Vertex) : List (List Vertex) :=
  (p.succs o).eraseDups.flatMap fun w => (p.paths o (p.vertices.length + 2) [w] w).map fun l => o :: l

/-- A cycle through (H, OPNDCH) is metered (15 R295): its other vertices belong to pipeline elements; a handler on it emits
at most one token onto it, at whichever of its vertices, and retires none; what enters it from outside comes by an output or
announce edge of H, or from the channel where one of these ends. -/
def PlaneCheck.metered (p : PlaneCheck) (r : GRot) (c : List Vertex) : Bool :=
  let one (v : Vertex) (h : Nat) : Bool :=
    decide ((p.sends v h c.contains).length ≤ 1) && !(List.contains [4, 5, 12] (swOp (p.word v.1 h 5)))
  let loopEntry := 4 * p.rotHandler r + 3
  let ends := (p.edges.filter fun q => q.2.src == r.head && !((p.entries q.2).contains loopEntry)).flatMap fun q =>
    [p.tip (r.head, r.opndCh) q.2, (q.2.dst, q.2.ch)]
  let enters (w : Vertex) : Bool := ends.contains w || (p.leads w).all fun e => !(c.contains (p.tip w e)) ||
    (w.1 == r.head && !((p.entries e).contains loopEntry))
  ((c.drop 1).dropLast.all fun v => p.kind v.1 == 0) &&
    (c.dropLast.all fun v => (p.passing v).all fun h => !p.retires v.1 h && one v h) &&
    p.vertices.all fun w => c.contains w || enters w

/-- Metering: every cycle through (H, OPNDCH) is metered (15 R295). -/
def PlaneCheck.meter (p : PlaneCheck) : Check Unit :=
  p.rots.forM fun r => need ((p.cyclesAt (r.head, r.opndCh)).all (p.metered r)) { code := ldMeter, id1 := r.head }

/-- The pairs of input channels that one element needs together: trigger and join channels, CTLCH and ACTCH. -/
def PlaneCheck.joinPairs (p : PlaneCheck) : List (Vertex × Vertex) :=
  p.g.elems.flatMap fun e =>
    match e.kind with
    | 0 => (List.range 8).flatMap fun h =>
        let js := joinsOf (p.word e.id h 0)
        let ts := (List.range 32).filter fun c => vceBound (p.field e.id 1 c 0) && vceHandler (p.field e.id 1 c 0) == h
        (ts.flatMap fun t => js.map fun j => ((e.id, t), (e.id, j))) ++
          (if js.length = 2 then [((e.id, nth 0 js), (e.id, nth 1 js))] else [])
    | 2 => [((e.id, p.field e.id 0 0 0), (e.id, p.field e.id 0 1 1))]
    | _ => []

/-- The reconvergent pairs of paths: from one fork by different arcs to the two channels. -/
def PlaneCheck.reconvergent (p : PlaneCheck) : List (List Vertex × List Vertex) :=
  p.joinPairs.flatMap fun (a, b) => p.vertices.flatMap fun f =>
    let n := p.vertices.length + 2
    let legs (goal : Vertex) := (p.succs f).eraseDups.flatMap fun w => (p.paths goal n [f, w] w).map fun l => f :: l
    (legs a).flatMap fun x => ((legs b).filter fun y => nth 1 y != nth 1 x).map fun y => (x, y)

/-- Something on a path between its ends changes the rate (15 R296). -/
def PlaneCheck.rateChanges (p : PlaneCheck) (path : List Vertex) : Bool :=
  ((path.drop 1).dropLast).any fun v =>
    match p.kind v.1 with
    | 0 => (p.passing v).any fun h => p.retires v.1 h
    | 2 | 4 | 6 => true
    | _ => false

/-- Reconvergence, pair by pair: rate, then skew (15 R296, R297). -/
def PlaneCheck.reconvergence (p : PlaneCheck) : Check Unit :=
  p.reconvergent.forM fun (x, y) => do
    let err (code : Nat) : LoadErr := { code := code, id1 := (nth 0 x).1, id2 := (x.getLastD (0, 0)).1 }
    let (kx, cx) := p.skewCap x
    let (ky, cy) := p.skewCap y
    need (!p.rateChanges x && !p.rateChanges y) (err ldReconvRate)
    need (decide (kx ≤ cy) && decide (ky ≤ cx)) (err ldReconvSkew)

/-- The cut edges of a plane: die of the source, link virtual channel, edge (15 R290). -/
def PlaneCheck.cutEdges (p : PlaneCheck) : List (Nat × Nat × GEdge) :=
  p.edges.filterMap fun (i, e) =>
    if p.isCut e then some (distDie (elemDist (mashAt p.m p.g e.src)), p.lvc i, e) else none

/-- Cut edges, edge by edge: at most 1,024 leave a die, each on a link virtual channel of its own (15 R290, R297). -/
def PlaneCheck.links (p : PlaneCheck) : Check Unit :=
  let l := p.cutEdges
  l.forM fun (d, c, e) => do
    need (decide ((l.filter fun q => q.1 == d).length ≤ 1024)) (edgeErr ldLinkFull e)
    need (decide ((l.filter fun q => q.1 == d && q.2.1 == c).length ≤ 1)) (edgeErr ldLinkShared e)

/-- A route entry is dimension-ordered: what arrives along a column stays on it, and nothing leaves by the link on which it
arrived (15 R291). -/
def entryOrdered (link out : Nat) : Bool := out != link && (link % 2 == 1 || out % 2 == 0)

/-- Every route entry of the plane is dimension-ordered, those of SEQ requests and replies, DONE tokens and page requests
among them, but for the turn of a rotation's own loop (15 R291). -/
def PlaneCheck.entriesOrdered (p : PlaneCheck) : Bool :=
  let turns := (p.rots.filter p.selfLoop).filterMap fun r =>
    ((p.selfLoopHops r).bind fun l => l[1]?).map fun h => (h, r.loopCh)
  p.ws.all fun (e, key, v) => key / 64 != routerPage (elemKind e) || decide (32 ≤ key % 64) ||
    (List.range 4).all fun j =>
      let i := 4 * (key % 64) + j
      let r := v.toNat / 16 ^ j % 16
      r == 0 || decide (5 ≤ r) || entryOrdered (i / 32) (r - 1) || turns.contains ((e, r - 1), i % 32)

/-- Routes: every edge on which something is emitted leads to its destination, dimension-ordered on every leg, a
rotation's own loop apart; then every other route that the mash writes (15 R291). -/
def PlaneCheck.routes (p : PlaneCheck) : Check Unit := do
  p.edges.forM fun (i, e) => need ((p.firstLinks e).all fun l => match p.legs i e l with
    | some legs => legs.all legOrdered
    | none => false) (edgeErr ldRouteOrder e)
  (p.rots.filter p.selfLoop).forM fun r => need (p.selfLoopHops r).isSome { code := ldRouteOrder, id1 := r.head }
  need p.entriesOrdered { code := ldRouteOrder }

/-- The checks of Table C-10 on every plane, in table order. -/
def checkPlanes (ps : List PlaneCheck) : Check Unit := do
  ps.forM PlaneCheck.kindRoute
  ps.forM PlaneCheck.rotSize
  ps.forM PlaneCheck.vcShared
  ps.forM PlaneCheck.reqClass
  ps.forM PlaneCheck.cycle
  ps.forM PlaneCheck.rotShape
  ps.forM PlaneCheck.meter
  ps.forM PlaneCheck.reconvergence
  ps.forM PlaneCheck.links
  ps.forM PlaneCheck.routes

end Sys2Proof.Machine
end

