-- ==== Sys2Proof/Machine/Loader.lean ====
section
/-! DEFINITION. Loading a module into a region: the command, the grant of districts, relocation, configuration streams,
the status record (16 R306; 15 R285-R298; 14 R267-R276, R284; 19 R350). -/

namespace Sys2Proof.Machine

/-- The fields of LOADCMD (16 Table D-3). -/
structure LoadCmd where
  addr : Nat
  len : Nat
  stat : Nat
  part : Nat
  ndist : Nat
  mask : Nat
  zeros : Bool
  deriving DecidableEq, Repr, Inhabited

/-- LOADCMD of its 64 bytes. -/
def parseLoadCmd (b : List Byte) : LoadCmd :=
  { addr := plfField b 0 8, len := plfField b 8 8, stat := plfField b 16 8, part := plfField b 24 1, ndist := plfField b 26 2
    mask := plfField b 28 2, zeros := zeroAt b 25 1 && zeroAt b 30 34 }

/-! ### The grant of districts (15 R285; 16, Pre-emption; 22 R376) -/

/-- A district that a load may be granted: a user district, on a die of the mask, not retired or marked for it. -/
def State.grantable (s : State) (mask d : Nat) : Bool :=
  0 < d && (mask == 0 || mask.testBit (distDie d)) && !(s.distReg d).retiring && !(s.distReg d).retired

/-- A district is occupied by an idle region that can be saved. -/
def State.idleHere (s : State) (d : Nat) : Bool :=
  match s.regionAt d with
  | some r => r.status == .idle && s.roomToSave r
  | none => false

/-- The NDIST districts that the scheduler grants: free ones, then such as hold an idle region that can be saved, each
kind in the order of its preference (log 81); none where there are too few. -/
def State.grantFor (s : State) (mask n : Nat) : Option (List Nat) :=
  let order (l : List Nat) : List Nat := l.mergeSort fun a b => decide (Config.grantRank s.tick a ≤ Config.grantRank s.tick b)
  let all := (List.range 640).filter (s.grantable mask)
  let free := all.filter fun d => (s.regionAt d).isNone
  let idle := all.filter s.idleHere
  let l := (order free ++ order idle).take n
  if l.length = n then some (l.mergeSort fun a b => decide (a ≤ b)) else none

/-- The districts are taken: idle regions there are saved, and each district is as nothing occupies it. -/
def State.clearFor (s : State) (ds : List Nat) : State :=
  let s1 := (s.occupants 0 ds).foldl saveRegion s
  ds.foldl (fun s d => s.modDist d District.vacant) s1

/-! ### Relocation (14 R275, R276) -/

/-- The region tile index of a placed tile (04 R97). -/
def placedTile (ds : List Nat) (e : Nat) : Nat := 250 * ds.idxOf (elemDist e) + tileOrd (elemIdx e)

/-- The value of a symbol. -/
def symValue (p : Plf) (m : Config.Mash) (ds : List Nat) (y : Sym) : Int :=
  if y.kind = 2 then
    let e := mashAt m p.grist y.value
    if p.grist.isKind y.value 1 then (placedTile ds e * 2 ^ 19 : Nat) else (packPos e : Nat)
  else (BitVec.ofNat 64 y.value).toInt

/-- Replaces n bits from bit `lo` of n8 bytes at an offset. -/
def patchBits (bs : List Byte) (off n8 lo n : Nat) (v : Int) : List Byte :=
  let old := plfField bs off n8
  let new := old - nbits old (lo + n - 1) lo * 2 ^ lo + (v % (2 ^ n : Int)).toNat * 2 ^ lo
  bs.take off ++ leBytes n8 new ++ bs.drop (off + n8)

/-- A section's bytes with a relocation applied, `s` being the symbol's value and `pos` the position that it names as an
element; none where the result is outside its field. -/
def Reloc.apply (r : Reloc) (s : Int) (pos : Nat) (bs : List Byte) : Option (List Byte) :=
  let v := s + r.addend
  match r.kind with
  | 1 | 2 => if -(2 ^ 31) ≤ v ∧ v < 2 ^ 32 then some (patchBits bs r.off 4 0 32 v) else none
  | 3 => some (patchBits bs r.off 4 0 32 (v / 2 ^ 32))
  | 4 =>
    let w := v - r.off
    if w % 4 = 0 ∧ -(2 ^ 20) ≤ w / 4 ∧ w / 4 < 2 ^ 20 then some (patchBits bs r.off 4 0 21 (w / 4)) else none
  | 5 => if -16384 ≤ v ∧ v < 16384 then some (patchBits bs r.off 4 0 15 v) else none
  | 6 =>
    if r.addend = 0 then
      some (patchBits bs r.off 4 13 19 ((nbits pos 27 24 * 2 ^ 15 + nbits pos 22 16 * 2 ^ 8 + pos % 256 : Nat)))
    else none
  | _ => some (patchBits bs r.off 8 0 64 v)

/-- The position of the element that a symbol names; else its value. -/
def symPos (p : Plf) (m : Config.Mash) (y : Sym) : Nat := if y.kind = 2 then packPos (mashAt m p.grist y.value) else y.value

/-- The file with its relocations applied, in section order; the placed grist is read again where one patches it. -/
def Plf.relocated (p : Plf) (m : Config.Mash) (ds : List Nat) : Check Plf := do
  let q ← p.relocs.foldlM (fun q r =>
    let sec := nth r.target q.sections
    let y := nth r.sym p.syms
    match r.apply (symValue p m ds y) (symPos p m y) sec.data with
    | some d => .ok { q with sections := setNth r.target { sec with data := d } q.sections }
    | none => .error { code := ldRelocRange }) p
  if p.relocs.any fun r => r.target == p.index then do
    let g ← parseGrist (nth p.index q.sections).data
    return { q with grist := g }
  else return q

/-! ### Data as placed (14 R273, R284) -/

/-- The region tile index that a DATA record names. -/
def Plf.tileOf (p : Plf) (m : Config.Mash) (ds : List Nat) (r : DataRec) : Nat :=
  if 2 ^ 31 ≤ r.tile then placedTile ds (mashAt m p.grist (r.tile - 2 ^ 31)) else r.tile

/-- The first granule that DATA may not reach in a tile: CFGBASE, or the reserved stack below it in ordinal 249. -/
def Plf.dataTop (p : Plf) (ws : List (Nat × Nat × W32)) (ds : List Nat) (tile : Nat) : Nat :=
  let e := elemAt (nth (tile / 250) ds) (tileIdx (tile % 250))
  let base := fieldOf ws e 62 0x6000
  let stack := ((p.grist.nodes[tile / 250]?).map (·.stack)).getD 0
  if tile % 250 = 249 then base - stack else base

/-- A DATA record lies below what it may not reach. -/
def Plf.dataFits (p : Plf) (m : Config.Mash) (ws : List (Nat × Nat × W32)) (ds : List Nat) (r : DataRec) : Bool :=
  r.bytes.isEmpty || decide ((r.off + r.bytes.length - 1) / 16 < p.dataTop ws ds (p.tileOf m ds r))

/-! ### Configuration streams (06 R131-R136) -/

/-- ADDR of an element and slot. -/
def addrWord (e slot : Nat) : W32 :=
  BitVec.ofNat 32 (2 ^ 30 + distDie (elemDist e) * 2 ^ 26 + elemRow e * 2 ^ 19 + elemCol e * 2 ^ 11 + slot * 2 ^ 9)

/-- The words that write fields of one element, `page` being selected. -/
def fieldWords : Nat → List (Nat × W32) → List W32
  | _, [] => []
  | page, (key, v) :: t =>
    let q := key / 64
    (if q = page then [] else [BitVec.ofNat 32 (63 * 2 ^ 16 + q)]) ++
      (if v.toNat < 2 ^ 16 then [] else [0x80000000#32 ||| v >>> 16]) ++
      [BitVec.ofNat 32 (key % 64 * 2 ^ 16 + v.toNat % 2 ^ 16)] ++ fieldWords q t

/-- The stream of a district's plane: its words in the order of elements (log 77). -/
def streamWords (ws : List (Nat × Nat × W32)) (d slot : Nat) : List W32 :=
  let mine := ws.filter fun w => elemDist w.1 == d
  let elems := ((mine.map (·.1)).eraseDups).mergeSort fun a b => decide (a ≤ b)
  let body := elems.flatMap fun e =>
    addrWord e slot :: fieldWords 0 ((mine.filter fun w => w.1 == e).map (·.2))
  [0xC1000000#32] ++ (if elems.isEmpty then [addrWord (elemAt d 0) slot] else body) ++ [0xC2000000#32]

/-- Delivers a stream; what COMMIT reports, and the first word at which that error stood. -/
def deliverStream (d : Nat) : List W32 → Nat → State → List (Nat × BitVec 4) → State × BitVec 4 × Nat
  | [], n, s, found =>
    let code := ((s.dist d).cfgError).getD 0
    (s, code, ((found.find? fun q => q.2 == code).map (·.1)).getD (n - 1))
  | w :: t, n, s, found =>
    let s1 := s.cfgDeliver d w
    let new := (s1.dist d).cfg.errors.filter fun e => !(found.any fun q => q.2 == e)
    deliverStream d t (n + 1) s1 (found ++ new.map fun e => (n, e))

/-- Commits every plane of every district, or stops at the first refusal (15 R297 step 5). -/
def commitAll (jobs : List (Nat × Nat × List W32)) (s : State) : Check State :=
  jobs.foldlM (fun s (d, slot, words) =>
    let (s1, code, w) := deliverStream d words 0 s []
    if code = 0 then .ok s1
    else .error { code := ldCommit, sub := code.toNat, dist := d, slot := slot, word := w }) s

/-! ### The region (16 R306) -/

/-- The region as loaded. -/
def Plf.region (p : Plf) (m : Config.Mash) (planes : List (List Nat)) (ds : List Nat) (part load : Nat) : Region :=
  let g := p.grist
  { loadId := BitVec.ofNat 32 load, part := BitVec.ofNat 6 part, districts := ds
    nodes := g.nodes.map fun n =>
      { dist := nth n.id ds, entry := BitVec.ofNat 32 n.entry, stack := n.stack, parent := n.parent
        kind := BitVec.ofNat 8 n.kind, lag := BitVec.ofNat 8 n.lag }
    leaves := (if g.leaves.isEmpty then [{ id := 0, node := 0, elems := g.elems.map (·.id) }] else g.leaves).map fun l =>
      { id := l.id, node := l.node, elems := l.elems.map (mashAt m g) }
    edges := ((List.range planes.length).zip planes).flatMap fun (k, leaves) => (g.planeEdges leaves).map fun (i, e) =>
      { src := mashAt m g e.src, dst := mashAt m g e.dst, ch := BitVec.ofNat 5 e.ch, plane := BitVec.ofNat 2 k
        sout := BitVec.ofNat 8 e.sout, dport := BitVec.ofNat 8 e.dport
        lvc := if distDie (elemDist (mashAt m g e.src)) = distDie (elemDist (mashAt m g e.dst)) then none
          else some (BitVec.ofNat 10 ((tget i m.lvcs).getD 0)) }
    data := p.dataRecs.map fun r => (p.tileOf m ds r * 2 ^ 19 + r.off, r.bytes)
    caps := g.caps.map fun c => (c.kreg, c.node, c.cap)
    objects := g.objects
    priority := BitVec.ofNat 3 ((g.nodes.head?).map (·.priority) |>.getD 0)
    estimate := BitVec.ofNat 32 ((g.nodes.head?).map (·.estimate) |>.getD 0)
    padding := m.pads.map (·.2) }

/-- Base and length in bytes of a partition's weight-store grant (16 R317). -/
def State.wsGrant (s : State) (part : Nat) : Nat × Nat :=
  let w := (tgetD part s.parts).ws.toNat
  if w.testBit 63 then (nbits w 17 0 * 65536, nbits w 49 32 * 65536) else (0, 0)

/-- The weight stores of the dies of a region with the WEIGHTS records copied in (14 R274). -/
def State.copyWeights (s : State) (ds : List Nat) (base : Nat) (recs : List DataRec) : State :=
  { s with ws := ((ds.map distDie).eraseDups).foldl (fun mem die =>
      recs.foldl (fun mem r => mputs (die * 2 ^ 34 + base + r.off) r.bytes mem) mem) s.ws }

/-- The instruction store of each node's district with its text (14 R266, R270; 06 R120). -/
def State.storeTexts (s : State) (p : Plf) (ds : List Nat) : State :=
  p.grist.nodes.foldl (fun s n => s.modDist (nth n.id ds) fun x =>
    { x with istore := mputs 0 (nth n.text p.sections).data [] }) s

/-! ### Birgil's cache (15 R288, R289) -/

/-- The place of an element in a grant, for a mash placed in another that corresponds to it. -/
def moved (old new : List Nat) (e : Nat) : Nat := elemAt (nth (old.idxOf (elemDist e)) new) (elemIdx e)

/-- A mash in another grant. A CUTIN entry names the die that its link virtual channel leaves (10 Table K-149), and moves with
it (DEDUCED, log 130). -/
def moveMash (old new : List Nat) (m : Config.Mash) : Config.Mash :=
  let die (v : W32) : W32 :=
    match (old.zip new).find? fun q => distDie q.1 == nbits v.toNat 13 10 with
    | some (_, d) => (v &&& ~~~0x3C00#32) ||| BitVec.ofNat 32 (distDie d * 2 ^ 10)
    | none => v
  { m with
    place := m.place.map (moved old new)
    pads := m.pads.map fun p => (p.1, moved old new p.2)
    own := m.own.map fun (k, e, key, v) =>
      (k, moved old new e, key, if elemKind e = .port ∧ key / 64 = 2 ∧ v.getLsbD 15 = true then die v else v) }

/-- What grants have in common that correspond, ordinal by ordinal: the same die-local districts, and the same ordinals
share a die. The dies are numbered as they first appear. -/
def grantShape (ds : List Nat) : List Nat :=
  let dies := (ds.map distDie).eraseDups
  ds.map fun d => 40 * dies.idxOf (distDie d) + d % 40

/-- The entry of the cache for a key and the shape of a grant. -/
def State.cachedFor (s : State) (h : BitVec 256) (shape : List Nat) : Option CachedMash :=
  s.hostif.mashes.find? fun c => c.hash == h && c.grant == shape

/-- An entry has been used: it is the last to be evicted (R289). -/
def State.remember (s : State) (c : CachedMash) : State :=
  { s with hostif := { s.hostif with mashes := (c :: s.hostif.mashes.filter fun x => x != c).take Config.cacheSize } }

/-! ### The load (15 R297) -/

/-- A load that has passed every check but the commits. -/
structure LoadPlan where
  file : Plf
  mash : Config.Mash
  ds : List Nat
  leaves : List (List Nat)
  planes : List PlaneCheck
  part : Nat
  /-- base and length of the weight-store grant -/
  grant : Nat × Nat
  /-- the entry of the cache that the load uses or makes -/
  entry : CachedMash
  cached : Bool
  deriving Repr, Inhabited

/-- REQUEST (14 R279). -/
def LoadCmd.request (c : LoadCmd) : List Byte := leBytes 2 c.ndist ++ leBytes 2 c.mask ++ List.replicate 28 0

/-- The file of a load and its checks (16 R306). A read that fails on the link is free, and one of bytes beyond the
host's 64-bit addresses always fails (DESIGN CHOICE, log 118). -/
def State.readFile (s : State) (c : LoadCmd) : Check Plf := do
  need (c.zeros && decide (c.part ≤ 63) && decide (1 ≤ c.ndist) && decide (c.ndist ≤ 639)) { code := ldBadCmd }
  need (decide (64 ≤ c.len) && decide (c.addr + c.len ≤ 2 ^ 64) && !Config.linkFails s.tick) { code := ldBadFetch }
  parsePlf (mgets c.addr c.len s.host) c.ndist (s.wsGrant c.part).2

/-- The planes of a placed grist. -/
def planesOf (g : Grist) (hs : List GHandler) (m : Config.Mash) (ds : List Nat) (leaves : List (List Nat)) :
    List PlaneCheck :=
  ((List.range leaves.length).zip leaves).map fun (k, l) => planeOf g hs m ds k l

/-- PROPNS: P_V1 of a region's planes in ns, rounded up (15 R298, R300). -/
def propNsOf (l : List PlaneCheck) : Nat := ((l.map PlaneCheck.propagation).foldl max 0 + 99) / 100

/-- Birgil's placement in a grant of a shape: one with P_V1 within 340 ns in every plane where the grist allows one, else
any (15 R287, R288, R301). It rests on the GRIST and REQUEST bytes and the grant alone, on no handler (R288). -/
def Plf.placed (p : Plf) (req : List Byte) (shape ds : List Nat) : Option Config.Mash :=
  let ask (tight : Bool) : Option Config.Mash := (Config.birgil p.gristBytes req shape tight).filter fun m =>
    let m := moveMash shape ds m
    mashPlaced m p.grist ds && (!tight || decide (propNsOf (planesOf p.grist [] m ds p.grist.planes) ≤ 340))
  match ask true with
  | some m => some m
  | none => ask false

/-- The mash for a grist in a grant: from the cache, or placed by Birgil. Either way it is Birgil's placement in the shape of
the grant, moved to the districts granted, so that what the cache holds changes no stream (15 R287-R289). -/
def State.mashFor (s : State) (c : LoadCmd) (p : Plf) (ds : List Nat) : Check (Config.Mash × CachedMash × Bool) :=
  let h := shakeWord (p.gristBytes ++ c.request)
  let shape := grantShape ds
  match s.cachedFor h shape with
  | some e => .ok (moveMash shape ds e.mash, e, true)
  | none =>
    match p.placed c.request shape ds with
    | some m => .ok (moveMash shape ds m, { hash := h, grant := shape, mash := m }, false)
    | none => .error { code := ldNoRoom }

/-- A load as placed, or the first refusal of the file and the placement (15 R297 steps 1 to 3). -/
def State.placement (s : State) (c : LoadCmd) : Check LoadPlan := do
  let p ← s.readFile c
  let g := p.grist
  need (g.gen == 1) { code := ldGenNewer }
  let leaves := g.planes
  need (decide (leaves.length ≤ 4)) { code := ldPlaneCount }
  let room : LoadErr := { code := ldNoRoom }
  need (decide (g.nodes.length ≤ c.ndist)) room
  let ds ← match s.grantFor c.mask c.ndist with
    | some ds => .ok ds
    | none => .error room
  let (m, entry, hit) ← s.mashFor c p ds
  return { file := p, mash := m, ds := ds, leaves := leaves, planes := planesOf p.grist p.handlers m ds leaves, part := c.part
           grant := s.wsGrant c.part, entry := entry, cached := hit }

/-- A placed load with its relocations applied. -/
def LoadPlan.relocate (l : LoadPlan) : Check LoadPlan := do
  let q ← l.file.relocated l.mash l.ds
  return { l with file := q, planes := planesOf q.grist q.handlers l.mash l.ds l.leaves }

/-- The checks of a relocated load: its data, and those of Table C-10, which a mash from the cache has passed. -/
def LoadPlan.checks (l : LoadPlan) : Check Unit := do
  need (l.file.dataRecs.all fun r => l.file.dataFits l.mash ((l.planes.map (·.ws)).headD []) l.ds r) { code := ldDataRange }
  if l.cached then .ok () else checkPlanes l.planes

/-- A load up to its commits, or the first refusal (15 R297). -/
def State.plan (s : State) (c : LoadCmd) : Check LoadPlan := do
  let l ← (← s.placement c).relocate
  l.checks
  return l

/-- The mash of a region as its districts hold it. -/
def State.mashHeld (s : State) (ds : List Nat) : List MashPart :=
  ds.map fun d => let x := s.dist d; { dist := d, istore := x.istore, images := x.images, stored := x.stored }

/-- The region is set up and its planes are committed, or the first commit that fails (15 R297 step 5). -/
def LoadPlan.commit (l : LoadPlan) (s : State) : Check State := do
  let load := s.hostif.nextLoad.toNat
  let s1 := s.clearFor l.ds
  let s2 := { s1 with regions := s1.regions ++ [l.file.region l.mash l.leaves l.ds l.part load] }
  let jobs := ((List.range l.planes.length).zip l.planes).flatMap fun (k, p) => l.ds.map fun d => (d, k, streamWords p.ws d k)
  let s3 ← commitAll jobs s2
  let s4 := (s3.storeTexts l.file l.ds).copyWeights l.ds l.grant.1 l.file.weightRecs
  return s4.modRegion (BitVec.ofNat 32 load) fun r => { r with mash := s4.mashHeld l.ds }

/-- PROPNS of a load. -/
def LoadPlan.propNs (l : LoadPlan) : Nat := propNsOf l.planes

/-- A load must wait before it writes the weight stores: a kernel of the partition runs on a die of the region (14 R274; 04
R100; DEDUCED, log 143). -/
def LoadPlan.waits (l : LoadPlan) (s : State) : Bool :=
  !l.file.weightRecs.isEmpty && s.regions.any fun r =>
    r.part.toNat == l.part && r.status != .idle && r.districts.any fun d => l.ds.any fun x => distDie x == distDie d

/-! ### The command and its completion (16 R306, 15 R298) -/

/-- The status record of a load (15 Table C-11) with LOADID and zeros (16 R306). -/
def statusRecord (e : LoadErr) (cached : Bool) (propNs pads load : Nat) : List Byte :=
  leBytes 2 e.code ++ leBytes 2 e.sub ++ leBytes 2 e.id1 ++ leBytes 2 e.id2 ++ leBytes 2 e.dist ++ leBytes 1 e.slot ++
    [if cached then 1 else 0] ++ leBytes 4 e.word ++ leBytes 4 propNs ++ leBytes 4 pads ++ leBytes 8 0 ++
    leBytes 4 load ++ List.replicate 28 0

/-- The record of a placed load that is refused: CACHE, PROPNS and PADS are those of its mash. -/
def LoadPlan.refusal (l : LoadPlan) (e : LoadErr) : List Byte := statusRecord e l.cached l.propNs l.mash.pads.length 0

/-- The record of a load that is refused before its commits: one that had no mash yet tells nothing of it. -/
def State.refusal (s : State) (c : LoadCmd) (e : LoadErr) : List Byte :=
  match s.placement c with
  | .error _ => statusRecord e false 0 0 0
  | .ok l => match l.relocate with
    | .ok q => q.refusal e
    | .error _ => l.refusal e

/-- The LOADID after one; 0 stands for failure. -/
def nextLoadId (n : BitVec 32) : BitVec 32 := if n + 1 = 0 then 1 else n + 1

/-- LOADCMD: it starts a load, or is ignored: while STATE is not 3, while a load runs, or where STATADDR is not 64-byte
aligned; the last two set CMDIGN (16 R306, 19 R350). -/
def loadCmdWrite (w : BitVec 512) (s : State) : State :=
  let b := leBytes 64 w.toNat
  if s.boot.state ≠ 3 then s
  else if s.hostif.loadBusy ∨ (parseLoadCmd b).stat % 64 ≠ 0 then { s with hostif := { s.hostif with cmdIgn := true } }
  else { s with hostif := { s.hostif with loadBusy := true, cmdIgn := false, loadcmd := some b } }

/-- LOADCMD. -/
def execLoadcmd (w : BitVec 512) (s : State) : Out := .next (loadCmdWrite w s)

/-- LOAD_COMPLETE: the running load ends; its completion is written to the host. A refusal leaves nothing of the load
behind (15 R297); a mash that has passed the checks stays in Birgil's cache, whatever its commits do (15 R289). -/
def execLoadComplete (s : State) : Out :=
  .next (match s.hostif.loadcmd with
    | none => s
    | some b =>
      let c := parseLoadCmd b
      let id := s.hostif.nextLoad
      let done (t : State) : State := { t with hostif := { t.hostif with loadBusy := false, loadcmd := none } }
      match s.plan c with
      | .error e => (done s).hostWrite c.stat (s.refusal c e)
      | .ok l =>
        if l.waits s then s
        else
          let s1 := s.remember l.entry
          match l.commit s1 with
          | .ok t =>
            let u := { t with hostif := { t.hostif with nextLoad := nextLoadId id } }
            (done u).hostWrite c.stat (statusRecord { code := 0 } l.cached l.propNs l.mash.pads.length id.toNat)
          | .error e => (done s1).hostWrite c.stat (l.refusal e))

end Sys2Proof.Machine
end

