-- ==== Sys2Proof/Machine/Pager.lean ====
section
/-! DEFINITION. The pager, invalidation of translations, migration, host access to HBM (17 R331, R334-R336, R340, R344;
05 R119). -/

namespace Sys2Proof.Machine

/-! ### Whole pages of memory -/

/-- The bytes listed in a range. -/
def mrange (lo n : Nat) (m : Memory) : Memory := m.filter fun c => lo ≤ c.1 && c.1 < lo + n

/-- A range as zeros: nothing is listed there. -/
def mzero (lo n : Nat) (m : Memory) : Memory := m.filter fun c => !(lo ≤ c.1 && c.1 < lo + n)

/-- Copies n bytes from one memory into another. -/
def mcopy (src dst n : Nat) (a b : Memory) : Memory :=
  (b.filter fun c => c.1 < dst) ++ ((mrange src n a).map fun c => (c.1 - src + dst, c.2)) ++
    (b.filter fun c => dst + n ≤ c.1)

/-! ### Restarting faulted traffic (R335) -/

/-- Every PORT re-issues its held control-class reads in the order they were held. -/
def State.globalReplay (s : State) : State :=
  s.districts.foldl (fun s (d, _) => s.modDist d fun x =>
    let (data, ctl) := x.port.heldReads.partition fun h => h.acc.issuer.dataClass
    { x with port := { x.port.reissue ctl with heldReads := data } }) s

/-- Every PORT of a partition's regions replays what it has logged of a page (R333). -/
def State.replayAll (s : State) (part obj page : Nat) (force : Bool) : State :=
  s.districts.foldl (fun s (d, _) =>
    if (s.regionAt d).isSome ∧ s.partAt d = part then s.replayPage d part obj page force else s) s

/-- A saved region's contexts stand in its districts, in place of what occupies these. -/
def State.inPlace (s : State) (r : Region) : State :=
  let s1 := r.districts.foldl (fun t d => (t.setDist d (s.context r d)).modReg d fun g => { g with incarnation := r.inc }) s
  { s1 with regions := s1.regions.map fun q =>
      if q.loadId = r.loadId then { q with saved := false }
      else if q.districts.any r.districts.contains then { q with saved := true } else q }

/-- The PORTs of a saved region replay what they have logged of a page, past WB; then its contexts are in the cask again and
all else stands as before, in `s` (17 R340 step 5). -/
def State.replaySaved (s : State) (r : Region) (obj page : Nat) : State :=
  let s1 := r.districts.foldl (fun s d => s.replayPage d r.part.toNat obj page true) (s.inPlace r)
  let s2 := r.districts.foldl State.flushTlb s1
  let s3 := r.districts.foldl (fun t d =>
    (t.setDist d (s.dist d)).modReg d fun g => { g with incarnation := (s.distReg d).incarnation }) s2
  { s3 with
    cask := r.districts.foldl (fun l d => match s.slotOwned r.loadId d with
      | some k => tset k (s2.dist d) l
      | none => l) s3.cask
    regions := s3.regions.map fun q => { q with saved := ((s.regionOf q.loadId).map (·.saved)).getD q.saved } }

/-- A saved region's PORTs hold writes to a page. -/
def State.savedHolds (s : State) (r : Region) (obj page : Nat) : Bool :=
  r.saved && r.districts.any fun d => (s.context r d).port.sideLog.any fun x =>
    x.fsn.isNone && s.onPage r.part.toNat obj page x.acc

/-- Whether a pending fault is one on a page. -/
def PageFault.isOn (f : PageFault) (part obj page : Nat) : Bool :=
  f.part.toNat == part && f.obj.toNat == obj && f.page.toNat == page

/-- The faults on a page are resolved, all of them at once: side logs replay, each data-class fault's PORT gets its RESUME,
then every PORT re-issues its held control-class reads (R332, R334 step 4, R335). -/
def State.restart (s : State) (part obj page : Nat) : State :=
  let (mine, rest) := s.paging.faults.partition fun f => f.isOn part obj page
  let s1 := { s with paging := { s.paging with faults := rest } }
  let s2 := s1.replayAll part obj page false
  let s3 := (mine.filter (·.dataClass)).foldl (fun s f => s.modDist f.dist fun x =>
    { x with port := { x.port with resumeQ := x.port.resumeQ ++ [f.fsn] } }) s2
  s3.globalReplay

/-! ### Frames (R334, R336) -/

/-- The objects of a partition that its table lists. -/
def State.objects (s : State) (part : Nat) : List Nat :=
  let c := (tgetD part s.parts).otcfg.toNat
  let a := nbits c 39 4 * 16
  (((mrange a (16 * nbits c 63 40) s.hbm).map fun c => (c.1 - a) / 16).eraseDups)

/-- The pages of an object that its page table lists. -/
def State.listedPages (s : State) (o : Obj) : List Nat :=
  ((mrange o.ptaddr (8 * o.pages) s.hbm).map fun c => (c.1 - o.ptaddr) / 8).eraseDups

/-- A page that the pager may reclaim: VALID, in HBM, ZERO, neither DIRTY, PINNED nor MIGRATING (R336). -/
def reclaimable (e : Nat) : Bool :=
  pteValid e && pteLoc e == 0 && pteZero e && !pteDirty e && !ptePinned e && !pteMigrating e

/-- The pages that the pager may reclaim for a page of a size, other than that page: partition, object, page. A large page
needs the frames of a large one (DEDUCED, log 57). -/
def State.reclaimList (s : State) (large : Bool) (part obj page : Nat) : List (Nat × Nat × Nat) :=
  s.parts.flatMap fun (p, _) => (s.objects p).flatMap fun j =>
    match s.objectOf p j with
    | none => []
    | some o =>
      if large && !o.large then []
      else ((s.listedPages o).filter fun n => reclaimable (s.pte o n) && (p, j, n) != (part, obj, page)).map fun n => (p, j, n)

/-- Invalidates a page in every cache. -/
def State.dropPage (s : State) (part obj page : Nat) : State := s.dropTlb fun t => t.isFor part obj page

/-- A free frame: the last one pushed into the pool (DESIGN CHOICE, log 57), else the frame of a reclaimed page, whose
entry becomes demand-zero (R336). -/
def State.takeFrame (s : State) (large : Bool) (part obj page : Nat) : Option (Nat × State) :=
  let p := s.paging
  if p.fpcount ≠ 0 then
    let n := p.fpcount.toNat - 1
    some (mgetN (nbits p.fpcfg.toNat 39 3 * 8 + 8 * n) 8 s.hbm % 2 ^ 36,
      { s with paging := { p with fpcount := BitVec.ofNat 24 n } })
  else
    let l := s.reclaimList large part obj page
    match l[Config.reclaimPick s.tick % l.length]? with
    | none => none
    | some (pp, j, n) =>
      match s.objectOf pp j with
      | none => none
      | some o =>
        let e := s.pte o n
        some (pteFrame e, (s.setPte o n (pteAttr e * 2 ^ 24)).dropPage pp j n)

/-- Changes the record of a pending fault. -/
def State.modFault (s : State) (fsn : BitVec 24) (f : PageFault → PageFault) : State :=
  { s with paging := { s.paging with faults := s.paging.faults.map fun g => if g.fsn = fsn then f g else g } }

/-- The pending faults on a page, which merge into one resolution (R332). -/
def State.faultsOn (s : State) (part obj page : Nat) : List PageFault :=
  s.paging.faults.filter fun f => f.isOn part obj page

/-- A demand-zero page gets a frame of zeros: VALID and ZERO, ATTR and PINNED kept (R334 step 2). The pager invalidates the
page after it (R331). -/
def State.fillPage (s : State) (o : Obj) (page e frame : Nat) : State :=
  let s1 := { s with hbm := mzero (frameByte 0 frame 0) o.pageSize s.hbm }
  s1.setPte o page (frame * 2 ^ 28 + pteAttr e * 2 ^ 24 + 2 ^ 23 + (if ptePinned e then 2 ^ 21 else 0) + 2 ^ 18)

/-- The pager works on a fault (R334, R336): an entry that is VALID needs nothing, and that of a software fault waits for its
FSN at PGRESOLVE besides; a demand-zero page gets a frame, or, with none to be had, one RECLAIM notification; any other is a
software fault with one SWFAULT notification. Faults on one page are one resolution (R332). -/
def State.pagerAct (s : State) (fsn : BitVec 24) : State :=
  match s.paging.faults.find? fun f => f.fsn == fsn with
  | none => s
  | some f =>
    let part := f.part.toNat
    let obj := f.obj.toNat
    let page := f.page.toNat
    match s.objectOf part obj with
    | none => s
    | some o =>
      let e := s.pte o page
      let all := s.faultsOn part obj page
      let software := all.any (·.software)
      if pteValid e then (if software && !all.any (·.resolved) then s else s.restart part obj page)
      else if software then s
      else if pteLoc e = 0 ∧ pteFrame e = 0 then
        match s.takeFrame o.large part obj page with
        | some (frame, s1) => ((s1.fillPage o page e frame).dropPage part obj page).restart part obj page
        | none => if all.any (·.notified) then s
          else (s.modFault fsn fun f => { f with notified := true }).notify 3 part 0 0 obj page 0 f.dist
      else (s.modFault fsn fun f => { f with software := true }).notify 2 part 0 fsn.toNat obj page 0 f.dist

/-- PAGER_RESOLVE: the pager takes up a fault record (17 R334). -/
def execPagerResolve (fsn : BitVec 24) (s : State) : Out := .next (s.pagerAct fsn)

/-- RECLAIM_RETRY: with no frame to be had, the pager tries again (17 R336: every 10 us). -/
def execReclaimRetry (fsn : BitVec 24) (s : State) : Out :=
  .next (match s.paging.faults.find? fun f => f.fsn == fsn with
    | some f => if (s.faultsOn f.part.toNat f.obj.toNat f.page.toNat).any (·.notified) then s.pagerAct fsn else s
    | none => s)

/-- A page entry is VALID. -/
def State.pageValid (s : State) (part obj page : Nat) : Bool :=
  match s.objectOf part obj with
  | some o => pteValid (s.pte o page)
  | none => false

/-- A write to PGRESOLVE: software has mapped the page of a pending fault; the pager restarts its traffic once the entry is
VALID too. An FSN that is not pending is ignored (17 R334). -/
def State.resolveFault (s : State) (v : BitVec 64) : State :=
  let fsn : BitVec 24 := v.setWidth 24
  match s.paging.faults.find? fun f => f.fsn == fsn with
  | some f =>
    if s.pageValid f.part.toNat f.obj.toNat f.page.toNat then s.restart f.part.toNat f.obj.toNat f.page.toNat
    else s.modFault fsn fun f => { f with resolved := true }
  | none => s

/-- PGRESOLVE. -/
def execPgresolve (v : BitVec 64) (s : State) : Out := .next (s.hostWrites fun s => s.resolveFault v)

/-- A write to FPPUSH: the frame enters the pool, where there is room (17 R334, Table D-14). -/
def State.pushFrame (s : State) (v : BitVec 64) : State :=
  let p := s.paging
  if nbits p.fpcfg.toNat 63 40 ≤ p.fpcount.toNat then s
  else
    { s with hbm := mputN (nbits p.fpcfg.toNat 39 3 * 8 + 8 * p.fpcount.toNat) 8 (v.toNat % 2 ^ 36) s.hbm
             paging := { p with fpcount := p.fpcount + 1 } }

/-- FPPUSH. -/
def execFppush (v : BitVec 64) (s : State) : Out := .next (s.hostWrites fun s => s.pushFrame v)

/-- An access that waits for the page of a fault, of the fault's class and launch. -/
def State.waitsFor (s : State) (f : PageFault) (a : Access) : Bool :=
  a.issuer.dataClass == f.dataClass && a.inc == f.inc && s.onPage f.part.toNat f.obj.toNat f.page.toNat a

/-- Traffic at a PORT that waits for the page of a fault: reads held or re-issued, and logged writes. A read that has been
re-issued and has met the page unmapped again waits under a number of its own (17 R335), and the fault is still
unresolved. -/
def State.portWaits (s : State) (f : PageFault) (x : District) : List Access :=
  (((x.port.heldReads.map (·.acc)) ++ (x.port.accessQ.filter (·.again))).filter (s.waitsFor f)) ++
    ((x.port.sideLog.filter fun w => w.fsn.isSome && s.waitsFor f w.acc).map (·.acc))

/-- Traffic of the resident region, which is of the fault's partition, that waits for a fault. -/
def State.faultHeld (s : State) (f : PageFault) : List Access :=
  if (s.regionAt f.dist).any fun r => r.part == f.part then s.portWaits f (s.dist f.dist) else []

/-- Traffic of a saved region of the fault's partition waits for a fault. -/
def State.faultSaved (s : State) (f : PageFault) : Bool :=
  s.cask.any fun (k, x) => k / 2 == f.dist && !(s.portWaits f x).isEmpty &&
    match (tget k s.caskOwner).bind s.regionOf with
    | some r => r.part == f.part
    | none => false

/-- PAGE_EXHAUSTED: a fault unresolved PGDEADLINE us after its record reached the pager is contained, and the host is told;
the step stands at that instant or later (17 R336, R341). The first access that waits names the command or instruction at
fault (01 R39). Where no traffic waits for it any more nothing is contained; a
saved region's fault waits with it (DEDUCED, log 84). -/
def execPageExhausted (fsn : BitVec 24) (s : State) : Out :=
  .next (match s.paging.faults.find? fun f => f.fsn == fsn with
    | none => s
    | some f =>
      if (s.faultHeld f).isEmpty && s.faultSaved f then s else
      let s1 := { s with
        timebase := max s.timebase (f.since + 1000 * s.paging.deadline.toNat)
        paging := { s.paging with faults := s.paging.faults.filter fun g => g.fsn != fsn } }
      let s2 := s1.notify 4 f.part.toNat 0 fsn.toNat f.obj.toNat f.page.toNat 0 f.dist
      match s.faultHeld f with
      | [] => s2
      | a :: _ => s2.containAs codePageExhausted (!f.dataClass) (if f.dataClass then portElem f.dist else elemAt f.dist seqIdx)
          (s2.planeAt f.dist) (s.accessName f.dist a))

/-! ### Invalidation (R331) -/

/-- Whether a TLBINV covers a page (17 Table D-14). -/
def invCovers (v : BitVec 64) (part obj page : Nat) : Bool :=
  let n := v.toNat
  match nbits n 1 0 with
  | 0 => part == nbits n 63 58 && obj == nbits n 57 34 && page == nbits n 33 10
  | 1 => part == nbits n 63 58 && obj == nbits n 57 34
  | 2 => part == nbits n 63 58
  | _ => true

/-- A write to TLBINV; ignored while BUSY = 1. -/
def State.startInv (s : State) (v : BitVec 64) : State :=
  if s.paging.tlbinv.isSome then s else { s with paging := { s.paging with tlbinv := some v } }

/-- TLBINV. -/
def execTlbinv (v : BitVec 64) (s : State) : Out := .next (s.hostWrites fun s => s.startInv v)

/-- Side-log entries of a partition that WB held and whose covered page is mapped and takes writes again: rewritten and now
invalidated, they may replay (17 R340, after a failed step 4). -/
def State.freeHeld (s : State) (v : BitVec 64) (part : Nat) (l : List SideEntry) : List SideEntry :=
  l.map fun x =>
    let page := s.pageOf part x.acc
    if x.fsn.isNone && invCovers v part x.acc.obj.toNat page && s.mapped part x.acc.obj.toNat page then { x with freed := true } else x

/-- Writes that WB held and that a rewritten and invalidated entry now lets through replay; those of a saved region do when
it comes back. -/
def State.releaseHeld (s : State) (v : BitVec 64) : State :=
  let s : State := { s with
    districts := s.districts.map fun (d, x) => (d, { x with port := { x.port with
      sideLog := s.freeHeld v (s.partAt d) x.port.sideLog } })
    cask := s.cask.map fun (k, x) => (k, match (tget k s.caskOwner).bind s.regionOf with
      | some r => { x with port := { x.port with sideLog := s.freeHeld v r.part.toNat x.port.sideLog } }
      | none => x) }
  s.districts.foldl (fun s (d, _) =>
    let part := s.partAt d
    ((s.dist d).port.sideLog.filter fun x => x.fsn.isNone).foldl (fun s x =>
      let page := s.pageOf part x.acc
      if invCovers v part x.acc.obj.toNat page then s.replayMapped d part x.acc.obj.toNat page else s) s) s

/-- TLBINV_COMPLETE: the covered entries leave every cache, their counts written back, and BUSY returns to 0; every access
translated through one has been performed, since an access here is one act (17 R331, R338). -/
def execTlbinvComplete (s : State) : Out :=
  .next (match s.paging.tlbinv with
    | none => s
    | some v =>
      let s1 := s.dropTlb fun t => invCovers v t.part.toNat t.obj.toNat t.page.toNat
      ({ s1 with paging := { s1.paging with tlbinv := none } }).releaseHeld v)

/-! ### Migration (R340) -/

/-- Sets STATE and ERR. -/
def State.migOutcome (s : State) (st : BitVec 2) (err : BitVec 8) : State :=
  { s with paging := { s.paging with mig := { s.paging.mig with state := st, err := err } } }

/-- The page that a MIGSRC value names, with its object where it exists. -/
def State.migPage (s : State) (src : BitVec 64) : Option (Obj × Nat × Nat × Nat) :=
  let v := src.toNat
  let part := nbits v 63 58
  let obj := nbits v 57 34
  let page := nbits v 33 10
  match s.objectOf part obj with
  | none => none
  | some o => if page < o.pages then some (o, part, obj, page) else none

/-- A PORT that has accesses of a page to add to ACC writes its count back, and the entry leaves its cache (17 R338). -/
def State.raceBack (s : State) (part obj page : Nat) : Option State :=
  s.districts.findSome? fun (d, x) =>
    (x.port.tlb.find? fun t => t.isFor part obj page && decide (0 < t.count)).map fun t =>
      (s.writeBack d t).modTlb d fun l => l.filter fun u => !u.isFor part obj page

/-- A write to MIGDST: while a migration runs it is refused; else step 1 of 17 R340 with its checks. Its swap fails where a
PORT's count is written back between the read and the swap, which Config.migrationRace decides (18 R348; DESIGN CHOICE, log
127). -/
def State.startMigration (s : State) (v : BitVec 64) : State :=
  if s.paging.mig.state = 1 then s.migOutcome 1 1
  else
    let frame := v.toNat % 2 ^ 36
    match s.migPage s.paging.mig.src with
    | none => s.migOutcome 3 2
    | some (o, part, obj, page) =>
      let e := s.pte o page
      if pteValid e = false ∨ pteLoc e ≠ 1 then s.migOutcome 3 2
      else if ptePinned e ∨ pteMigrating e = true then s.migOutcome 3 3
      else if 2 ^ 24 ≤ frame ∨ (o.large = true ∧ frame % 256 ≠ 0) then s.migOutcome 3 4
      else match (if Config.migrationRace s.tick then s.raceBack part obj page else none) with
        | some s1 => s1.migOutcome 3 5
        | none =>
          let e1 := e + 2 ^ 20 + (if pteWb e then 0 else 2 ^ 19)
          let s1 := (s.setPte o page e1).dropPage part obj page
          let s2 := s1.migOutcome 1 0
          { s2 with paging := { s2.paging with mig := { s2.paging.mig with
              frame := BitVec.ofNat 36 frame, entry := BitVec.ofNat 64 e1, page := s.paging.mig.src } } }

/-- MIGRATION_START. -/
def execMigrationStart (v : BitVec 64) (s : State) : Out := .next (s.hostWrites fun s => s.startMigration v)

/-- MIGRATION_COPY_DONE: the copy has been made; the entry switches frame, unless it has changed since step 1 (ERR 5, WB
stays), and every PORT's held writes, those of saved regions among them, replay into the new frame before WB falls (17
R340 steps 3 to 5; 18 R345). -/
def execMigrationCopyDone (s : State) : Out :=
  .next (
    if s.paging.mig.state ≠ 1 then s
    else match s.migPage s.paging.mig.page with
      | none => s.migOutcome 3 5
      | some (o, part, obj, page) =>
        let e := s.paging.mig.entry.toNat
        let frame := s.paging.mig.frame.toNat
        let s1 := { s with hbm := mcopy (frameByte 1 (pteFrame e) 0) (frameByte 0 frame 0) o.pageSize s.host s.hbm }
        if s1.pte o page ≠ e then s1.migOutcome 3 5
        else
          let e4 := frame * 2 ^ 28 + pteAttr e * 2 ^ 24 + 2 ^ 23 + (if pteDirty e then 2 ^ 22 else 0) +
            (if ptePinned e then 2 ^ 21 else 0) + 2 ^ 19 + (if pteZero e then 2 ^ 18 else 0)
          let s2 := (s1.setPte o page e4).dropPage part obj page
          let s3 := (s2.regions.filter fun r => r.part.toNat == part && s2.savedHolds r obj page).foldl
            (fun s r => s.replaySaved r obj page) (s2.replayAll part obj page true)
          let s4 := s3.setPte o page (s3.pte o page - 2 ^ 19)
          (s4.notify 6 part 0 0 obj page 0 0xFFFF).migOutcome 2 0)

/-! ### The host -/

/-- HOST_ACCESS: a CXL.mem access of the host to HBM, of at most 64 bytes within a line, coherent with the device's: a
write lands whole; a read leaves the module as it is (05 R119). Outside HBM it is none. -/
def execHostAccess (addr size : Nat) (wr : Option (BitVec 512)) (s : State) : Out :=
  .next (match wr with
    | none => s
    | some v =>
      if addr % 64 + size ≤ 64 ∧ addr + size ≤ 2 ^ 40 then { s with hbm := mputs addr (leBytes size v.toNat) s.hbm } else s)

end Sys2Proof.Machine
end

