-- ==== Sys2Proof/Machine/SchedIns.lean ====
section
/-! DEFINITION. Launch, power and counters as a SEQ reaches them, and halt: sched, sys.halt (08 R193, R199; 16 R312,
R314; 22 R378). -/

namespace Sys2Proof.Machine

/-- sched.pitch (08 R193): a predecessor event of entry g[ga][11:0]; its TOC count falls when the acceptance reaches the
SEQ. -/
def execSchedPitch (a : BitVec 5) (s : State) : Out :=
  let x := s.cr
  let v := x.rdG a
  let e := v.toNat % 4096
  let part := ((s.regionAt s.core).map (·.part.toNat)).getD 0
  .next (onFabric s (
    if !decide (v.toNat < 4096) || !s.depValid e then syncTrap s causeSched 1
    else if s.depPart e ≠ part then syncTrap s causeSched 2
    else if x.mayRaise .toc then
      (predEvent (finish s (x.bump .toc)) e none).reply s.core { counter := .toc }
    else s))

/-- sched.claim (08 R193): the region's requested level, V1 to V4. -/
def execSchedClaim (a : BitVec 5) (s : State) : Out :=
  let v := (s.cr.rdG a).toNat
  .next (onFabric s (
    if v < 1 ∨ 4 < v then syncTrap s causeSched 3
    else match s.regionAt s.core with
      | none => finish s s.cr
      | some r => (finish s s.cr).modRegion r.loadId fun r => { r with want := v }))

/-- sched.level (08 R193): the granted level and the boost permits as they stand after the latest boundary. -/
def execSchedLevel (d : BitVec 5) (s : State) : Out :=
  let (level, _, permits) := s.dlevel s.core
  .next (onFabric s (finishG s d (BitVec.ofNat 64 (level + permits * 2 ^ 8))))

/-- Selects an event for a counter of a district, which becomes 0 in the same act (22 R378). -/
def District.select (x : District) (k : Nat) (ev : BitVec 16) : District :=
  { x with perf := vset x.perf k 0, perfSel := vset x.perfSel k ev }

/-- sched.perfsel (08 R193). -/
def execSchedPerfsel (a b : BitVec 5) (s : State) : Out :=
  let ev := s.cr.rdG a
  let k := (s.cr.rdG b).toNat
  .next (onFabric s (
    if 4 ≤ k then syncTrap s causeSched 4
    else
      let s1 := finish s s.cr
      (s1.settlePerf s1.core).modDist s1.core fun x => x.select k (ev.setWidth 16)))

/-- sys.halt (08 R199): it waits until all four counters are 0, and no interrupt is taken while it waits (R201);
EXIT_NO_BARRIER if a remote request was issued since the last completed rbar; else the SEQ stops, and the launch ends with
the last SEQ of the region (16 R314). -/
def execSysHalt (s : State) : Out :=
  let x := s.cr
  .next (
    if x.ldc + x.stc + x.cpc + x.toc ≠ 0 then s.setCr { x with noInt := true }
    else if x.remote then syncTrap (s.setCr { x with noInt := false }) causeExitNoBarrier
    else
      let s1 := s.setCr { x with halted := true, running := false, noInt := false }
      if s.core = mgmtCore then s1 else launchEnd s1 s.core)

end Sys2Proof.Machine
end

