-- ==== Sys2Proof/Machine/Host.lean ====
section
/-! DEFINITION. What the host writes: scheduler memory, banks, partitions, the gang schedule, bindings, doorbells,
counters, capture, traces, and the map of the BARs (16 R305, R308, R311, R315, R317, R322, R324, R325; 17 Table D-14; 19
R366; 22 R377-R382). -/

namespace Sys2Proof.Machine

/-! ### Scheduler memory: BAR 4 (R311, R315) -/

/-- Bytes of scheduler memory as an 8-byte write at an offset changes them; the read-only ones keep what they hold: PRED
(6, 7) and PENDING (19) of a dependence entry. -/
def depStore (s : State) (e o : Nat) (v : BitVec 64) : State :=
  let n := v.toNat
  if o = 0 then s.setDep e 0 6 n
  else if o = 16 then (s.setDep e 16 3 n).setDep e 20 4 (n / 2 ^ 32)
  else s.setDep e o 8 n

/-- Reserved bytes and bits of an entry are zero, and so are unused successor slots (Table D-7). -/
def State.depZeros (s : State) (e : Nat) : Bool :=
  let c := s.dep e 0 4
  nbits c 25 22 == 0 && nbits c 15 0 == 0 && s.dep e 48 16 == 0 &&
    (List.range 10).all fun j => decide (j < s.dep e 18 1) || s.dep e (20 + 2 * j) 2 == 0

/-- BATCHDEST is 16-byte aligned, and the 128 bytes from it lie in one tile of the region, below its CFGBASE. -/
def State.batchFits (s : State) (r : Region) (a : Nat) : Bool :=
  let t := a / 2 ^ 19
  let off := a % 2 ^ 19
  let base := ((s.context r (nth (t / 250) r.districts)).image (tileIdx (t % 250)) 0).field 0 62 0x6000
  a % 16 == 0 && decide (t < 250 * r.districts.length) && decide (off + 128 ≤ min tileSize (16 * base))

/-- The check of an entry that the host sets VALID (R311); the region where it passes. -/
def State.depCheck (s : State) (e : Nat) : Option Region :=
  match s.regionOf (s.depLoad e) with
  | none => none
  | some r =>
    let b := s.depBatch e
    if r.part.toNat = s.depPart e ∧ s.dep e 18 1 ≤ 10 ∧ s.depZeros e = true ∧
        (b = 0xFFFF ∨ (b < 1024 ∧ s.batchFits r (s.dep e 40 8) = true)) then some r
    else none

/-- PENDING of an entry becomes 0: the launches that it counted are asked for no more, and their triggers complete as
failed (DESIGN CHOICE, log 128). -/
def State.dropPending (s : State) (e : Nat) : State :=
  let (gone, rest) := s.hostif.waiting.partition fun a => a.entry == e && a.pending
  gone.foldl (fun s a => completeTrigger s a.trigger true) { s with hostif := { s.hostif with waiting := rest } }

/-- An entry becomes VALID, or DEPERR names it. -/
def depValidate (s : State) (e : Nat) : State :=
  match s.depCheck e with
  | none => { s with hostif := { s.hostif with deperr := BitVec.ofNat 12 e } }
  | some r =>
    let c := s.dep e 0 4
    let c1 := if c.testBit 26 then c - nbits c 29 27 * 2 ^ 27 + r.priority.toNat * 2 ^ 27 else c
    let s1 := if c.testBit 26 then s.setDep e 12 4 r.estimate.toNat else s
    (((s1.setDep e 0 4 (c1 + 2 ^ 31)).setDep e 6 2 (s1.dep e 4 2)).setDep e 19 1 0).dropPending e

/-- An 8-byte write to byte o of entry e. -/
def depWrite (e o : Nat) (v : BitVec 64) (s : State) : State :=
  if 64 ≤ o then s.setDep e o 8 v.toNat
  else if s.depValid e then
    (if o = 0 ∧ v.getLsbD 31 = false then s.setDep e 0 4 (s.dep e 0 4 - 2 ^ 31) else s)
  else if o = 0 ∧ v.getLsbD 31 = true then depValidate (depStore s e 0 (v &&& ~~~0x80000000#64)) e
  else depStore s e o v

/-- An 8-byte write to byte o of a batch entry: VERSION + 1 commits STAGE to LIVE (R315). -/
def batchWrite (n o : Nat) (v : BitVec 64) (s : State) : State :=
  let base := 0x80000 + 256 * n
  if o = 0 then
    (if v = BitVec.ofNat 64 (mgetN base 8 s.sched) + 1 then
      { s with sched := mputs (base + 136) (mgets (base + 16) 120 s.sched) (mputN base 8 v.toNat s.sched) }
    else s)
  else if 16 ≤ o ∧ o < 136 then { s with sched := mputN (base + o) 8 v.toNat s.sched }
  else s

/-- An aligned 8-byte write to BAR 4. What lies beyond the two tables is the firmware's: such a write is ignored. -/
def schedWrite (off : Nat) (v : BitVec 64) (s : State) : State :=
  if off < 0x80000 then depWrite (off / 128) (off % 128) v s
  else if off < 0xC0000 then batchWrite ((off - 0x80000) / 256) (off % 256) v s
  else s

/-- DEPENDENCE_VALID_SET: a write to CTRL of an entry (R311). -/
def execDependenceValidSet (e : Nat) (v : BitVec 64) (s : State) : Out := .next (s.hostWrites (depWrite e 0 v))

/-- DEPENDENCE_VALID_CLEAR: a write to CTRL of an entry (R311, R307). -/
def execDependenceValidClear (e : Nat) (v : BitVec 64) (s : State) : Out := .next (s.hostWrites (depWrite e 0 v))

/-- BATCH_COMMIT: a write to VERSION of a batch entry (R315). -/
def execBatchCommit (n : Nat) (v : BitVec 64) (s : State) : Out := .next (s.hostWrites (batchWrite n 0 v))

/-! ### Banks and partitions (R308, R317) -/

/-- A write to BANKCFG: PART keeps its value while EN = 1 (Table D-5). -/
def bankcfgWrite (b : Nat) (v : BitVec 64) (s : State) : State :=
  let k := tgetD b s.banks
  let keep : BitVec 64 := if k.cfg.getLsbD 15 then 0x3F00 else 0
  let c := (v &&& 0xFF7F &&& ~~~keep) ||| (k.cfg &&& keep)
  { s with banks := tset b ({ k with cfg := c }.suspend (s.switchedOut (c.extractLsb' 8 6))) s.banks }

/-- BANKCFG_WRITE. -/
def execBankcfgWrite (b : Nat) (v : BitVec 64) (s : State) : Out := .next (s.hostWrites (bankcfgWrite b v))

/-- A write to PARTWS: ignored while the partition has a loaded region (R317). -/
def partwsWrite (p : Nat) (v : BitVec 64) (s : State) : State :=
  if s.regions.any fun r => r.part.toNat == p then s
  else { s with parts := tmod p (fun k => { k with ws := v &&& 0x8003FFFF0003FFFF }) s.parts }

/-- PARTWS_WRITE. -/
def execPartwsWrite (p : Nat) (v : BitVec 64) (s : State) : Out := .next (s.hostWrites (partwsWrite p v))

/-- A write to PARTCTL (Table D-9); TOKENS is read-only. -/
def partctlWrite (p : Nat) (v : BitVec 64) (s : State) : State :=
  { s with parts := tmod p (fun k =>
    { k with bindto := v.extractLsb' 32 16, tokMax := v.extractLsb' 16 8, tokRate := v.extractLsb' 8 8 }) s.parts }

/-- GANGSTAT_WRITE. -/
def execGangstatWrite (v : BitVec 64) (s : State) : Out := .next (s.hostWrites (gangstatWrite v))

/-! ### Bindings and doorbells (R324, R325) -/

/-- The check of a BINDCMD: the position is a PE of a resident region of PART; FORMAT is assigned (01 R23), and a join
channel of the plane stays unbound (09 R204). -/
def State.bindTarget (s : State) (v : BitVec 64) : Option Nat :=
  let n := v.toNat
  let ch := nbits n 36 32
  let vce := nbits n 15 0
  match elemOf (nbits n 57 54) (nbits n 53 47) (nbits n 46 39) with
  | none => none
  | some e =>
    let x := s.dist (elemDist e)
    let im := x.image (elemIdx e) (x.slotOf (elemIdx e) ch).toNat
    let joins := (List.range 8).any fun h => (joinsOf (im.field 0 (6 * h) 0)).contains ch
    if elemKind e = .pe ∧ (s.regionAt (elemDist e)).any (fun r => r.part.toNat == nbits n 63 58) = true ∧
        vceFormat vce < 12 ∧ (vceBound vce && joins) = false then some e
    else none

/-- A write to BINDCMD arrives: it is pending (0), or ignored (3) because an earlier one has not been applied. -/
def bindWrite (v : BitVec 64) (s : State) : State :=
  if s.hostif.bind.isSome then { s with hostif := { s.hostif with bindst := 3 } }
  else { s with hostif := { s.hostif with bind := some v, bindst := 0 } }

/-- The device checks the pending binding and applies it: the entry of the channel in its active plane takes VCE, in one
act between two handler selections (R324). A token whose binding timer has run out before is timed out (R326). -/
def carryBind (s : State) : State :=
  match s.hostif.bind with
  | none => s
  | some v =>
    let st (n : BitVec 8) (s : State) : State := { s with hostif := { s.hostif with bind := none, bindst := n } }
    match s.bindTarget v with
    | none => st 2 s
    | some e =>
      let ch := nbits v.toNat 36 32
      let i := elemIdx e
      let s1 := (s.expireBinds e ch).modDist (elemDist e) fun x =>
        let k := 4 * i + (x.slotOf i ch).toNat
        { x with images := tmod k (fun im => { im with fields := tset (64 + ch) ((v.setWidth 16).setWidth 32) im.fields })
                    x.images }
      st 1 (s1.settlePass e)

/-- BINDCMD: as UNLOAD, for a binding (log 120). -/
def execBindcmd (v : BitVec 64) (s : State) : Out :=
  if s.hostif.bind.any fun u => u != v then .next (s.hostWrites (bindWrite v))
  else if s.hostif.bind.isSome then .next (carryBind s)
  else .next (s.hostWrites fun s => carryBind (bindWrite v s))

/-- A write to DOORBELL: INTERRUPT SUB 2 at the district's SEQ, or held while the region is saved; else DBST.ERR (R325). A
doorbell that its SEQ has not yet taken takes in a second. -/
def bellWrite (v : BitVec 64) (s : State) : State :=
  let d := nbits v.toNat 9 0
  let part : BitVec 6 := v.extractLsb' 58 6
  let err := { s with hostif := { s.hostif with dbErr := true } }
  if nbits v.toNat 57 10 ≠ 0 ∨ d = 0 ∨ 640 ≤ d then err
  else if (s.regionAt d).any fun r => r.part == part then
    (if (s.coreOf d).pending.any fun k => k.cause == causeInterrupt && k.sub == 2 then s else s.interrupt d 2)
  else if s.regions.any fun r => r.part == part && r.saved && r.districts.contains d then
    (if s.hostif.bellHeld.contains (d, part) then s
     else { s with hostif := { s.hostif with bellHeld := s.hostif.bellHeld ++ [(d, part)] } })
  else err

/-- DOORBELL. -/
def execDoorbell (v : BitVec 64) (s : State) : Out := .next (s.hostWrites (bellWrite v))

/-- A write to DBST: ERR is cleared by writing 1. -/
def dbstWrite (v : BitVec 64) (s : State) : State :=
  if v.getLsbD 0 then { s with hostif := { s.hostif with dbErr := false } } else s

/-- DBST_WRITE. -/
def execDbstWrite (v : BitVec 64) (s : State) : Out := .next (s.hostWrites (dbstWrite v))

/-- ATTESTREQ (19 R366). -/
def execAttestreq (v : BitVec 64) (s : State) : Out := .next (s.hostWrites (attestWrite v))

/-! ### Performance counters (22 R378-R380) -/

/-- The first TIMEBASE multiple of 1,000 ns after now. -/
def State.nextUs (s : State) : Nat := (s.timebase / 1000 + 1) * 1000

/-- The districts of a FIRST and LAST that are not retired. -/
def State.perfRange (s : State) (v : BitVec 64) : List Nat :=
  (List.range 640).filter fun d =>
    decide (nbits v.toNat 41 32 ≤ d ∧ d ≤ nbits v.toNat 25 16) && !(s.distReg d).retired

/-- A write to PERFSEL waits for its boundary. -/
def perfselWrite (v : BitVec 64) (s : State) : State :=
  { s with fleet := { s.fleet with perfsel := s.fleet.perfsel ++ [(s.nextUs, v)] } }

/-- PERFSEL (22 R379). -/
def execPerfsel (v : BitVec 64) (s : State) : Out := .next (s.hostWrites (perfselWrite v))

/-- One selection is applied in its districts: the counters become 0 in the same act. -/
def selectAll (s : State) (v : BitVec 64) : State :=
  (s.perfRange v).foldl (fun s d => (s.settlePerf d).modDist d fun x =>
    x.select (nbits v.toNat 9 8) (v.extractLsb' 0 8 |>.setWidth 16)) s

/-- The selections due at an instant are applied, in the order of their writes. -/
def State.applySelections (s : State) (t : Nat) : State :=
  let (now, later) := s.fleet.perfsel.partition fun q => decide (q.1 ≤ t)
  now.foldl (fun s q => selectAll s q.2) { s with fleet := { s.fleet with perfsel := later } }

/-- PERFSEL_APPLY: the selections of the first boundary that waits are applied (22 R379). -/
def execPerfselApply (s : State) : Out :=
  .next (match s.fleet.perfsel with
    | [] => s
    | (t, _) :: _ => { s with timebase := max s.timebase t }.applySelections t)

/-- A write to CTRQ: ERR 2 while one is under way, whatever GO says; ERR 1 for OP 3 (22 R380). -/
def ctrqWrite (v : BitVec 64) (s : State) : State :=
  let f := s.fleet
  if f.ctrq.isSome then { s with fleet := { f with ctrerr := 2 } }
  else if !v.getLsbD 63 then s
  else if nbits v.toNat 1 0 = 3 then { s with fleet := { f with ctrerr := 1 } }
  else { s with fleet := { f with ctrq := some (s.nextUs, v), ctrerr := 0 } }

/-- CTRQ. -/
def execCtrq (v : BitVec 64) (s : State) : Out := .next (s.hostWrites (ctrqWrite v))

/-- Sum, minimum or maximum of some counts; 0 for none. -/
def reduceCounts (op : Nat) (l : List Nat) : Nat :=
  match op with
  | 0 => l.sum
  | 1 => l.min?.getD 0
  | _ => l.max?.getD 0

/-- CTRQ_LATCH: at the instant the selections due are applied, then every included district latches its counter (22 R380). -/
def execCtrqLatch (s : State) : Out :=
  .next (match s.fleet.ctrq with
    | none => s
    | some (t, v) =>
      let s1 := { s with timebase := max s.timebase t }.applySelections t
      let ds := s1.perfRange v
      let s2 := ds.foldl State.settlePerf s1
      let l := ds.map fun d => (vget (s2.dist d).perf (nbits v.toNat 9 8)).toNat
      { s2 with fleet := { s2.fleet with
          ctrq := none, ctrres := BitVec.ofNat 64 (reduceCounts (nbits v.toNat 1 0) l), ctrn := BitVec.ofNat 10 ds.length } })

/-! ### Capture and traces (22 R381, R382) -/

/-- Tokens lose the numbers of an earlier capture, and its markers go. -/
def District.unmarked (x : District) : District :=
  let t0 (t : Token) : Token := { t with fire := 0 }
  let h0 (h : Held) : Held := { h with tok := t0 h.tok }
  { x with
    lastArr := [], fired := []
    skid := x.skid.map fun (k, l) => (k, l.map h0)
    outq := x.outq.map fun (k, l) => (k, l.map fun (n, t) => (n, t0 t))
    pes := x.pes.map fun (i, p) => (i, { p with
      donePend := p.donePend.map fun (l, t) => (l, t0 t)
      head := { p.head with
        slots := p.head.slots.map fun (q, v) => (q, { v with src := h0 v.src })
        delay := p.head.delay.map fun t => t.map t0 } })
    mns := x.mns.map fun (i, m) => (i, { m with cur := m.cur.map h0, rowbuf := m.rowbuf.map h0 })
    ros := x.ros.map fun (i, r) => (i, { r with tensors := r.tensors.map fun t =>
      { t with entries := t.entries.map t0, ended := h0 t.ended } }) }

/-- The sink that a capture request names: a PE or an MN of a resident region. -/
def State.sinkOf (s : State) (v : Nat) : Option Nat :=
  if nbits v 15 8 ≠ 0 ∨ nbits v 23 23 ≠ 0 ∨ nbits v 31 28 ≠ 0 then none
  else match elemOf (nbits v 27 24) (nbits v 22 16) (nbits v 7 0) with
    | none => none
    | some e =>
      if (elemKind e = .pe ∨ elemKind e = .mn) ∧ (s.regionAt (elemDist e)).isSome = true then some e else none

/-- A write to CPCAP reads the request and arms the capture, or fails (22 R381). -/
def cpcapWrite (v : BitVec 64) (s : State) : State :=
  let a := v.toNat / 64 * 64
  let n := mgetN (a + 8) 4 s.host
  let s1 := { s with fleet := { s.fleet with cpcap := v &&& ~~~0x3F#64, cpn := 0 } }
  let fail := { s1 with fleet := { s1.fleet with cpst := 3 } }
  if mgetN (a + 4) 4 s.host ≠ 0 ∨ mgetN (a + 12) 4 s.host ≠ 0 ∨ n = 0 then fail
  else match s.sinkOf (mgetN a 4 s.host) with
    | none => fail
    | some e =>
      { s1 with
        districts := s1.districts.map fun (d, x) => (d, x.unmarked)
        fleet := { s1.fleet with cpst := 1, cpSink := e, cpOrd := n } }

/-- CPCAP. -/
def execCpcap (v : BitVec 64) (s : State) : Out := .next (s.hostWrites (cpcapWrite v))

/-- A write to TRCCTL. LOG2N below 4 is a value no table assigns, and reads as zero (00 R5; 22 R382). -/
def trcctlWrite (v : BitVec 64) (s : State) : State :=
  { s with fleet := { s.fleet with trcctl := v &&& ~~~(if nbits v.toNat 5 2 < 4 then 0x3E else 2#64) } }

/-- A write to TRCSAMP: sampling begins one period later. -/
def trcsampWrite (v : BitVec 64) (s : State) : State :=
  { s with nextTrace := s.timebase + 1000 * (v.toNat % 2 ^ 32), fleet := { s.fleet with trcsamp := v.setWidth 32 } }

/-- TRACE_PC_SAMPLE: every running SEQ gives a sample of its PC (22 R382). -/
def execTracePcSample (s : State) : Out :=
  .next (
    if s.fleet.trcsamp = 0 then s
    else
      let s1 := { s with timebase := max s.timebase s.nextTrace, nextTrace := s.nextTrace + 1000 * s.fleet.trcsamp.toNat }
      (s1.districts.filter fun (_, x) => x.core.running).foldl (fun s (d, x) =>
        s.trace 4 d (x.core.pc.setWidth 32) x.core.ecsn 0) s1)

/-! ### The map of the BARs (R305) -/

/-- A write to NQCTL: LOG2N below 4 stores 4 (17 Table D-14). -/
def nqctlWrite (v : BitVec 64) (s : State) : State :=
  { s with paging := { s.paging with
      nqctl := (v &&& 0x80007F0000000000) ||| BitVec.ofNat 64 (max 4 (nbits v.toNat 35 32)) <<< 32 } }

/-- A write to a paging register, 0x5000 to 0x528F of BAR 0 (17 Table D-14); read-only ones keep their values. -/
def pagingWrite (off : Nat) (v : BitVec 64) (s : State) : State :=
  let p := s.paging
  if off < 0x5200 then
    { s with parts := tmod ((off - 0x5000) / 8) (fun k => { k with otcfg := v &&& ~~~0xF#64 }) s.parts }
  else match off with
    | 0x5200 => { s with paging := { p with hotth := v.setWidth 16 } }
    | 0x5208 => { s with paging := { p with deadline := v.setWidth 32 } }
    | 0x5210 => { s with paging := { p with fpcfg := v &&& ~~~7#64 } }
    | 0x5218 => s.pushFrame v
    | 0x5230 => { s with paging := { p with nqbase := v &&& ~~~0x3F#64 } }
    | 0x5238 => nqctlWrite v s
    | 0x5248 => { s with paging := { p with nqtail := v.setWidth 32 } }
    | 0x5260 => s.startInv v
    | 0x5270 => { s with paging := { p with mig := { p.mig with src := v &&& ~~~0x3FF#64 } } }
    | 0x5278 => s.startMigration v
    | 0x5288 => s.resolveFault v
    | _ => s

/-- A write to a register of fleet operation, from 0x8400 of BAR 0 (22). -/
def fleetWrite (off : Nat) (v : BitVec 64) (s : State) : State :=
  match off with
  | 0x8400 => replthWrite v s
  | 0x8480 => perfselWrite v s
  | 0x8488 => ctrqWrite v s
  | 0x84A0 => cpcapWrite v s
  | 0x84B0 => trcctlWrite v s
  | 0x84C0 => { s with fleet := { s.fleet with trctail := v.setWidth 32 } }
  | 0x84D0 => trcsampWrite v s
  | _ => s

/-- A write to a register of BAR 0; one that no table assigns, or that is read-only, ignores it. LOADCMD takes a 64-byte
write only. -/
def bar0Write (off : Nat) (v : BitVec 64) (s : State) : State :=
  if 0x1000 ≤ off ∧ off < 0x1200 then bankcfgWrite ((off - 0x1000) / 8) v s
  else if 0x2000 ≤ off ∧ off < 0x2400 then
    (if off % 16 = 0 then partwsWrite ((off - 0x2000) / 16) v s else partctlWrite ((off - 0x2000) / 16) v s)
  else if off = 0x3010 then gangstatWrite v s
  else if off = 0x3000 ∨ off = 0x3008 ∨ (0x3100 ≤ off ∧ off < 0x3300) then gangWrite off v s
  else if 0x5000 ≤ off ∧ off < 0x5290 then pagingWrite off v s
  else if 0x8400 ≤ off ∧ off < 0x8500 then fleetWrite off v s
  else match off with
    | 0x4000 => { s with hostif := { s.hostif with drainth := v.setWidth 32 } }
    | 0x4090 => bindWrite v s
    | 0x40A0 => bellWrite v s
    | 0x40A8 => dbstWrite v s
    | 0x40B0 => unloadWrite v s
    | 0x6008 => attestWrite v s
    | _ => s

/-- A write of so many bytes by the host to a BAR (R305). A bank's trigger record takes an aligned write of 64 bytes, any
other is no whole trigger (R308), and LOADCMD takes one such write; everywhere else a width other than 8 or a misaligned
offset is ignored. -/
def barWrite (bar off bytes : Nat) (v : BitVec 512) (s : State) : State :=
  if bar = 2 then (if off < 0x40000 ∧ off % 4096 = 0 then triggerWrite (off / 4096) (bytes == 64) v s else s)
  else if bar = 0 ∧ off = 0x4040 then (if bytes = 64 then loadCmdWrite v s else s)
  else if bytes ≠ 8 ∨ off % 8 ≠ 0 then s
  else if bar = 0 then bar0Write off (v.setWidth 64) s
  else if bar = 4 then schedWrite off (v.setWidth 64) s
  else s

/-- REGISTER_WRITE: bytes that the host writes to a BAR, lowest address first (R305). -/
def execRegisterWrite (bar off : Nat) (v : List Byte) (s : State) : Out :=
  .next (s.hostWrites (barWrite bar off v.length (BitVec.ofNat 512 (leNat v))))

end Sys2Proof.Machine
end

