-- ==== Sys2Proof/Machine/Mn.lean ====
section
/-! DEFINITION. Matrix nodes: control tokens, products, the two weight planes and their fills
(10 R235-R241, R254; 12 R259; 06 R139, R140; 03 R75). -/

namespace Sys2Proof.Machine

/-- The matrix node of an element number. -/
def State.mn (s : State) (e : Nat) : Mn := tgetD (elemUnit e) (s.dist (elemDist e)).mns

/-- Changes a matrix node. -/
def State.modMn (s : State) (e : Nat) (f : Mn → Mn) : State := s.modDist (elemDist e) fun x => x.modMn (elemUnit e) f

/-! ### Control tokens (06 R139, Table K-52) -/

def mcOp (w : W32) : Nat := nbits w.toNat 31 27
def mcK (w : W32) : Nat := nbits w.toNat 26 21 + 1
def mcN (w : W32) : Nat := nbits w.toNat 20 15
def mcAcc (w : W32) : Bool := w.getLsbD 14
def mcBank (w : W32) : Nat := nbits w.toNat 13 12
def mcAfmt (w : W32) : Nat := nbits w.toNat 11 8
def mcWfmt (w : W32) : Nat := nbits w.toNat 7 4

/-- The bits that an operation uses, OP's among them; none for an unassigned OP (10 Table K-117). -/
def mcUsed (op : Nat) : Option W32 :=
  match op with
  | 1 => some 0xFFFFFFF0
  | 2 => some 0xF81FF0F0
  | 3 => some 0xF8000000
  | 4 => some 0xF81FB000
  | 5 => some 0xF81FB000
  | 6 => some 0xF81FF000
  | 7 => some 0xF8000000
  | _ => none

/-- The elements of a row that a MUL or MULACC multiplies; none where the node does not support the pair, or no row is
latched (10 R237, R238). -/
def Mn.pair (m : Mn) (w : W32) : Option Nat :=
  if mcOp w = 1 then pairElems (mcAfmt w) (mcWfmt w) (mcK w)
  else match m.row with
    | none => none
    | some (row, a) => pairElems a.toNat (mcWfmt w) row.length

/-- A defective control token (06 R140). -/
def Mn.defective (m : Mn) (w : W32) : Bool :=
  match mcUsed (mcOp w) with
  | none => true
  | some u => w &&& ~~~u != 0 || ((mcOp w == 1 || mcOp w == 2) && (m.pair w).isNone)

/-- The next control token in arrival order: from the fabric on CTLCH with its channel and link, or the SEQ's oldest mtok
(none) (10 R235). -/
def State.mnNext (s : State) (e : Nat) : Option (Option (Nat × Nat) × Held) :=
  let fab := s.inputHead e 0 0 fun t => t.kind == 4
  let seq := (s.mn e).mtokQ.head?.map fun k =>
    let ch := BitVec.ofNat 5 (s.inField e 0 0 0 0)
    ({ arr := k.arr, ns := k.ns
       tok := { kind := 4, channel := ch, data := k.cmd.setWidth 32, tag := some (k.core, 0) } } : Held)
  match fab, seq with
  | some (c, l, h), some q => if h.arr < q.arr then some (some (c, l), h) else some (none, q)
  | some (c, l, h), none => some (some (c, l), h)
  | none, some q => some (none, q)
  | none, none => none

/-- The node accepts a control token: it leaves its channel, or TOC of its mtok falls (08 R189). -/
def State.mnPop (s : State) (e : Nat) (src : Option (Nat × Nat)) : State :=
  match src with
  | some (c, l) => s.popAt e l c
  | none => match (s.mn e).mtokQ with
    | [] => s
    | k :: rest => (s.modMn e fun m => { m with mtokQ := rest }).endCmd k .toc (elemUnit e)

/-- Begins the next control token if it is of an operation, once all that the one before formed has left the node: a
defective one is discarded with the fault MNCTL, whatever its operation where that is unassigned; any other takes a power
token, without which the node waits (10 R235, R236). -/
def State.mnTake (s : State) (e op : Nat) : State :=
  match (s.mn e).cur, s.mnNext e with
  | none, some (src, h) =>
    let w := h.tok.data
    if (s.outOf e).isEmpty = false ∨ (mcOp w ≠ op ∧ (mcUsed (mcOp w)).isSome = true) then s
    else if (s.mn e).defective w then (s.mnPop e src).fabricFault codeMnctl e h.tok.channel.toNat
    else if ((s.regionAt (elemDist e)).map (·.pool)).getD 0 = 0 then s
    else
      let d := elemDist e
      (((s.mnPop e src).modMn e fun m => { m with cur := some h }).spend d).markFired d
  | _, _ => s

/-- The node has executed its control token: it counts, and the last-arrival marker takes the operands (22 R378, R381). -/
def State.mnDone (s : State) (e : Nat) (h : Held) : State :=
  let ops := (h :: (s.mn e).rowbuf).map fun h => (h.tok.channel.toNat, h)
  ((s.markFiring e ops).tally (elemDist e) evMnTokens 1).modMn e fun m => { m with cur := none, rowbuf := [] }

/-- Takes data tokens from ACTCH until the node holds n (10 R235, R236). -/
def mnRow (e n : Nat) : Nat → State → State
  | 0, s => s
  | fuel + 1, s =>
    if n ≤ (s.mn e).rowbuf.length then s
    else match s.inputHead e 1 1 Token.isData with
      | none => s
      | some (c, l, h) => mnRow e n fuel ((s.popAt e l c).modMn e fun m => { m with rowbuf := m.rowbuf ++ [h] })

/-- The DATA of the first error end-of-stream token among some. -/
def firstError (l : List Held) : Option W32 := (l.find? fun h => h.tok.marker == 3).map (·.tok.data)

/-- A control token of an operation is executed once its data tokens are there. -/
def State.mnStep (s : State) (e op tokens : Nat) (act : Held → State → State) : State :=
  if elemKind e ≠ .mn ∨ s.acts e = false then s
  else
    let s1 := (s.drain e).mnTake e op
    match (s1.mn e).cur with
    | none => s1
    | some h =>
      if mcOp h.tok.data ≠ op then s1
      else
        let n := if op = 1 then (mcK h.tok.data + 3) / 4 else tokens
        let s2 := mnRow e n 16 s1
        if (s2.mn e).rowbuf.length < n then s2 else act h s2

/-! ### Products (10 R238) -/

/-- The bytes of weight row n. -/
def Mn.weights (m : Mn) (n len : Nat) : List Byte := mgets (64 * n) len m.active

/-- Sets a bank's poison. -/
def Mn.spoil (m : Mn) (bank : Nat) (code : W32) : Mn := { m with poison := vset m.poison bank (some code) }

/-- Column n of a product: the new accumulator word and the conditions raised. The products are summed first and the old
accumulator is added to their sum, so infinities of opposite sign among the products raise V whatever it holds (10 R238;
03 R64, R75). -/
def Mn.column (m : Mn) (rm : RM) (afmt wfmt e : Nat) (row : List Byte) (acc : Bool) (bank n : Nat) : W32 × Conds :=
  let old := (tget (64 * bank + n) m.acc).getD 0
  let wrow := m.weights n (rowBytes wfmt e)
  if afmt = 8 ∨ afmt = 9 then
    let s0 := ((rowDiffs afmt e row m.za).zip (rowDiffs wfmt e wrow m.zw)).foldl (fun t (a, w) => t + a * w) 0
    intResult true (if acc then s0 + old.toInt else s0)
  else
    let ab := (rowVals afmt e row).zip (rowVals wfmt e wrow)
    let terms := ab.map fun (a, w) => Val.mul a w
    let nan := ab.any fun (a, w) => a.isNaN || w.isNaN
    let s := Val.sum rm terms
    let (r, c) := rnd32 rm (if acc then Val.add rm s (val32 old) else s)
    (r, c ||| condIf nan condV)

/-- Writes the columns 0 to `n` of a bank. -/
def Mn.multiply (m : Mn) (rm : RM) (w : W32) (row : List Byte) (afmt e : Nat) : Mn :=
  let bank := mcBank w
  (List.range (mcN w + 1)).foldl (fun m' n =>
    let (r, c) := m.column rm afmt (mcWfmt w) e row (mcAcc w) bank n
    { m' with acc := tset (64 * bank + n) r m'.acc, flags := vset m'.flags bank (vget m'.flags bank ||| c) }) m

/-- A product of the latched row: a poisoned plane, or poisoned zero points of an integer pair, poisons the bank instead
(12 R259; 10 R239). -/
def Mn.product (m : Mn) (rm : RM) (w : W32) (row : List Byte) (afmt e : Nat) : Mn :=
  match m.actPoison with
  | some c => m.spoil (mcBank w) c
  | none => match (if afmt = 8 ∨ afmt = 9 then m.zpPoison else none) with
    | some c => m.spoil (mcBank w) c
    | none => m.multiply rm w row afmt e

/-- The rounding mode of a node. -/
def State.mnRm (s : State) (e : Nat) : RM := RM.ofBits (BitVec.ofNat 2 (s.inField e 0 0 6 0))

/-- MN_MUL (10 R238): the row is latched; an error token among its tokens poisons the bank instead, with that token's DATA
also where the active plane is poisoned (DESIGN CHOICE, log 173). -/
def execMnMul (e : Nat) (s : State) : Out :=
  .next (s.mnStep e 1 0 fun h s =>
    let w := h.tok.data
    let rm := s.mnRm e
    (s.modMn e fun m =>
      match firstError m.rowbuf with
      | some c => m.spoil (mcBank w) c
      | none =>
        let row := (bytesOfWords (m.rowbuf.map fun h => h.tok.data)).take (mcK w)
        match m.pair w with
        | none => m
        | some n => { m with row := some (row, BitVec.ofNat 4 (mcAfmt w)) }.product rm w row (mcAfmt w) n).mnDone e h)

/-- MN_MULACC (10 R238). -/
def execMnMulacc (e : Nat) (s : State) : Out :=
  .next (s.mnStep e 2 0 fun h s =>
    let w := h.tok.data
    let rm := s.mnRm e
    (s.modMn e fun m =>
      match m.row, m.pair w with
      | some (row, a), some n => m.product rm w row a.toNat n
      | _, _ => m).mnDone e h)

/-! ### The shadow plane (10 R240, 12 R259) -/

/-- The data token that waits on SHDCH, where token fill is accepted. -/
def State.shadowHead (s : State) (e : Nat) : Option (Nat × Nat × Held) :=
  match s.inputHead e 2 2 Token.isData with
  | none => none
  | some (c, l, h) => if s.chanField e c 0 3 0 = 1 then some (c, l, h) else none

/-- A node after a token on SHDCH: an error token writes nothing and poisons the plane; token i writes bytes 4i to 4i + 3;
end-of-tensor or token 1,023 completes the fill. -/
def Mn.fill (m : Mn) (t : Token) : Mn :=
  if t.marker = 3 then { m with shState := .full, shPoison := some t.data, shCount := 0, shByToken := false }
  else
    let n := m.shCount + 1
    let m1 := { m with shadow := mputs (4 * m.shCount) (leBytes 4 t.data.toNat) m.shadow, shPoison := none }
    if t.marker = 2 ∨ n = 1024 then { m1 with shState := .full, shCount := 0, shByToken := false }
    else { m1 with shState := .filling, shCount := n, shByToken := true }

/-- Whether a token that reached the node at a step may write the shadow: it goes on with a token fill, or begins one on an
EMPTY plane that no steep reached first. -/
def Mn.mayFill (m : Mn) (arr : Nat) : Bool :=
  match m.shState with
  | .filling => m.shByToken
  | .full => false
  | .empty => match m.steepQ with
    | [] => true
    | k :: _ => arr < k.arr

/-- The node takes the token that waits on SHDCH, if it may. -/
def State.shadowTake (s : State) (e : Nat) : State :=
  match s.shadowHead e with
  | none => s
  | some (c, l, h) =>
    if (s.mn e).mayFill h.arr then (s.popAt e l c).modMn e fun m => m.fill h.tok else s

/-- SHADOW_FILL_TOKEN. -/
def execShadowFillToken (e : Nat) (s : State) : Out :=
  .next (if elemKind e = .mn ∧ s.acts e = true then s.shadowTake e else s)

/-- STEEP: the steep at the head of its queue begins to fill an EMPTY plane, before a SHDCH token that came later, and
then completes: shadow W[n][b] := weight-store byte o + 64n + b (10 R240; 08 R189). -/
def execSteep (e : Nat) (s : State) : Out :=
  let m := s.mn e
  .next (if elemKind e ≠ .mn ∨ s.acts e = false then s
    else match m.steepQ with
      | [] => s
      | k :: rest => match m.shState with
        | .full => s
        | .filling =>
          if m.shByToken then s
          else
            let bs := mgets (distDie (elemDist e) * 2 ^ 34 + k.cmd.toNat) 4096 s.ws
            (s.modMn e fun m => { m with shadow := mputs 0 bs m.shadow, shState := .full, steepQ := rest }).endCmd
              k .cpc (elemUnit e)
        | .empty =>
          if (match s.shadowHead e with
            | some (_, _, h) => m.mayFill h.arr
            | none => false) then s
          else s.modMn e fun m => { m with shState := .filling, shByToken := false, shPoison := none })

/-- MN_SWAP: waits while the shadow is FILLING, or EMPTY with a token waiting on SHDCH; the active plane takes the shadow's
bytes and its poison, the shadow is EMPTY, and the node takes a waiting SHDCH token first (10 R240, 12 R259). -/
def execMnSwap (e : Nat) (s : State) : Out :=
  .next (s.mnStep e 3 0 fun h s =>
    let m := s.mn e
    if m.shState = .filling ∨ (m.shState = .empty ∧ (s.shadowHead e).isSome = true) then s
    else
      ((s.modMn e fun m =>
        { m with active := m.shadow, shState := .empty, shPoison := none
                 actPoison := if m.shState = .full then m.shPoison else none }).mnDone e h).shadowTake e)

/-! ### READ, CLEAR, DRAIN, SETZP -/

/-- The tokens of READ or DRAIN for some columns of a bank, the last marked end-of-row; error tokens where the bank is
poisoned, or where its FLAGS meet FATAL (10 R241). -/
def Mn.tokens (m : Mn) (ch : BitVec 5) (ph : BitVec 6) (fatal : Conds) (bank : Nat) (cols : List Nat) : List Token :=
  let fl := vget m.flags bank
  match vget m.poison bank with
  | some c => cols.map fun _ => { dataTok ch c 3 with phase := ph }
  | none =>
    if fl &&& fatal ≠ 0 then cols.map fun _ => { dataTok ch (fl.setWidth 32) 3 with phase := ph }
    else cols.mapIdx fun i n =>
      { dataTok ch ((tget (64 * bank + n) m.acc).getD 0) (if i + 1 = cols.length then 1 else 0) with phase := ph }

/-- A node emits the words of some columns. -/
def State.mnEmit (s : State) (e : Nat) (h : Held) (cols : List Nat) : State :=
  let f (k : Nat) : Nat := s.inField e 0 0 k 0
  let n := s.firingNumber e
  let ts := (s.mn e).tokens (BitVec.ofNat 5 (f 5)) h.tok.phase (BitVec.ofNat 5 (f 7)) (mcBank h.tok.data) cols
  s.emit e (ts.map fun t => (f 4, { t with fire := n }))

/-- The columns 0 to n of a bank become 0. -/
def Mn.zero (m : Mn) (bank n : Nat) : Mn :=
  { m with acc := (List.range (n + 1)).foldl (fun l i => tset (64 * bank + i) 0 l) m.acc }

/-- FLAGS and POISON of a bank become 0. -/
def Mn.calm (m : Mn) (bank : Nat) : Mn := { m with flags := vset m.flags bank 0, poison := vset m.poison bank none }

/-- MN_READ (10 R241). -/
def execMnRead (e : Nat) (s : State) : Out :=
  .next (s.mnStep e 4 0 fun h s => (s.mnEmit e h [mcN h.tok.data]).mnDone e h)

/-- MN_CLEAR (10 Table K-117). -/
def execMnClear (e : Nat) (s : State) : Out :=
  .next (s.mnStep e 5 0 fun h s =>
    let w := h.tok.data
    (s.modMn e fun m => (m.zero (mcBank w) (mcN w)).calm (mcBank w)).mnDone e h)

/-- MN_DRAIN (10 R241). -/
def execMnDrain (e : Nat) (s : State) : Out :=
  .next (s.mnStep e 6 0 fun h s =>
    let w := h.tok.data
    ((s.mnEmit e h (List.range (mcN w + 1))).modMn e fun m =>
      (if mcAcc w then m else m.zero (mcBank w) (mcN w)).calm (mcBank w)).mnDone e h)

/-- MN_SETZP (10 R239): four tokens of zero points; an error token among them keeps the old ones and poisons them. -/
def execMnSetzp (e : Nat) (s : State) : Out :=
  .next (s.mnStep e 7 4 fun h s =>
    (s.modMn e fun m =>
      match firstError m.rowbuf with
      | some c => { m with zpPoison := some c }
      | none =>
        let z := bytesOfWords (m.rowbuf.map fun h => h.tok.data)
        { m with za := Vector.ofFn fun i => nth i.val z, zw := Vector.ofFn fun i => nth (8 + i.val) z
                 zpPoison := none }).mnDone e h)

end Sys2Proof.Machine
end

