-- ==== Sys2Proof/Machine/Husk.lean ====
section
/-! DEFINITION. Containment: the husk of a fault, what its edges carry, what ends and what is withdrawn, who is told
(17 R341, R342; 10 R254; 01 R39; 02 R47, R51; 22 R382). -/

namespace Sys2Proof.Machine

/-! ### The elements of a husk (R342) -/

/-- Elements reached from some by edges in either direction, a round at a time. SEQs join no husk, so no edge leads on through
one (DEDUCED, log 82). -/
def growGo (edges : List Edge) : Nat → List Nat → List Nat
  | 0, l => l
  | n + 1, l =>
    let more := edges.foldl (fun l g => if l.contains g.src then nadd g.dst l else if l.contains g.dst then nadd g.src l else l) l
    if more.length = l.length then l else growGo edges n more

/-- The elements connected to one by edges of a plane within its region. -/
def Region.component (r : Region) (plane : BitVec 2) (e : Nat) : List Nat :=
  let edges := r.edges.filter fun g => g.plane == plane && elemKind g.src != .seq && elemKind g.dst != .seq
  growGo edges (edges.length + 1) [e]

/-- The elements of a region. -/
def Region.elements (r : Region) : List Nat := r.districts.flatMap fun d => (List.range 520).map (elemAt d)

/-! ### What leaves a husk (step 2) -/

/-- The links and channels on which an edge leaves its source, in the plane of the edge (14 R269). -/
def State.edgeLegs (s : State) (g : Edge) : List (Nat × Nat) :=
  let x := s.dist (elemDist g.src)
  let i := elemIdx g.src
  let ch := g.ch.toNat
  if elemKind g.src = .pe then
    ((List.range 32).filterMap fun k =>
      let o := (x.image i g.plane.toNat).field 4 k 0
      if (if 4 ≤ g.sout.toNat then k == g.sout.toNat else k % 4 == g.sout.toNat) && o.testBit 15 && nbits o 11 7 == ch then
        some (nbits o 14 12, ch) else none).eraseDups
  else (x.outputs i g.plane.toNat).filter fun p => p.2 == ch

/-- The edges that lead out of a husk, on the planes that their destinations' channels have active. -/
def State.edgesFrom (s : State) (r : Region) (husk : List Nat) : List Edge :=
  r.edges.filter fun g => husk.contains g.src && !husk.contains g.dst && elemKind g.dst != .seq &&
    (s.dist (elemDist g.dst)).slotOf (elemIdx g.dst) g.ch.toNat == g.plane

/-- Each edge out of a husk carries one error token with the code, or SEAL where it crosses dies. -/
def State.sealEdges (s : State) (r : Region) (husk : List Nat) (code : BitVec 8) : State :=
  let toks := ((s.edgesFrom r husk).flatMap fun g => (s.edgeLegs g).map fun (l, c) => (g.src, l, c, g.lvc.isSome)).eraseDups
  toks.foldl (fun s (e, l, c, across) =>
    let t := if across then ctlTok (BitVec.ofNat 5 c) ctlSeal (code ++ r.inc) else errTok (BitVec.ofNat 5 c) code.toNat
    s.emit e [(l, t)]) s

/-! ### What ends and is withdrawn (steps 1 and 4) -/

/-- Counters fall for commands that end. -/
def endCmds (s : State) (l : List EngCmd) (cls : OpClass) (unit : Nat) : State := l.foldl (fun s k => s.endCmd k cls unit) s

/-- Stream commands that end; a barrier counts nowhere. -/
def endStreams (s : State) (l : List StreamCmd) : State :=
  (l.filter fun c => !c.bar).foldl (fun s c => s.reply c.core { counter := .cpc }) s

/-- The tokens that an element has not yet sent and that it only carries: those of cut edges that a PORT brings from another
die, on the channels of its CUTIN entries (10 R234). -/
def State.carriedOut (s : State) (e : Nat) : List (Nat × Token) :=
  (s.outOf e).filter fun q => elemKind e == .port && (s.chanField e q.2.channel.toNat 2 q.2.channel.toNat 0).testBit 15

/-- The commands of an element end, and it forgets what it had begun; its firings and the tokens that it has formed and not
sent are dropped. -/
def State.stopElement (s : State) (e : Nat) : State :=
  let d := elemDist e
  let i := elemIdx e
  let u := elemUnit e
  let x := s.dist d
  let s1 := s.setOut e (s.carriedOut e)
  match elemKind e with
  | .pe =>
    let p := tgetD i x.pes
    let jobs := p.head.job.toList ++ p.head.queue
    let s2 := jobs.foldl (fun s j => s.reply j.core { counter := .toc }) s1
    s2.modPe e fun p => { p with
      unanswered := 0, sent := [], reserved := [], donePend := none, head := { p.head with job := none, queue := [] } }
  | .mt =>
    let t := tgetD i x.tiles
    let s2 := t.ports.toList.foldl (fun s p => endStreams s p.score) s1
    s2.modDist d fun x => { x with tiles := tmod i (fun t =>
      { t with ports := t.ports.map fun p => { p with score := [], stream := {} } }) x.tiles }
  | .mn =>
    let m := tgetD u x.mns
    (endCmds (endCmds s1 m.steepQ .cpc u) m.mtokQ .toc u).modDist d fun x =>
      x.modMn u fun m => { m with steepQ := [], mtokQ := [], cur := none, rowbuf := [] }
  | .ro => (endCmds s1 (tgetD u x.ros).queue .toc u).modDist d fun x => x.modRo u fun q => { q with queue := [] }
  | .sel => (endCmds s1 (tgetD u x.sels).queue .toc u).modDist d fun x => x.modSel u fun q => { q with queue := [] }
  | .mon => (endCmds s1 (tgetD u x.mons).queue .toc u).modDist d fun x => x.modMon u fun q => { q with queue := [] }
  | .dec => (endCmds s1 (tgetD u x.decs).queue .cpc u).modDist d fun x => x.modDec u fun _ => {}
  | .port => (endStreams s1 x.port.score).modDist d fun x => { x with port := { x.port with score := [], stream := {}, closing := [] } }
  | .seq => s1

/-- The copy engine's commands end. -/
def State.stopCopier (s : State) (d : Nat) : State :=
  (endCmds s (s.dist d).copier.queue .cpc 18).modDist d fun x => { x with copier := {} }

/-- Accesses that belong to some husk elements, or, of a district in `copiers`, to its copy engine; of one in `seqs`, to
its SEQ. -/
def Access.isOf (a : Access) (husk copiers seqs : List Nat) : Bool :=
  match a.issuer with
  | .pe e => husk.contains e
  | .dec e => husk.contains e
  | .stream d => husk.contains (elemAt d portIdx)
  | .copier d => copiers.contains d
  | .seq d => seqs.contains d

/-- Side-log entries, held reads and unanswered accesses of a husk are withdrawn at every PORT of the region. -/
def State.withdrawAll (s : State) (r : Region) (husk copiers seqs : List Nat) : State :=
  r.districts.foldl (fun s d => s.modDist d fun x =>
    let keep (a : Access) : Bool := !a.isOf husk copiers seqs
    { x with port := { x.port with
        sideLog := x.port.sideLog.filter fun w => keep w.acc
        heldReads := x.port.heldReads.filter fun h => keep h.acc
        accessQ := x.port.accessQ.filter keep
        replyQ := x.port.replyQ.filter fun q => keep q.2.1 } }) s

/-! ### Who is told (steps 5 to 7) -/

/-- One DONE goes to the SEQ of each leaf that lies wholly in the husk; it waits while that SEQ's queue is full, and behind
the DONE tokens that have arrived before it (07 R166; DEDUCED, log 82). -/
def State.doneLeaves (s : State) (r : Region) (husk : List Nat) : State :=
  (r.leaves.filter fun l => !l.elems.isEmpty && l.elems.all husk.contains).foldl (fun s l =>
    let d := (nth l.node r.nodes).dist
    (s.modCore d fun c => { c with doneWait := c.doneWait ++ [(s.tick, BitVec.ofNat 24 l.id)] }).settleDone d) s

/-- The name of a containment: of the command or instruction at fault, else of the event on its plane (01 R39). -/
def Husk.event (h : Husk) (r : Region) : Nat × BitVec 32 × BitVec 32 := h.name.getD (r.eventName h.plane)

/-- The CONTAIN notification and the trace record of a containment. -/
def State.tellHost (s : State) (r : Region) (h : Husk) : State :=
  let (seq, pc, n) := h.event r
  (s.notify 5 r.part.toNat h.code.toNat 0 0 0 0 (elemDist h.elem)).trace 2 seq pc n (h.code.setWidth 32)

/-- The husk of an element: the connected elements, or the copy engine alone where it is the fault's (17 Table D-21). -/
def sealElement (s : State) (r : Region) (h : Husk) : State :=
  let d := elemDist h.elem
  let copier := elemKind h.elem == .seq
  let husk := if copier then [] else r.component h.plane h.elem
  let s1 := husk.foldl (fun s e => (s.stopElement e).modDist (elemDist e) fun x => { x with sealed := nadd (elemIdx e) x.sealed }) s
  let s2 := if copier then (s1.stopCopier d).modDist d fun x => { x with sealed := nadd copierIdx x.sealed } else s1
  let s3 := (s2.withdrawAll r husk (if copier then [d] else []) []).sealEdges r husk h.code
  let (_, pc, n) := h.event r
  let s4 := ((s3.doneLeaves r husk).endCapture r.districts).post r.root
    { cause := causeEngineFault, sub := 0x80 + h.code, unit := 0xFF, epc := pc, eecsn := n }
  (s4.modRegion r.loadId fun r => { r with failed := true }).tellHost r h

/-- A region-scope husk: every element sealed, every SEQ halted, the launch ended as failed. -/
def sealRegion (s : State) (r : Region) (h : Husk) : State :=
  let husk := r.elements
  let s1 := husk.foldl State.stopElement s
  let s2 := r.districts.foldl (fun s d => ((s.stopCopier d).modDist d fun x =>
    { x with sealed := List.range 521, core := { x.core with halted := true, running := false, trapping := none, held := false } })) s1
  let s3 := (s2.withdrawAll r husk r.districts r.districts).tellHost r h
  match s3.regionOf r.loadId with
  | none => s3
  | some q => endInstance (s3.modRegion r.loadId fun r => { r with failed := true }) q true

/-- A husk seals. A fault of an element that is sealed already, or of a region with no instance, seals nothing. -/
def sealHusk (s : State) (h : Husk) : State :=
  match s.regionAt (elemDist h.elem) with
  | none => s
  | some r =>
    let already := (s.dist (elemDist h.elem)).sealed.contains (if elemKind h.elem = .seq then copierIdx else elemIdx h.elem)
    if !r.active || (already && !h.region) then s
    else if h.region then sealRegion s r h
    else sealElement s r h

/-- HUSK_SEAL: the oldest unrecoverable fault seals, or an uncorrectable soft error in an element, or in a SEQ's state,
which bears on its region (R341). -/
def execHuskSeal (soft : Option Nat) (s : State) : Out :=
  .next (match soft with
    | some e =>
      sealHusk s { code := codeSoftError, region := elemKind e == .seq, elem := e
                   plane := (s.planeAt (elemDist e)) }
    | none => match s.husks with
      | [] => s
      | h :: rest => sealHusk { s with husks := rest } h)

end Sys2Proof.Machine
end

