-- ==== Sys2Proof/Machine/Imm.lean ====
section
/-! DEFINITION. Immediate forms and long immediates (07 R151, R152). -/

namespace Sys2Proof.Machine

/-- addi (07 R151). -/
def execAddi (d a : BitVec 5) (i : BitVec 15) (s : State) : Out :=
  .next (finishG s d (s.cr.rdG a + immSx i))

/-- andi (07 R151). -/
def execAndi (d a : BitVec 5) (i : BitVec 15) (s : State) : Out :=
  .next (finishG s d (s.cr.rdG a &&& immZx i))

/-- ori (07 R151). -/
def execOri (d a : BitVec 5) (i : BitVec 15) (s : State) : Out :=
  .next (finishG s d (s.cr.rdG a ||| immZx i))

/-- xori (07 R151). -/
def execXori (d a : BitVec 5) (i : BitVec 15) (s : State) : Out :=
  .next (finishG s d (s.cr.rdG a ^^^ immZx i))

/-- shli (07 R151). -/
def execShli (d a : BitVec 5) (n : BitVec 6) (s : State) : Out :=
  .next (finishG s d (s.cr.rdG a <<< n.toNat))

/-- shri (07 R151). -/
def execShri (d a : BitVec 5) (n : BitVec 6) (s : State) : Out :=
  .next (finishG s d (s.cr.rdG a >>> n.toNat))

/-- sari (07 R151). -/
def execSari (d a : BitVec 5) (n : BitVec 6) (s : State) : Out :=
  .next (finishG s d ((s.cr.rdG a).sshiftRight n.toNat))

/-- li.sx (07 R152): two words, one instruction (06 R120). -/
def execLiSx (d : BitVec 5) (imm : BitVec 32) (s : State) : Out :=
  .next (s.setCr ((s.cr.wrG d (imm.signExtend 64)).advance 2))

/-- li.zx (07 R152): two words, one instruction (06 R120). -/
def execLiZx (d : BitVec 5) (imm : BitVec 32) (s : State) : Out :=
  .next (s.setCr ((s.cr.wrG d (imm.setWidth 64)).advance 2))

/-- li.hi: bits [31:0] of g[gd] stay (07 R152): two words, one instruction (06 R120). -/
def execLiHi (d : BitVec 5) (imm : BitVec 32) (s : State) : Out :=
  .next (s.setCr ((s.cr.wrG d (imm ++ (s.cr.rdG d).setWidth 32)).advance 2))

end Sys2Proof.Machine
end

