-- ==== Sys2Proof/Machine/Mon.lean ====
section
/-! DEFINITION. Store-stream monitors: their commands and the drift check (10 R249, R253, R254). -/

namespace Sys2Proof.Machine

/-- The monitor of an element number. -/
def State.mon (s : State) (e : Nat) : Mon := tgetD (elemUnit e) (s.dist (elemDist e)).mons

/-- Changes a monitor. -/
def State.modMon (s : State) (e : Nat) (f : Mon → Mon) : State := s.modDist (elemDist e) fun x => x.modMon (elemUnit e) f

abbrev codeMonResult : BitVec 8 := 0x38

/-- A field of a monitor in the region plane. -/
def State.monField (s : State) (e f : Nat) : Nat := s.planeField (elemDist e) (elemIdx e) 0 f 0

/-- A field of a monitor with its total and bits at 0. -/
def MonField.clear (f : MonField) : MonField := { f with total := 0, invalid := false, overflow := false }

/-- Changes field f of a monitor. -/
def Mon.modField (m : Mon) (f : Nat) (g : MonField → MonField) : Mon := { m with fields := vset m.fields f (g (vget m.fields f)) }

/-- Executes the command at the head of a monitor's queue if it is of a code: it takes effect and completes. -/
def State.monCmd (s : State) (e op : Nat) (act : EngCmd → Mon → Mon) : State :=
  if elemKind e ≠ .mon ∨ s.acts e = false then s
  else match (s.mon e).queue with
    | [] => s
    | k :: rest =>
      if nbits k.cmd.toNat 3 0 ≠ op then s
      else (s.modMon e fun m => { act k m with queue := rest }).endCmd k .toc (elemUnit e)

/-- The field that a command word names. -/
def monF (k : EngCmd) : Nat := nbits k.cmd.toNat 6 4

/-- MON_ARM: adds the mask to the armed set; the issuing SEQ is the trap target (R253). -/
def execMonArm (e : Nat) (s : State) : Out :=
  .next (s.monCmd e 1 fun k m => { m with armed := m.armed ||| k.arg.setWidth 8, armer := some k })

/-- MON_DISARM: no check runs (R253). -/
def execMonDisarm (e : Nat) (s : State) : Out := .next (s.monCmd e 2 fun _ m => { m with armed := 0, armer := none })

/-- MON_SETREF (R249, R253). -/
def execMonSetref (e : Nat) (s : State) : Out :=
  .next (s.monCmd e 3 fun k m => m.modField (monF k) fun f => { f with ref := k.arg.setWidth 32 })

/-- MON_SETABS (R249, R253). -/
def execMonSetabs (e : Nat) (s : State) : Out :=
  .next (s.monCmd e 4 fun k m => m.modField (monF k) fun f => { f with abs := k.arg.setWidth 32 })

/-- MON_SETREL (R249, R253). -/
def execMonSetrel (e : Nat) (s : State) : Out :=
  .next (s.monCmd e 5 fun k m => m.modField (monF k) fun f => { f with rel := k.arg.setWidth 32 })

/-- MON_CLEAR: the total and bits of a field, or of all, are 0 (R253). -/
def execMonClear (e : Nat) (s : State) : Out :=
  .next (s.monCmd e 6 fun k m =>
    if k.cmd.getLsbD 7 then { m with fields := m.fields.map MonField.clear } else m.modField (monF k) MonField.clear)

/-- The 48 bytes of READ: the total as a 320-bit two's-complement number, then the invalid and overflow bits. -/
def MonField.bytes (f : MonField) : List Byte :=
  leBytes 40 (f.total % 2 ^ 320).toNat ++ leBytes 8 ((if f.invalid then 1 else 0) + (if f.overflow then 2 else 0))

/-- MON_READ: total f is written in three granules at RESGRAN, set full; MON_RESULT where they break 04 R88 (R253). -/
def execMonRead (e : Nat) (s : State) : Out :=
  let d := elemDist e
  .next (if elemKind e ≠ .mon ∨ s.acts e = false then s
    else match (s.mon e).queue with
      | [] => s
      | k :: rest =>
        if nbits k.cmd.toNat 3 0 ≠ 7 then s
        else
          let gran := s.monField e 4
          let s1 := s.modMon e fun m => { m with queue := rest }
          match s.resultArea d (s.monField e 3) gran 3 with
          | none => s1.endCmd k .toc (elemUnit e) (some codeMonResult)
          | some (dd, ord) =>
            if s.areaWaking dd ord gran 3 then s
            else
              ((s1.areaWrite dd ord gran (vget (s.mon e).fields (monF k)).bytes).markFired d).endCmd k .toc (elemUnit e))

/-! ### The drift check (R249) -/

/-- A finite FP32 value in units of 2^-160; none for a NaN or an infinity. -/
def finiteUnits (w : W32) : Option Int :=
  match val32 w with
  | .fin neg n d => some (unitsOf neg n d)
  | _ => none

/-- Whether a field has drifted. -/
def MonField.drifted (f : MonField) : Bool :=
  f.invalid || f.overflow ||
    match finiteUnits f.ref, finiteUnits f.abs, finiteUnits f.rel with
    | some r, some a, some l =>
      let dist := (f.total - r).natAbs
      decide (a.natAbs < dist) && decide (l.natAbs * r.natAbs < dist * 2 ^ 160)
    | _, _, _ => true

/-- The fields of a monitor that have drifted, among those armed and enabled. -/
def State.driftMask (s : State) (e : Nat) : List Nat :=
  let m := s.mon e
  (List.range 8).filter fun f =>
    m.armed.getLsbD f && (s.monField e (8 + f)).testBit 15 && (vget m.fields f).drifted

/-- An ENGINE_FAULT of a monitor, in the name of its ARM. -/
def State.monFault (s : State) (e : Nat) (k : EngCmd) (code : BitVec 8) : State :=
  s.post k.core
    { cause := causeEngineFault, sub := code, unit := BitVec.ofNat 8 (elemUnit e), epc := k.pc, eecsn := k.ecsn }

/-- The check that an armed monitor makes at the completion of a region barrier: a drift writes the status granule at
RESGRAN + 3 and traps the arming SEQ; with AUTOCLR every total clears after the check. -/
def State.driftCheck (s : State) (e : Nat) : State :=
  let d := elemDist e
  match (s.mon e).armer with
  | none => s
  | some k =>
    let l := s.driftMask e
    let s1 := match l with
      | [] => s
      | f :: _ =>
        let gran := s.monField e 4 + 3
        let s1 := match s.resultArea d (s.monField e 3) gran 1 with
          | none => s.monFault e k codeMonResult
          | some (dd, ord) =>
            (s.areaWrite dd ord gran (leBytes 16 (l.foldl (fun m i => m + 2 ^ i) 0))).markFired d
        s1.monFault e k (BitVec.ofNat 8 (0x30 + f))
    if s.monField e 2 = 1 then s1.modMon e fun m => { m with fields := m.fields.map MonField.clear } else s1

/-- A monitor whose check would write its status granule has to let waiters of that granule be served first (04 R93). -/
def State.driftWaits (s : State) (e : Nat) : Bool :=
  let gran := s.monField e 4 + 3
  (s.mon e).armer.isSome && !(s.driftMask e).isEmpty && match s.resultArea (elemDist e) (s.monField e 3) gran 1 with
    | none => false
    | some (dd, ord) => s.areaWaking dd ord gran 1

/-- No monitor of a region has to wait with its check. -/
def State.mayCheck (s : State) (r : Region) : Bool :=
  r.districts.all fun d => monUnits.all fun u => let e := elemAt d (spineIdx u); s.isSealed e || !s.driftWaits e

/-- Every monitor of a region checks. -/
def State.driftChecks (s : State) (r : Region) : State :=
  r.districts.foldl (fun s d => monUnits.foldl (fun s u =>
    let e := elemAt d (spineIdx u)
    if s.isSealed e then s else s.driftCheck e) s) s

end Sys2Proof.Machine
end

