-- ==== Sys2Proof/Machine/Hazard.lean ====
section
/-! DEFINITION. The wait of 07 R148 on registers that an outstanding load has still to write. -/

namespace Sys2Proof.Machine

/-- The general registers that a word names as source or destination, by its major opcode and func (06 Table K-43, with
the fields that its entry uses as something else left out). An unused field is 0, and g0 is never waited for. -/
def wordG (w : W32) : List (BitVec 5) :=
  let d := fld w 24 20
  let a := fld w 19 15
  let b := fld w 14 10
  let f10 := (fld w 9 0).toNat
  match (fld w 31 25).toNat with
  | 0x01 => [d, a, b]
  | 0x02 => [a, b]
  | 0x03 => if f10 % 128 = 0x20 ∨ f10 % 128 = 0x21 then [d, a] else [d, a, b]
  | 0x04 => [d, a, b]
  | 0x05 => if f10 = 8 then [d] else if f10 = 9 then [a] else if 16 ≤ f10 then [d, a, b] else []
  | 0x06 => [d]
  | 0x08 => [d, a]
  | 0x09 => [d, a]
  | 0x0A => [d, a]
  | 0x0B => [d, a]
  | 0x0C => [d, a]
  | 0x0D => [d, a]
  | 0x0E => [d, a]
  | 0x11 => [31]
  | 0x12 => if f10 = 3 then [31] else [d, a]
  | 0x18 => if f10 / 64 = 6 ∨ f10 / 64 = 12 then [d, d + 1, a] else [d, a]
  | 0x19 => if f10 / 64 = 6 ∨ f10 / 64 = 12 then [d, d + 1, a] else [d, a]
  | 0x1A => [d, a]
  | 0x20 => [fld w 16 12]
  | 0x28 => [fld w 15 11]
  | 0x29 => [a, b]
  | 0x2A => [d, a, b]
  | 0x2D => [a, b]
  | 0x2E => [d, a, b]
  | 0x30 => if f10 = 2 then [] else [d, a, b]
  | 0x3C => [d]
  | 0x3D => if f10 % 256 = 2 then [d, d + 1] else [d]
  | _ => []

/-- The capability registers that a word names as source or destination, without the fields that its entry leaves unused
(06 Table K-43, 07 Tables K-68, K-69). -/
def wordK (w : W32) : List (BitVec 4) :=
  match (fld w 31 25).toNat with
  | 0x18 => [fld w 14 11]
  | 0x19 => [fld w 14 11]
  | 0x1A => [fld w 14 11]
  | 0x20 => match (fld w 3 0).toNat with
    | 2 => [fld w 24 21]
    | 6 => [fld w 20 17]
    | 7 => [fld w 20 17]
    | 8 => [fld w 20 17]
    | 9 => [fld w 20 17]
    | _ => [fld w 24 21, fld w 20 17]
  | 0x28 => if fld w 10 6 = 1 then [0] else []
  | _ => []

/-- The stream descriptors that a word names. -/
def wordD (w : W32) : List (BitVec 4) := if fld w 31 25 = 0x28 then [fld w 24 21] else []

/-- The general registers that an unfinished load or returning update has still to write (an update counts as a load here:
DEDUCED, log 46). -/
def MemOp.targetsG (o : MemOp) : List (BitVec 5) :=
  if o.dld.isSome then []
  else match wordInstr o.word with
    | some m => if m.form.writes && !m.form.cap then (if m.form.n = 16 then [m.d, m.d + 1] else [m.d]) else []
    | none => []

/-- The capability registers that an unfinished cap.ld has still to write. -/
def MemOp.targetsK (o : MemOp) : List (BitVec 4) :=
  if o.dld.isSome then []
  else match wordInstr o.word with
    | some m => if m.form.writes && m.form.cap then [m.d.setWidth 4] else []
    | none => []

/-- An instruction that is re-issued waits for a load that has still to write its target (07 R148; its sources are captured,
08 R198). -/
def Core.targeted (c : Core) (o : MemOp) : Bool :=
  c.ops.any fun p =>
    p.status != .errored &&
      ((o.targetsG.any fun g => g != 0 && p.targetsG.contains g) || o.targetsK.any fun k => p.targetsK.contains k)

/-- A word waits for a load (07 R148). -/
def Core.waitsFor (c : Core) (w : W32) : Bool :=
  c.ops.any fun o =>
    o.status != .errored &&
      (((wordG w).any fun g => g != 0 && o.targetsG.contains g) || ((wordK w).any fun k => o.targetsK.contains k) ||
        (match o.dld with
         | some d => (wordD w).contains d
         | none => false))

end Sys2Proof.Machine
end

