-- ==== Sys2Proof/Machine/SyncIns.lean ====
section
/-! DEFINITION. Fences, barriers and sparge as a SEQ issues them (08 R178-R181, 05 R114, R117). -/

namespace Sys2Proof.Machine

/-- A fence goes on once the accesses before it are performed: every memory instruction of the SEQ is finished. No
interrupt is taken while it waits (05 R114, 08 R201). -/
def fence (s : State) : State :=
  let x := s.cr
  if x.performed then finish s x else s.setCr { x with noInt := true }

/-- fence.elem: the issuer's own later loads see its stores in any case (05 R108, R114), so it goes on at once. -/
def execSyncFenceElem (s : State) : Out := .next (finish s s.cr)

/-- fence.region (05 R114). -/
def execSyncFenceRegion (s : State) : Out := .next (fence s)

/-- fence.die (05 R114). -/
def execSyncFenceDie (s : State) : Out := .next (fence s)

/-- fence.module (05 R114). -/
def execSyncFenceModule (s : State) : Out := .next (fence s)

/-- fence.system (05 R114). -/
def execSyncFenceSystem (s : State) : Out := .next (fence s)

/-- rbar (08 R179): arrives once at the generation, and goes on when it has completed; re-executing it does not arrive a
second time. -/
def execSyncRbar (s : State) : Out :=
  let x := s.cr
  .next (onFabric s (
    if x.barDone then finish s { x with barDone := false }
    else s.setCr { x with barArrived := true }))

/-- phbar (08 R180): ILLEGAL for a count of 0; arrives once at the group's generation, and goes on when it has
completed. Arrivals are kept in order with the count that each names. -/
def execSyncPhbar (a b : BitVec 5) (s : State) : Out :=
  let x := s.cr
  let g : BitVec 4 := (x.rdG a).setWidth 4
  let n := (x.rdG b).toNat % 1024
  .next (onFabric s (
    if n = 0 then syncTrap s causeIllegal
    else if x.phDone.contains g then finish s { x with phDone := x.phDone.erase g }
    else if x.phArrived.contains g then s
    else
      let s1 := s.setCr { x with phArrived := x.phArrived ++ [g] }
      match s.regionAt s.core with
      | none => s1
      | some r => s1.modRegion r.loadId fun r =>
          { r with phase := tset g.toNat (tgetD g.toNat r.phase ++ [(s.core, n)]) r.phase }))

/-- sparge (08 R181): only at the root, with no step current; it starts the drain and goes on when RECONFIG has been
released. Nothing interrupts it. -/
def execSyncSparge (a : BitVec 5) (s : State) : Out :=
  let x := s.cr
  let root := match s.regionAt s.core with
    | some r => r.root == s.core
    | none => false
  .next (onFabric s (
    if !root then syncTrap s causeSpargeRoot
    else if x.spargeDone then finish s { x with spargeDone := false, spargeWait := none }
    else if x.step.isSome then syncTrap s causeStepOpen
    else s.setCr { x with spargeWait := some (x.spargeWait.getD ((x.rdG a).setWidth 2)) }))

end Sys2Proof.Machine
end

