-- ==== Sys2Proof/Machine/Rep.lean ====
section
/-! DEFINITION. The repeat prefix: rep (07 R160, R161; 06 R126). One repeat is one step of the machine; REMAIN counts the
repeats not yet complete while a rep is under way, and is 0 once it has ended. -/

namespace Sys2Proof.Machine

/-- The meaning of a repeated word: of format A, I or M (06 R126); none for any other. -/
def repeated (i : Instr) (s : State) : Option Out :=
  match i with
  | .aluAdd d a b => some (execAluAdd d a b s)
  | .aluSub d a b => some (execAluSub d a b s)
  | .aluMul d a b => some (execAluMul d a b s)
  | .aluMulhs d a b => some (execAluMulhs d a b s)
  | .aluMulhu d a b => some (execAluMulhu d a b s)
  | .aluDivs d a b => some (execAluDivs d a b s)
  | .aluDivu d a b => some (execAluDivu d a b s)
  | .aluRems d a b => some (execAluRems d a b s)
  | .aluRemu d a b => some (execAluRemu d a b s)
  | .aluAnd d a b => some (execAluAnd d a b s)
  | .aluOr d a b => some (execAluOr d a b s)
  | .aluXor d a b => some (execAluXor d a b s)
  | .aluAndn d a b => some (execAluAndn d a b s)
  | .aluMin d a b => some (execAluMin d a b s)
  | .aluMax d a b => some (execAluMax d a b s)
  | .aluMinu d a b => some (execAluMinu d a b s)
  | .aluMaxu d a b => some (execAluMaxu d a b s)
  | .addi d a i => some (execAddi d a i s)
  | .andi d a i => some (execAndi d a i s)
  | .ori d a i => some (execOri d a i s)
  | .xori d a i => some (execXori d a i s)
  | .shli d a n => some (execShli d a n s)
  | .shri d a n => some (execShri d a n s)
  | .sari d a n => some (execSari d a n s)
  | .cmpEq c a b => some (execCmpEq c a b s)
  | .cmpNe c a b => some (execCmpNe c a b s)
  | .cmpLt c a b => some (execCmpLt c a b s)
  | .cmpLtu c a b => some (execCmpLtu c a b s)
  | .cmpLe c a b => some (execCmpLe c a b s)
  | .cmpLeu c a b => some (execCmpLeu c a b s)
  | .cmpFeq c a b => some (execCmpFeq c a b s)
  | .cmpFlt c a b => some (execCmpFlt c a b s)
  | .cmpFle c a b => some (execCmpFle c a b s)
  | .cmpFun c a b => some (execCmpFun c a b s)
  | .cndAnd c a b => some (execCndAnd c a b s)
  | .cndOr c a b => some (execCndOr c a b s)
  | .cndXor c a b => some (execCndXor c a b s)
  | .cndAndn c a b => some (execCndAndn c a b s)
  | .cndSetg d a => some (execCndSetg d a s)
  | .cndFromg c a => some (execCndFromg c a s)
  | .cndSel d a b n => some (execCndSel d a b n s)
  | .fpuAdd d a b r => some (execFpuAdd d a b r s)
  | .fpuSub d a b r => some (execFpuSub d a b r s)
  | .fpuMul d a b r => some (execFpuMul d a b r s)
  | .fpuDiv d a b r => some (execFpuDiv d a b r s)
  | .fpuSqrt d a r => some (execFpuSqrt d a r s)
  | .fpuFma d a b r => some (execFpuFma d a b r s)
  | .fpuMin d a b => some (execFpuMin d a b s)
  | .fpuMax d a b => some (execFpuMax d a b s)
  | .fpuAbs d a => some (execFpuAbs d a s)
  | .fpuNeg d a => some (execFpuNeg d a s)
  | .fpuCvto d a f r x => some (execFpuCvto d a f r x s)
  | .fpuCvfrom d a f r => some (execFpuCvfrom d a f r s)
  | .fpuFlags d => some (execFpuFlags d s)
  | .bitShl d a b => some (execBitShl d a b s)
  | .bitShr d a b => some (execBitShr d a b s)
  | .bitSar d a b => some (execBitSar d a b s)
  | .bitRol d a b => some (execBitRol d a b s)
  | .bitRor d a b => some (execBitRor d a b s)
  | .bitClz d a => some (execBitClz d a s)
  | .bitCtz d a => some (execBitCtz d a s)
  | .bitPopc d a => some (execBitPopc d a s)
  | .bitBswap d a => some (execBitBswap d a s)
  | .bitExtu d a b => some (execBitExtu d a b s)
  | .bitExts d a b => some (execBitExts d a b s)
  | .bitIns d a b => some (execBitIns d a b s)
  | .stepBegin a => some (execStepBegin a s)
  | .stepNext c => some (execStepNext c s)
  | .stepEnd => some (execStepEnd s)
  | .stepDone a => some (execStepDone a s)
  | .stepSig a b => some (execStepSig a b s)
  | .stepRcv d => some (execStepRcv d s)
  | .memLdH d a k f o => some (execMemLdH d a k f o s)
  | .memLdHs d a k f o => some (execMemLdHs d a k f o s)
  | .memLdW d a k f o => some (execMemLdW d a k f o s)
  | .memLdWs d a k f o => some (execMemLdWs d a k f o s)
  | .memLdD d a k f o => some (execMemLdD d a k f o s)
  | .memLdQ d a k f o => some (execMemLdQ d a k f o s)
  | .memStH d a k f o => some (execMemStH d a k f o s)
  | .memStW d a k f o => some (execMemStW d a k f o s)
  | .memStD d a k f o => some (execMemStD d a k f o s)
  | .memStQ d a k f o => some (execMemStQ d a k f o s)
  | .rmemLdH d a k f o => some (execRmemLdH d a k f o s)
  | .rmemLdHs d a k f o => some (execRmemLdHs d a k f o s)
  | .rmemLdW d a k f o => some (execRmemLdW d a k f o s)
  | .rmemLdWs d a k f o => some (execRmemLdWs d a k f o s)
  | .rmemLdD d a k f o => some (execRmemLdD d a k f o s)
  | .rmemLdQ d a k f o => some (execRmemLdQ d a k f o s)
  | .rmemStH d a k f o => some (execRmemStH d a k f o s)
  | .rmemStW d a k f o => some (execRmemStW d a k f o s)
  | .rmemStD d a k f o => some (execRmemStD d a k f o s)
  | .rmemStQ d a k f o => some (execRmemStQ d a k f o s)
  | .amoAdd d a k f o => some (execAmoAdd d a k f o s)
  | .amoMin d a k f o => some (execAmoMin d a k f o s)
  | .amoMax d a k f o => some (execAmoMax d a k f o s)
  | .amoAmax d a k f o => some (execAmoAmax d a k f o s)
  | .amoAmaxr d a k f o => some (execAmoAmaxr d a k f o s)
  | .amoFaddW d a k f o => some (execAmoFaddW d a k f o s)
  | .amoFaddH d a k f o => some (execAmoFaddH d a k f o s)
  | .amoAnd d a k f o => some (execAmoAnd d a k f o s)
  | .amoOr d a k f o => some (execAmoOr d a k f o s)
  | .amoXchg d a k f o => some (execAmoXchg d a k f o s)
  | .amoCas d a k f o => some (execAmoCas d a k f o s)
  | .amoAddPosted d a k f o => some (execAmoAddPosted d a k f o s)
  | .amoMinPosted d a k f o => some (execAmoMinPosted d a k f o s)
  | .amoMaxPosted d a k f o => some (execAmoMaxPosted d a k f o s)
  | .amoAmaxPosted d a k f o => some (execAmoAmaxPosted d a k f o s)
  | .amoFaddWPosted d a k f o => some (execAmoFaddWPosted d a k f o s)
  | .amoFaddHPosted d a k f o => some (execAmoFaddHPosted d a k f o s)
  | .amoAndPosted d a k f o => some (execAmoAndPosted d a k f o s)
  | .amoOrPosted d a k f o => some (execAmoOrPosted d a k f o s)
  | .syncFenceElem => some (execSyncFenceElem s)
  | .syncFenceRegion => some (execSyncFenceRegion s)
  | .syncFenceDie => some (execSyncFenceDie s)
  | .syncFenceModule => some (execSyncFenceModule s)
  | .syncFenceSystem => some (execSyncFenceSystem s)
  | .syncRbar => some (execSyncRbar s)
  | .syncPhbar a b => some (execSyncPhbar a b s)
  | .syncSparge a => some (execSyncSparge a s)
  | .rackSave a b => some (execRackSave a b s)
  | .rackLoad d a b => some (execRackLoad d a b s)
  | .schedPitch a => some (execSchedPitch a s)
  | .schedClaim a => some (execSchedClaim a s)
  | .schedLevel d => some (execSchedLevel d s)
  | .schedPerfsel a b => some (execSchedPerfsel a b s)
  | _ => none

/-- Whether a major opcode is of format A, jmp apart, of format I or of format M: `some true` where gb is a field of it
(06 R126, Table K-44). -/
def repFormat (op : Nat) : Option Bool :=
  if op = 1 ∨ op = 2 ∨ op = 3 ∨ op = 4 ∨ op = 5 ∨ op = 0x2A ∨ op = 0x2D ∨ op = 0x2E ∨ op = 0x30 then some true
  else if (8 ≤ op ∧ op ≤ 0xE) ∨ op = 0x18 ∨ op = 0x19 ∨ op = 0x1A then some false
  else none

/-- W' of repeat i: the register fields of a word moved by i steps; none where one leaves 0-31 (07 R160). -/
def steppedWord (w : W32) (gb : Bool) (i : Int) (sd sa sb : BitVec 6) : Option W32 :=
  match steppedReg (fld w 24 20) i sd, steppedReg (fld w 19 15) i sa, steppedReg (fld w 14 10) i sb with
  | some d, some a, some b =>
    some (fld w 31 25 ++ d ++ a ++ (if gb then b else fld w 14 10) ++ fld w 9 0)
  | _, _, _ => none

/-- The word at an address of a core's instruction store (06 R120). -/
def State.storeWord (s : State) (c : Nat) (a : Nat) : W32 := BitVec.ofNat 32 (mgetN a 4 (s.dist c).istore)

/-- The instruction that a stepped word holds, if it passes 06 R124. -/
def repInstr (w : Option W32) : Option Instr :=
  match w with
  | none => none
  | some w => match decodeOne w with
    | some i => if i.wf then some i else none
    | none => none

/-- After a repeat ran: complete where PC has moved to P + 4. -/
def repAfter (c : Nat) (p : Word) (left : Nat) (s : State) : State :=
  s.modCore c fun x =>
    if x.pc = p + 4 then
      let y := { x with inRep := false, pc := p, remain := BitVec.ofNat 64 left }
      if left = 0 then y.advance 2 else y
    else { x with inRep := false }

/-- rep (07 R160, R161): one repeat, or the trap ILLEGAL at P; with P + 4 beyond the store the fetch of the next word
traps FETCH_RANGE at the rep (06 R120; DEDUCED, log 47). -/
def execRep (n : BitVec 6) (d a b : BitVec 6) (s : State) : Out :=
  let x := s.cr
  let p := x.pc
  let w := s.storeWord s.core (p.toNat + 4)
  let total := n.toNat + 1
  let i : Int := if x.remain = 0 then 0 else (total : Int) - x.remain.toNat
  let left := ((total : Int) - i).toNat
  if storeTop ≤ p.toNat + 4 then .next (syncTrap s causeFetchRange)
  else match repFormat (fld w 31 25).toNat with
  | none => .next (syncTrap s causeIllegal)
  | some gb =>
    if gb = false ∧ b ≠ 0 then .next (syncTrap s causeIllegal)
    else
      let s1 := s.setCr { x with remain := BitVec.ofNat 64 left }
      match repInstr (steppedWord w gb i d a b) with
      | none => .next (syncTrap s1 causeIllegal)
      | some j =>
        if x.waitsFor (nth 0 (encode j)) then .next s1
        else match repeated j (s1.setCr { s1.cr with inRep := true }) with
          | none => .next (syncTrap s1 causeIllegal)
          | some o => match o with
            | .next t => .next (repAfter s.core p (left - 1) t)
            | .fault f => .fault f
            | .refused r => .refused r

end Sys2Proof.Machine
end

