-- ==== Sys2Proof/Machine/Rotation.lean ====
section
/-! DEFINITION. Rotation heads: staging, visits, saving and loading (02 R40-R57; 08 R192, R385; 09 R232). -/

namespace Sys2Proof.Machine

/-- Replaces the slot of a phase; an EMPTY slot holds nothing. -/
def Head.setSlot (h : Head) (p : Nat) (t : Slot) : Head :=
  { h with slots := if t.state = .empty then terase p h.slots else tset p t h.slots }

/-- One more stray; STRAY saturates (R45). -/
def Head.strayed (h : Head) : Head := { h with stray := if h.stray = 0xFFFF then h.stray else h.stray + 1 }

/-- OPERAND_STAGE: the token at the head of OPNDCH is staged under its PHASE, waits, or is a stray (R45). -/
def execOperandStage (e : Nat) (s : State) : Out :=
  .next (match s.headCfg e with
    | none => s
    | some c =>
      let h := s.hd e
      match h.mode, s.headInput e c c.opnd with
      | .running, some (l, k) =>
        let q := k.tok.phase.toNat
        let t := h.slot q
        if q < h.curs ∧ (t.state = .live ∨ t.state = .parked) then
          (if t.opv then s
           else (s.popAt e l c.opnd).modHd e fun h =>
             h.setSlot q { t with opnd := k.tok.data, opmk := k.tok.marker, opv := true, src := k })
        else (s.popAt e l c.opnd).modHd e Head.strayed
      | _, _ => s)

/-- ADMIT_STRAY: an admission token whose MARKER is not none is taken, discarded and counted (R46). -/
def execAdmitStray (e : Nat) (s : State) : Out :=
  .next (match s.headCfg e with
    | none => s
    | some c =>
      match (s.hd e).mode, s.headInput e c c.admitCh with
      | .running, some (l, k) =>
        if k.tok.marker ≠ 0 then (s.popAt e l c.admitCh).modHd e Head.strayed else s
      | _, _ => s)

/-! ### Announcements and the loop edge -/

/-- Announcement events (R48). -/
abbrev annJoin : BitVec 2 := 0
abbrev annLeave : BitVec 2 := 1
abbrev annFault : BitVec 2 := 2
abbrev annLoaded : BitVec 2 := 3

/-- An announcement of a phase enters the buffer (R48). -/
def Head.announce (h : Head) (ev : BitVec 2) (p : Nat) (tag : BitVec 24) : Head :=
  let data : W32 := ev ++ (BitVec.ofNat 6 p ++ tag)
  { h with ann := h.ann ++ [{ phase := BitVec.ofNat 6 p, data := data }] }

/-- Announcements leave by the announce edge as far as there is room (R48). -/
def drainAnn (e : Nat) (c : HeadCfg) : Nat → State → State
  | 0, s => s
  | n + 1, s =>
    let (l, ch) := c.edge 2
    match (s.hd e).ann with
    | [] => s
    | t :: rest =>
      if s.clear e (l, ch) then
        drainAnn e c n ((s.modHd e fun h => { h with ann := rest }).emit e [(l, { t with channel := ch })])
      else s

/-- A visit ends: what goes onto the loop edge (none: a bubble) enters the delay line of CURD registers, what falls out
of it leaves; PHC and REV move on, and the visits of a save or a load are counted (R41, R44, R46). -/
def endVisit (s : State) (e : Nat) (c : HeadCfg) (tok : Option Token) : State :=
  let h := s.hd e
  let line := h.delay ++ [tok]
  let (out, rest) := if h.curd < line.length then (line.head?.join, line.drop 1) else (none, line)
  let last := h.phc + 1 ≥ h.curs
  let s1 := s.modHd e fun h =>
    { h with delay := rest, phc := if last then 0 else h.phc + 1, rev := if last then h.rev + 1 else h.rev
             job := if h.mode = .running then h.job else h.job.map fun j => { j with count := j.count + 1 } }
  match out with
  | none => s1
  | some t => let (l, ch) := c.edge 3; s1.emit e [(l, { t with channel := ch })]

/-- A loop token of a phase, with the number of its firing while a capture is armed (22 R381). -/
def loopTok (p : Nat) (v : W32) (mk : BitVec 2) (fire : Nat := 0) : Token :=
  { phase := BitVec.ofNat 6 p, marker := mk, data := v, fire := fire }

/-! ### Visits -/

/-- A mask with bit p set. -/
def setBit64 (m : BitVec 64) (p : Nat) : BitVec 64 := m ||| 1#64 <<< p

/-- A phase's next state as a visit leaves it. While a capture runs, LIVE and PARKED slots go to the record and become
EMPTY; a slot that turns FAULTED in a save is kept in the record's FAULTED mask with its TAG (R50). -/
def Head.settle (h : Head) (p : Nat) (t : Slot) (value : W32) : Head :=
  match h.job with
  | none => h.setSlot p t
  | some j =>
    if h.mode ≠ .saving then h.setSlot p t
    else if t.state = .faulted then
      { h.setSlot p t with job := some { j with faulted := setBit64 j.faulted p, tags := tset p t.tag j.tags } }
    else if h.capturing then
      match t.state with
      | .live => { h.setSlot p {} with job := some { j with
          live := setBit64 j.live p, vals := tset p value j.vals, tags := tset p t.tag j.tags } }
      | .parked => { h.setSlot p {} with job := some { j with
          parked := setBit64 j.parked p, vals := tset p t.park j.vals, tags := tset p t.tag j.tags } }
      | _ => h.setSlot p t
    else h.setSlot p t

/-- A visit to an EMPTY slot: an admission token with MARKER none joins, in mode RUNNING (R46). -/
def visitEmpty (s : State) (e : Nat) (c : HeadCfg) (p : Nat) : State :=
  let h := s.hd e
  match h.mode, s.headInput e c c.admitCh with
  | .running, some (l, k) =>
    if k.tok.marker ≠ 0 then endVisit s e c none
    else if 64 ≤ h.ann.length then s
    else
      let tag : BitVec 24 := k.tok.data.setWidth 24
      let park := vget (s.peIn e c.plane.toNat).h c.initReg
      endVisit (((s.usePlane e c.plane.toNat).popAt e l c.admitCh).modHd e fun h =>
        (h.setSlot p { state := .parked, tag := tag, park := park }).announce annJoin p tag) e c none
  | _, _ => endVisit s e c none

/-- A visit to a DRAINING or FAULTED slot absorbs the loop-return (R46, R47). -/
def visitEnding (s : State) (e : Nat) (c : HeadCfg) (p : Nat) (t : Slot) : State :=
  match s.loopReturn e c p with
  | none => s
  | some (l, k) =>
    let h := s.hd e
    if t.state = .draining ∧ 64 ≤ h.ann.length then s
    else
      let err := k.tok.marker = 3
      endVisit ((s.popAt e l c.loopCh).modHd e fun h =>
        if t.state = .faulted then h.setSlot p {}
        else
          let h1 := if err ∧ h.mode = .saving then
              { h with job := h.job.map fun j => { j with faulted := setBit64 j.faulted p, tags := tset p t.tag j.tags } }
            else h
          (h1.setSlot p {}).announce (if err then annFault else annLeave) p t.tag) e c none

/-- A visit that fires, where the element selects the head's handler (R26) and the interval has a power token left: the
result goes round the loop with OPMK, or to the record of a save; a fatal condition, or texp's own error, sends one error
end-of-stream token instead (R46, R50, R210, R211). -/
def visitFire (s : State) (e : Nat) (c : HeadCfg) (p : Nat) (t : Slot) : State :=
  match s.regionAt (elemDist e), s.chosen e with
  | some r, some (_, f, ops) =>
    if f.rot = false ∨ r.pool = 0 then s
    else
      let capturing := (s.hd e).capturing
      let w := f.word 5
      let a := f.sel w (swSa w)
      let n := s.firingNumber e
      let s1 := (s.fire e f ops [(c.opnd, t.src)]).settlePass e
      let t0 := { t with opv := false }
      if f.broken then
        endVisit (s1.modHd e fun h => (h.settle p { t0 with state := .faulted } 0).announce annFault p t.tag) e c
          (some (loopTok p f.errorData 3 n))
      else if t.opmk = 2 then
        endVisit (s1.modHd e fun h => h.settle p { t0 with state := .draining } 0) e c (some (loopTok p a 2 n))
      else
        endVisit (s1.modHd e fun h => h.settle p { t0 with state := .live } a) e c
          (if capturing then none else some (loopTok p a t.opmk n))
  | _, _ => s

/-- The head's own act on an error-marked loop-return or operand, no firing and for no power token (R46, R232): one error
end-of-stream token on the loop edge and on each other edge that the handler emits to (R17, R210), the row state
cleared. Where both are marked the loop-return's DATA goes on (DESIGN CHOICE, log 132). -/
def visitError (s : State) (e : Nat) (c : HeadCfg) (p : Nat) (t : Slot) (ret : Option (Nat × Held)) (data : W32) : State :=
  let pe := s.peIn e c.plane.toNat
  let f0 := c.firing pe p t data
  let f := { f0 with pe := pe.clearRow c.h (f0.word 3), conds := 0, state := .error data }
  if 64 ≤ (s.hd e).ann.length ∨ s.edgeRoom e f = false ∨ s.clear e (c.edge 3) = false ∨ (s.pe e).donePend.isSome = true then s
  else
    let s1 := match ret with
      | some (l, _) => s.popAt e l c.loopCh
      | none => s
    let s2 := ((s1.usePlane e c.plane.toNat).modPe e fun _ => f.pe).emit e f.leaves.toks
    endVisit (s2.modHd e fun h => (h.settle p { t with state := .faulted, opv := false } 0).announce annFault p t.tag) e c
      (some (loopTok p data 3))

/-- A visit to a LIVE or PARKED slot (R46, R49). -/
def visitStream (s : State) (e : Nat) (c : HeadCfg) (p : Nat) (t : Slot) : State :=
  let h := s.hd e
  let ret := if t.state = .live then s.loopReturn e c p else none
  if t.state = .live ∧ ret.isNone = true then s
  else
    let retErr := match ret with
      | some (_, k) => k.tok.marker == 3
      | none => false
    let value := match ret with
      | some (_, k) => k.tok.data
      | none => t.park
    if retErr || (t.opv && t.opmk == 3) then visitError s e c p t ret (if retErr then value else t.opnd)
    else if t.opv then visitFire s e c p t
    else if c.lockstep ∧ h.mode = .running then s
    else
      let taken := match ret with
        | some (l, _) => s.popAt e l c.loopCh
        | none => s
      endVisit (taken.modHd e fun h => h.settle p { t with state := .parked, park := value } 0) e c none

/-- A visit of the loading revolution: a LIVE stream's value goes onto the loop for a power token, a PARKED one is put
back; both are announced (R54). The loop token has marker none: no trigger gives it another (DESIGN CHOICE, log 145). It
is no firing (20 R367). After the last phase the head runs, and the command ends. -/
def visitLoad (s : State) (e : Nat) (c : HeadCfg) (p : Nat) (j : RackJob) : State :=
  match s.regionAt (elemDist e) with
  | none => s
  | some r =>
    let tag := (tget p j.tags).getD 0
    let v := (tget p j.vals).getD 0
    let finishLoad (t : State) : State :=
      let h := t.hd e
      if h.curs ≤ j.count + 1 then
        (t.modHd e fun h => { h with mode := .running, job := none }).reply j.core { counter := .toc }
      else t
    if j.live.getLsbD p ∨ j.parked.getLsbD p then
      (if 64 ≤ (s.hd e).ann.length then s
       else if j.live.getLsbD p then
         (if r.pool = 0 ∨ s.clear e (c.edge 3) = false then s
          else finishLoad (endVisit ((s.spend (elemDist e)).modHd e fun h =>
            (h.setSlot p { state := .live, tag := tag }).announce annLoaded p tag) e c (some (loopTok p v 0))))
       else finishLoad (endVisit (s.modHd e fun h =>
         (h.setSlot p { state := .parked, tag := tag, park := v }).announce annLoaded p tag) e c none))
    else finishLoad (endVisit s e c none)

/-- The token that the next visit makes fall out of the delay line, if any, has room on the loop edge (R24, R41). -/
def State.lineFree (s : State) (e : Nat) (c : HeadCfg) : Bool :=
  let h := s.hd e
  h.delay.length < h.curd || h.delay.head?.join.isNone || s.clear e (c.edge 3)

/-- HEAD_VISIT: the head visits phase PHC (R44, R46, R50, R54). It visits nothing before the start token, while SAVED, and
once a save has nothing more to absorb; a visit waits while the loop edge has no room for what the delay line lets go.
Announcements that have room leave first and last. -/
def execHeadVisit (e : Nat) (s : State) : Out :=
  .next (match s.headCfg e, s.regionAt (elemDist e) with
    | some c, some r =>
      let s0 := drainAnn e c 64 (s.sendDone e)
      let h := s0.hd e
      let p := h.phc
      let t := h.slot p
      if r.fires = false ∨ s0.lineFree e c = false then s0
      else
        let s1 := match h.mode, h.job with
          | .saved, _ => s0
          | .loading, some j => visitLoad s0 e c p j
          | .loading, none => s0
          | .saving, _ =>
            if !h.capturing && !(h.slots.any fun (_, t) => t.state == .draining || t.state == .faulted) then s0
            else match t.state with
              | .empty => endVisit s0 e c none
              | .draining => visitEnding s0 e c p t
              | .faulted => visitEnding s0 e c p t
              | _ => visitStream s0 e c p t
          | .running, _ =>
            match t.state with
            | .empty => visitEmpty s0 e c p
            | .draining => visitEnding s0 e c p t
            | .faulted => visitEnding s0 e c p t
            | _ => visitStream s0 e c p t
        drainAnn e c 64 s1
    | _, _ => s)

/-! ### Saving and loading -/

/-- RACK sub-codes (08 Table K-89). -/
abbrev rackBusy : BitVec 8 := 1
abbrev rackBadRecord : BitVec 8 := 2
abbrev rackBadSize : BitVec 8 := 3
abbrev rackBadRemap : BitVec 8 := 4
abbrev rackBadHead : BitVec 8 := 5
abbrev rackRange : BitVec 8 := 6

/-- The head refuses its next rack command and changes nothing else (08 R192). -/
def rackRefuse (s : State) (e : Nat) (j : RackJob) (sub : BitVec 8) : State :=
  (s.modHd e fun h => { h with queue := h.queue.drop 1 }).reply j.core
    { counter := .toc, cause := some { cause := causeRack, sub := sub, epc := j.pc, eecsn := j.ecsn } }

/-- The place of n bytes at a region tile address: within one tile below its CFGBASE, else none (08 R385). -/
def State.recordLoc (s : State) (core addr n : Nat) : Option (Nat × Nat × Nat) :=
  match s.tileAddr core addr with
  | none => none
  | some (d, ord, off) => if s.tileFits d ord off n then some (d, ord, off) else none

/-- The head's first two checks (08 R385): HEAD = 1 in the region plane and no stray bits; the mode that the command
needs. -/
def State.rackCheck (s : State) (e : Nat) (j : RackJob) : Option (BitVec 8) :=
  let h := s.hd e
  if s.planeField (elemDist e) (elemIdx e) 6 0 0 ≠ 1 ∨ j.badBits = true then some rackBadHead
  else if h.job.isSome ∨ h.mode ≠ (if j.load then .saved else .running) then some rackBusy
  else none

/-- The bytes of a save record, phases 0 to S - 1 (02 Table K-13). -/
def RackJob.record (j : RackJob) (n : Nat) : List Byte :=
  let arr (f : Nat → Nat) : List Byte := (List.range n).flatMap fun p => leBytes 4 (f p)
  leBytes 4 (0xA7C30100 + n) ++ leBytes 4 j.rev.toNat ++ leBytes 8 j.live.toNat ++ leBytes 8 j.parked.toNat ++
    leBytes 8 j.faulted.toNat ++
    arr (fun p => if j.live.getLsbD p then ((tget p j.vals).getD 0).toNat else 0) ++
    arr (fun p => if j.parked.getLsbD p then ((tget p j.vals).getD 0).toNat else 0) ++
    arr (fun p => ((tget p j.tags).getD 0).toNat)

/-- Waiters of a record's granules are to be served first (04 R93). -/
def State.recordWaits (s : State) (core addr n : Nat) : Bool :=
  match s.recordLoc core addr n with
  | none => false
  | some (d, ord, off) => s.wakingSpan (elemAt d (tileIdx ord)) off n

/-- The save's visits are done: the record is written with engine writes, and the head is SAVED (R50, R51). -/
def finishSave (s : State) (e : Nat) (j : RackJob) : State :=
  let n := (s.hd e).curs
  match s.recordLoc j.core j.addr.toNat (32 + 12 * n) with
  | none => s
  | some (d, ord, off) =>
    if s.recordWaits j.core j.addr.toNat (32 + 12 * n) then s
    else
      let s1 := s.modDist d fun x => x.tileWrite ord off (j.record n)
      (s1.modHd e fun h => { h with mode := .saved, job := none, slots := [] }).reply j.core { counter := .toc }

/-- Nothing is left to capture or absorb in a save. -/
def Head.saved (h : Head) : Bool :=
  h.mode == .saving && !h.capturing && !(h.slots.any fun (_, t) => t.state == .draining || t.state == .faulted)

/-- ROTATION_SAVE: where the capture and the last absorptions of a save are done, its record is written; else the head
accepts or refuses the RACK.SAVE before it (R50, R51; Table K-15; 08 R385). A command to a sealed head ends at once (log
82). -/
def execRotationSave (e : Nat) (s : State) : Out :=
  let h := s.hd e
  .next (match h.saved, h.job with
    | true, some j => finishSave s e j
    | _, _ =>
      match h.queue with
      | [] => s
      | j :: rest =>
        if j.load then s
        else if s.isSealed e then
          (s.modHd e fun h => { h with queue := rest }).reply j.core { counter := .toc }
        else match s.rackCheck e j with
          | some sub => rackRefuse s e j sub
          | none =>
            if (s.recordLoc j.core j.addr.toNat (32 + 12 * h.curs)).isNone then rackRefuse s e j rackRange
            else s.modHd e fun h =>
              { h with mode := .saving, queue := rest
                       job := some { j with count := 0, rev := h.rev, live := 0, parked := 0, faulted := 0
                                            vals := [], tags := [] } })

/-- Check 1 of 02 Table K-14 on the header: S where it passes. -/
def recordHeader (b : List Byte) : Option Nat :=
  let w := leNat (b.take 4)
  let f := fun o => leNat ((b.drop o).take 8)
  let n := w % 128
  let live := f 8
  let parked := f 16
  let faulted := f 24
  if nbits w 31 16 = 0xA7C3 ∧ nbits w 15 8 = 1 ∧ nbits w 7 7 = 0 ∧ 2 ≤ n ∧ n ≤ 64 ∧
      live &&& parked = 0 ∧ live &&& faulted = 0 ∧ parked &&& faulted = 0 ∧
      live < 2 ^ n ∧ parked < 2 ^ n ∧ faulted < 2 ^ n then some n else none

/-- The load that a record, a remap table and S' name: the phases with their new places, or the check that fails
(02 R53, Table K-14). The zero bits of the TAG words are tested with the record's (DEDUCED, log 52). -/
def rackPlan (j : RackJob) (natLat : Nat) (n : Nat) (b : List Byte) (remap : Option (List Byte)) : BitVec 8 ⊕ RackJob :=
  let word := fun i => leNat ((b.drop (4 * i)).take 4)
  let live := BitVec.ofNat 64 (leNat ((b.drop 8).take 8))
  let parked := BitVec.ofNat 64 (leNat ((b.drop 16).take 8))
  let qs := (List.range n).filter fun q => live.getLsbD q || parked.getLsbD q
  let place := fun q => match remap with
    | none => q
    | some m => (nth q m).toNat
  let news := qs.map place
  if (List.range n).any fun q => decide (word (8 + 2 * n + q) ≥ 2 ^ 24) then .inl rackBadRecord
  else if j.slots < 2 ∨ 64 < j.slots ∨ j.slots < natLat then .inl rackBadSize
  else if (news.any fun p => decide (j.slots ≤ p)) || news.eraseDups.length != news.length then .inl rackBadRemap
  else
    let mask (m : BitVec 64) : BitVec 64 := (qs.filter fun q => m.getLsbD q).foldl (fun a q => setBit64 a (place q)) 0
    .inr { j with
      count := 0, rev := BitVec.ofNat 32 (word 1), live := mask live, parked := mask parked, faulted := 0
      vals := qs.foldl (fun l q => tset (place q) (BitVec.ofNat 32 (word (if live.getLsbD q then 8 + q else 8 + n + q))) l) []
      tags := qs.foldl (fun l q => tset (place q) (BitVec.ofNat 24 (word (8 + 2 * n + q))) l) [] }

/-- ROTATION_LOAD: the head accepts or refuses the RACK.LOAD before it, in the order of 08 R385; accepted, the loading
revolution begins (R53, R54). -/
def execRotationLoad (e : Nat) (s : State) : Out :=
  let h := s.hd e
  .next (match h.queue with
    | [] => s
    | j :: rest =>
      if !j.load then s
      else if s.isSealed e then (s.modHd e fun h => { h with queue := rest }).reply j.core { counter := .toc }
      else match s.rackCheck e j with
        | some sub => rackRefuse s e j sub
        | none =>
          let natLat := s.planeField (elemDist e) (elemIdx e) 6 2 1
          let read (a n : Nat) : Option (List Byte) := (s.recordLoc j.core a n).map fun (d, ord, off) => (s.dist d).tileRead ord off n
          let remap := match j.remap with
            | none => some none
            | some a => (read a.toNat 64).map some
          if s.recordWaits j.core j.addr.toNat 32 ∨
              (j.remap.any fun a => s.recordWaits j.core a.toNat 64) = true then s
          else match read j.addr.toNat 32, remap with
          | some hdr, some m =>
            match recordHeader hdr with
            | none => rackRefuse s e j rackBadRecord
            | some n =>
              match read j.addr.toNat (32 + 12 * n) with
              | none => rackRefuse s e j rackRange
              | some b =>
                if s.recordWaits j.core j.addr.toNat (32 + 12 * n) then s
                else match rackPlan j natLat n b m with
                | .inl sub => rackRefuse s e j sub
                | .inr job => s.modHd e fun h =>
                  { h with queue := rest, job := some job, mode := .loading, curs := j.slots, curd := j.slots - natLat
                           rev := job.rev, phc := 0, delay := [], slots := [] }
          | _, _ => rackRefuse s e j rackRange)

end Sys2Proof.Machine
end

