-- ==== Sys2Proof/Machine/Sel.lean ====
section
/-! DEFINITION. Selection engines (10 R244-R247, R253; 13 R263; 08 R188). -/

namespace Sys2Proof.Machine

/-- The selection engine of an element number. -/
def State.sel (s : State) (e : Nat) : Sel := tgetD (elemUnit e) (s.dist (elemDist e)).sels

/-- Changes a selection engine. -/
def State.modSel (s : State) (e : Nat) (f : Sel → Sel) : State := s.modDist (elemDist e) fun x => x.modSel (elemUnit e) f

abbrev codeSelFull : BitVec 8 := 0x20
abbrev codeSelResult : BitVec 8 := 0x21
abbrev codeSelPair : BitVec 8 := 0x22

/-- A field of the engine that belongs with its keys. -/
def State.selField (s : State) (e f : Nat) : Nat := s.inField e 0 0 f 0

/-- Whether each key is paired with a weight. -/
def State.selWen (s : State) (e : Nat) : Bool := s.selField e 3 == 1

/-- The set is complete (R244). -/
def Sel.complete (q : Sel) (wen : Bool) : Bool := q.keyEnd && (q.wEnd || !wen)

/-! ### Collecting keys (R244) -/

/-- A key token as kept: converted exactly to FP32 where it is BF16 or FP16; whether it is a NaN. -/
def selKey (kfmt : Nat) (w : W32) : W32 × Bool :=
  if kfmt = 10 then (w, false)
  else
    let x := if kfmt = 0 then w else (rnd32 .rne (valOf (BitVec.ofNat 4 kfmt) (w.toNat % 2 ^ 16))).1
    (x, (val32 x).isNaN)

/-- The set is discarded, and tokens are absorbed to their ends. -/
def Sel.discard (q : Sel) : Sel := { q with keys := [], weights := [], absorb := true }

/-- The engine after a token on KEYCH (true) or WCH; a fault code where it discards the set. After a discarded set the
complete set is empty (DEDUCED, log 62). -/
def Sel.take (q : Sel) (wen : Bool) (kfmt : Nat) (isKey : Bool) (t : Token) : Sel × Option (BitVec 8) :=
  let ended := t.marker = 2 || t.marker = 3
  let q1 := if isKey then { q with keyEnd := ended } else { q with wEnd := ended }
  let (q2, f2) :=
    if t.marker = 3 then ({ q1.discard with errored := true }, none)
    else if q.absorb then (q1, none)
    else if isKey then
      (if q1.keys.length = 4096 then (q1.discard, some codeSelFull)
       else ({ q1 with keys := q1.keys ++ [selKey kfmt t.data] }, none))
    else ({ q1 with weights := q1.weights ++ [t.data] }, none)
  if q2.complete wen && !q2.absorb && wen && q2.keys.length != q2.weights.length then (q2.discard, some codeSelPair)
  else (q2, f2)

/-- SEL_KEY_TOKEN: the next token on KEYCH, or on WCH where the weight flag is set, while its channel's end has not come. -/
def execSelKeyToken (e : Nat) (weight : Bool) (s : State) : Out :=
  let q := s.sel e
  let wen := s.selWen e
  .next (if elemKind e ≠ .sel ∨ s.acts e = false ∨ (if weight then q.wEnd || !wen else q.keyEnd) = true then s
    else match s.inputHead e (if weight then 1 else 0) (if weight then 1 else 0) Token.isData with
      | none => s
      | some (c, l, h) =>
        let (q1, f) := q.take wen (s.selField e 2) (!weight) h.tok
        let s1 := (s.popAt e l c).modSel e fun _ => q1
        match f with
        | none => s1
        | some code => s1.tokenFault e c code)

/-! ### Queries (R245-R247) -/

/-- The image of a key (R245). -/
def keyImage (kfmt : Nat) (x : W32) : Nat :=
  (if kfmt = 10 ∨ x.getLsbD 31 = false then x ^^^ 0x80000000 else ~~~x).toNat

/-- A kept key: its number among the keys received, image, pattern, weight. -/
structure Kept where
  i : Nat
  image : Nat
  key : W32
  weight : W32
  deriving DecidableEq, Repr, Inhabited

/-- The keys that are kept (R244). -/
def Sel.kept (q : Sel) (kfmt : Nat) : List Kept :=
  (q.keys.mapIdx fun i (x, nan) => (({ i := i, image := keyImage kfmt x, key := x, weight := nth i q.weights } : Kept), nan))
    |>.filterMap fun (k, nan) => if nan then none else some k

/-- The members of a set whose image has a bit clear, and the others. -/
def splitBit (b : Nat) (c : List Kept) : List Kept × List Kept := c.partition fun k => !k.image.testBit b

/-- The walk of the bit planes from plane b - 1 down for a rank (R246). -/
def rankWalk : Nat → Nat → List Kept → List Kept
  | 0, _, c => c
  | b + 1, r, c =>
    let (z, o) := splitBit b c
    if r < z.length then rankWalk b r z else rankWalk b (r - z.length) o

/-- A weight in units of 2^-160. -/
def weightUnits (w : W32) : Int :=
  match val32 w with
  | .fin neg n d => unitsOf neg n d
  | _ => 0

/-- The weight of a set, scaled by a factor. -/
def sumWeights (k : Nat) (c : List Kept) : Int := c.foldl (fun t x => t + weightUnits x.weight * k) 0

/-- The walk for a weighted quantile (R246); t is what remains of T, weights scaled by k. -/
def weightWalk (k : Nat) : Nat → Int → List Kept → List Kept
  | 0, _, c => c
  | b + 1, t, c =>
    let (z, o) := splitBit b c
    if !z.isEmpty && decide (t ≤ sumWeights k z) then weightWalk k b t z else weightWalk k b (t - sumWeights k z) o

/-- Whether a weight is negative, infinite or NaN (R247 STATUS 3). -/
def badWeight (w : W32) : Bool :=
  match val32 w with
  | .fin neg n _ => neg && n != 0
  | _ => true

/-- q as a ratio; none where it is NaN, below 0 or above 1 (R247 STATUS 2). -/
def quantile (w : W32) : Option (Nat × Nat) :=
  match val32 w with
  | .fin neg n d => if (neg = true ∧ n ≠ 0) ∨ d < n then none else some (n, d)
  | _ => none

/-- The answer to a query: the final set, or the STATUS codes that apply (R246, R247); STATUS 1 on a set that an error token
ended (R244). -/
def Sel.query (q : Sel) (op : Nat) (arg : Word) (kfmt : Nat) (wen : Bool) : Except (List Nat) (List Kept) :=
  let c := q.kept kfmt
  let n := c.length
  let status (l : List (Bool × Nat)) : List Nat := (l.filter (·.1)).map (·.2)
  if q.errored then .error [1]
  else if op = 1 then
    let k := arg.toNat % 4096
    if n ≤ k then .error [1] else .ok (rankWalk 32 k c)
  else
    let x := quantile (arg.setWidth 32)
    let bad := status ([(n == 0, 1), (x.isNone, 2)] ++
      if op = 3 then [(wen && c.any fun k => badWeight k.weight, 3), (!wen, 4)] else [])
    match x, bad with
    | some (num, den), [] =>
      if op = 2 then .ok (rankWalk 32 ((num * n + den - 1) / den - 1) c)
      else .ok (weightWalk den 32 (sumWeights num c) c)
    | _, l => .error l

/-- The 512 bytes of a survivor mask (R247, R263). -/
def maskBytes (l : List Nat) : List Byte := leBytes 512 (l.foldl (fun m i => m ||| 2 ^ i) 0)

/-- The result granule and the survivor mask of a query. Where several STATUS codes apply, which of them is written is
open: a free choice (log 63). RANK is the number of kept keys below the answer, for KTH and QUANT too (DEDUCED, log 170). -/
def Sel.result (q : Sel) (op : Nat) (arg : Word) (kfmt : Nat) (wen : Bool) (pick : Nat) : List Byte × List Byte :=
  let n := (q.kept kfmt).length
  let nan := q.keys.length - n
  let gran (key : W32) (rank st : Nat) : List Byte :=
    leBytes 4 key.toNat ++ leBytes 4 rank ++ leBytes 4 n ++ leBytes 2 nan ++ leBytes 2 st
  match q.query op arg kfmt wen with
  | .ok c =>
    let a := c.headD default
    (gran a.key ((q.kept kfmt).filter fun k => k.image < a.image).length 0, maskBytes (c.map (·.i)))
  | .error l => (gran (if kfmt = 10 then 0 else nan32) 0xFFFFFFFF (nth (pick % l.length) l), maskBytes [])

/-- A query waits for its set to be complete; the mask is written before the result granule (R247, R253). -/
def State.selQuery (s : State) (e op : Nat) : State :=
  let q := s.sel e
  let d := elemDist e
  if elemKind e ≠ .sel ∨ s.acts e = false ∨ q.complete (s.selWen e) = false then s
  else match q.queue with
    | [] => s
    | k :: rest =>
      if nbits k.cmd.toNat 3 0 ≠ op then s
      else
        let mask := k.cmd.getLsbD 4
        let gran := s.selField e 5
        let n := if mask then 33 else 1
        let s1 := s.modSel e fun q => { q with queue := rest }
        match s.resultArea d (s.selField e 4) gran n with
        | none => s1.endCmd k .toc (elemUnit e) (some codeSelResult)
        | some (dd, ord) =>
          if s.areaWaking dd ord gran n then s
          else
            let (g, m) := q.result op k.arg (s.selField e 2) (s.selWen e) (Config.statusPick s.tick)
            let s2 := if mask then s1.areaWrite dd ord (gran + 1) m else s1
            ((s2.areaWrite dd ord gran g).markFired d).endCmd k .toc (elemUnit e)

/-- SEL_KTH: the key of rank k (R246). -/
def execSelKth (e : Nat) (s : State) : Out := .next (s.selQuery e 1)

/-- SEL_QUANT: the key of rank max(0, ceil(q n) - 1) (R246). -/
def execSelQuant (e : Nat) (s : State) : Out := .next (s.selQuery e 2)

/-- SEL_WQUANT: the smallest key whose cumulative weight reaches q times the sum of weights (R246). -/
def execSelWquant (e : Nat) (s : State) : Out := .next (s.selQuery e 3)

/-- SEL_CLEAR: the set is empty and the next key may enter (R253). -/
def execSelClear (e : Nat) (s : State) : Out :=
  .next (if elemKind e ≠ .sel ∨ s.acts e = false then s
    else match (s.sel e).queue with
      | [] => s
      | k :: rest =>
        if nbits k.cmd.toNat 3 0 ≠ 4 then s
        else (s.modSel e fun _ => { queue := rest }).endCmd k .toc (elemUnit e))

end Sys2Proof.Machine
end

