-- ==== Sys2Proof/Machine/SysIns.lean ====
section
/-! DEFINITION. System registers, trap return, idle, wait (06 R128; 07 R168, R169; 08 R171, R198, R200; 04 R102). -/

namespace Sys2Proof.Machine

/-- The refresh period in force on a die: 64 us, or 32 us while HOT (04 R101). -/
def wsPeriod (hot : Bool) : Nat := if hot then 32000 else 64000

/-- WSCAL as it reads at an instant (04 R102, Table K-33). -/
def wscal (hot : Bool) (now : Nat) : Word :=
  let offs := now % wsPeriod hot
  let group := if hot then offs / 1000 else offs / 2000
  BitVec.ofNat 64 ((if hot then 2 ^ 31 else 0) + group * 2 ^ 16 + offs)

/-- A system register below 0x800 as it reads (06 Table K-46); none where the number is not listed. The management core
has no die: its WSCAL reads as a die that is not HOT (DESIGN CHOICE, log 38). -/
def sysRead (s : State) (n : Nat) : Option Word :=
  let c := s.cr
  match n with
  | 0x000 => some (BitVec.ofNat 64 s.core)
  | 0x001 => some (c.here.setWidth 64)
  | 0x002 => some (c.ecsn.setWidth 64)
  | 0x003 => some (if c.level1 then 1 else 0)
  | 0x004 => some (BitVec.ofNat 64 s.timebase)
  | 0x010 => some c.trapcause
  | 0x011 => some c.trappc
  | 0x012 => some c.trapq
  | 0x013 => some c.remain
  | 0x020 => some c.stepcfgLo
  | 0x021 => some c.stepcfgHi
  | 0x022 => some (c.iter[0].setWidth 64)
  | 0x023 => some (c.iter[1].setWidth 64)
  | 0x024 => some (c.iter[2].setWidth 64)
  | 0x025 => some (c.iter[3].setWidth 64)
  | 0x030 => some (BitVec.ofNat 64 c.ldc)
  | 0x031 => some (BitVec.ofNat 64 c.stc)
  | 0x032 => some (BitVec.ofNat 64 c.cpc)
  | 0x033 => some (BitVec.ofNat 64 c.toc)
  | 0x040 => some (wscal (s.core ≠ mgmtCore && vget s.hot (distDie s.core)) s.timebase)
  | _ => none

/-- A count field of 7 bits: a written value above 64 stores 64 (07 Table K-66, 08 Table K-93). -/
def countField (v : Nat) : Nat := min (v % 128) 64

/-- What a write leaves in a register of the core: reserved bits are discarded (07 R168; 07 Tables K-66, K-71, K-72; 08
Tables K-92, K-93). Read-only registers ignore it; PRIV is read-only at level 0. -/
def Core.sysWrite (c : Core) (n : Nat) (v : Word) : Core :=
  match n with
  | 0x003 => if c.level1 then { c with level1 := v.getLsbD 0 } else c
  | 0x010 => { c with trapcause := v &&& 0x1FFFF00FF, trapOp := if c.active then c.trapOp else c.opId }
  | 0x011 => { c with trappc := v &&& 0x3FFFC }
  | 0x012 => { c with trapq := (v &&& 0x1FFFFFFFC0) ||| BitVec.ofNat 64 (countField (nbits v.toNat 46 40) * 2 ^ 40) }
  | 0x013 => { c with remain := BitVec.ofNat 64 (countField v.toNat) }
  | 0x020 => { c with stepcfgLo := v &&& 0xFFFFFFFFFFFF }
  | 0x021 => { c with stepcfgHi := v &&& 0x3FFFFFFFFFFFF }
  | _ => c

/-- sys.rd: PRIVILEGE from 0x800 at level 0, ILLEGAL for an unlisted number, else the register (06 R128, 07 R168). -/
def execSysRd (d : BitVec 5) (n : BitVec 12) (s : State) : Out :=
  .next (
    if 0x800 ≤ n.toNat then
      (if s.cr.level1 then finishG s d (mgmtRead s n.toNat) else syncTrap s causePrivilege)
    else match sysRead s n.toNat with
      | some v => finishG s d v
      | none => syncTrap s causeIllegal)

/-- sys.wr, with the same checks (06 R128, 07 R168). -/
def execSysWr (d : BitVec 5) (n : BitVec 12) (s : State) : Out :=
  let v := s.cr.rdG d
  .next (
    if 0x800 ≤ n.toNat then
      (if s.cr.level1 then (let s1 := mgmtWrite n.toNat v s; finish s1 s1.cr) else syncTrap s causePrivilege)
    else match sysRead s n.toNat with
      | some _ => finish s (s.cr.sysWrite n.toNat v)
      | none => syncTrap s causeIllegal)

/-- The word of a replay entry as a mem, rmem, amo, cap.ld or cap.st instruction that passes 06 R124 (08 R198). -/
def replayInstr (c : Nat) (w : W32) : Option MemInstr :=
  match decodeOne w with
  | none => none
  | some i => match memInstr i with
    | none => none
    | some m => if i.wf = false ∨ (c = mgmtCore ∧ m.form.remote = true) then none else some m

/-- Replay entry i of a frame: none where VALID = 0, the instruction to re-issue, or a failure of 08 R198. -/
def replayOp (s : State) (c ord off i : Nat) : Option (Option MemOp) :=
  let b := (s.dist c).tileRead ord (off + 64 + 64 * i) 64
  let f := fun o n => leNat ((b.drop o).take n)
  if f 8 4 < 2 ^ 31 then none
  else
    let w := BitVec.ofNat 32 (f 4 4)
    some (match replayInstr c w with
      | none => none
      | some _ => some { pc := BitVec.ofNat 32 (f 0 4), word := w, addr := BitVec.ofNat 64 (f 16 8)
                         data0 := BitVec.ofNat 64 (f 24 8), data1 := BitVec.ofNat 64 (f 32 8)
                         cap := BitVec.ofNat 128 (f 48 16) })

/-- An unfinished write of a core touches n bytes of its frame: a read of the frame comes after it (05 R108). -/
def State.frameBusy (s : State) (c ord off n : Nat) : Bool :=
  (s.coreOf c).ops.any fun o =>
    o.status != .errored && capObj o.cap == tileSpace && wordClass o.word != .ldc &&
      match s.tileAddr c o.addr.toNat with
      | some (d, r, f) => d == c && r == ord && decide (f < off + n) && decide (off < f + o.form.n)
      | none => false

/-- tret (08 R198): ILLEGAL while ACTIVE = 0; it waits for the SEQ's earlier writes to its frame (05 R108), and for waiters
of the frame's granules that are to be served before a later access (04 R93); then every valid entry is checked, ACTIVE falls, PC := TRAPPC and the valid entries stand ready to re-issue. -/
def execSysTret (s : State) : Out :=
  let x := s.cr
  .next (
    if !x.active then syncTrap s causeIllegal
    else match s.frameLoc s.core (64 + 64 * x.frameCount) with
      | none => doubleTrap s s.core x.here x.ecsn
      | some (ord, off) =>
        let es := (List.range x.frameCount).filterMap (replayOp s s.core ord off)
        let n := 64 + 64 * x.frameCount
        if s.frameBusy s.core ord off n || s.wakingSpan (elemAt s.core (tileIdx ord)) off n then s
        else if es.all (·.isSome) then
          s.setCr { x with trapcause := x.trapcause &&& ~~~(1#64 <<< 32), pc := x.trappc, reissue := es.filterMap id }
        else doubleTrap s s.core x.here x.ecsn)

/-- Re-issues the next entry of a tret, with every check of 08 R173 or 07 R162 again; a check that fails is an ordinary
synchronous trap, whose frame keeps the failing entry and every later one (08 R198). Like any instruction it waits for a
load that has still to write its target (07 R148). -/
def reissueOne (s : State) : State :=
  let x := s.cr
  match x.reissue with
  | [] => s
  | o :: rest =>
    match wordInstr o.word with
    | none => s.setCr { x with reissue := rest }
    | some m =>
      match memCheck s s.core m.form o.cap o.addr.toNat o.data0 with
      | some (cause, sub) =>
        takeTrap s s.core { cause := cause, sub := sub, epc := o.pc, eecsn := x.ecsn, xaddr := o.addr, sync := true }
      | none =>
        if x.targeted o then s
        else if x.mayIssue m.form.cls then
          enqueue (s.setCr { x with reissue := rest }) s.core { o with eecsn := x.ecsn } m.form.cls
        else s

/-- idle (08 R200): goes on once a queue is not empty, a counter has fallen since it began, or a cause is pending. -/
def execSysIdle (s : State) : Out :=
  let x := s.cr
  let fell := match x.idleSeen with
    | none => false
    | some (l, st, c, t) => decide (x.ldc < l) || decide (x.stc < st) || decide (x.cpc < c) || decide (x.toc < t)
  .next (
    if !x.sigQ.isEmpty || !x.doneQ.isEmpty || fell || !x.pending.isEmpty || x.ops.any fun o => o.status == .errored then
      finish s { x with idleSeen := none }
    else s.setCr { x with idleSeen := some (x.idleSeen.getD (x.ldc, x.stc, x.cpc, x.toc)) })

/-- wait (08 R171): goes on once all four counters are within their limits. -/
def execWait (l st c t : BitVec 6) (s : State) : Out :=
  let x := s.cr
  .next (
    if withinLimit x.ldc l && withinLimit x.stc st && withinLimit x.cpc c && withinLimit x.toc t then finish s x else s)

/-- An illegal word traps ILLEGAL, or PRIVILEGE for the major opcode mgmt at level 0, and changes nothing (06 R124). -/
def execIllegalWord (w : W32) (s : State) : Out :=
  .next (syncTrap s (if fld w 31 25 == 0x3D#7 && !s.cr.level1 then causePrivilege else causeIllegal))

/-- A fetch beyond the store traps FETCH_RANGE at the instruction that fetched it, at which PC stands: the one executed last,
where the sequence has run past the store (06 R120, log 9). -/
def execFetchRange (s : State) : Out :=
  .next (syncTrap (s.setCr { s.cr with past := false }) causeFetchRange)

end Sys2Proof.Machine
end

