-- ==== Sys2Proof/Machine/Fetch.lean ====
section
/-! DEFINITION. Fetching an instruction's bytes, and what a core does before it issues one (06 R120, R124, R125; 07 R148;
08 R175, R196, R198). -/

namespace Sys2Proof.Machine

/-- The bytes of the instruction store from an address on, as many as an instruction can take (06 R120). -/
def State.fetchBytes (s : State) (c : Nat) (a : Nat) : List Byte :=
  mgets a (min 8 (storeTop - a)) (s.dist c).istore

/-- The instruction at an address: an instruction of the table, or the step that a bad word or a fetch beyond the store is
(06 R120, R124). A two-word instruction whose second word lies beyond the store is a fetch beyond the store, whatever its
first word holds (DESIGN CHOICE, log 151). -/
def State.fetchAt (s : State) (c : Nat) (a : Nat) : Instr :=
  if storeTop ≤ a then .fetchRange
  else match decode (s.fetchBytes c a) with
    | .ok (i, _) => i
    | .error .short => .fetchRange
    | .error _ => .illegalWord (BitVec.ofNat 32 (mgetN a 4 (s.dist c).istore))

/-- The acting core waits with the instruction it would issue: for a register (07 R148). -/
def State.holds (s : State) (i : Instr) : Bool :=
  match encode i with
  | w :: _ => s.cr.waitsFor w
  | [] => false

/-- The acting core is not to issue: it does not run, or its region is halted for a save (16 R320). -/
def State.stopped (s : State) : Bool :=
  let x := s.cr
  !x.running || (x.mayHalt && match s.regionAt s.core with
    | some r => s.core != mgmtCore && r.gangHalt
    | none => false)

/-- What a core does in place of issuing an instruction: nothing while it does not run, the rest of a trap, the next
pending cause, a page hold, or the next re-issued entry of a tret; none where it issues. -/
def State.before (s : State) : Option State :=
  if s.stopped then some s
  else if s.cr.trapping.isSome then some (settleTrap s s.core)
  else match takePending s s.core with
    | some t => some t
    | none =>
      if s.cr.held then some s
      else if !s.cr.reissue.isEmpty then some (reissueOne s)
      else none

/-- The instruction that the acting core issues, unless it waits for a register. -/
def State.issues (s : State) : Option Instr :=
  let i := if s.cr.past then .fetchRange else s.fetchAt s.core s.cr.pc.toNat
  if s.holds i then none else some i

/-- TIMEBASE at which the next token, boost or refresh interval begins (20 R368; 04 R101). -/
def State.nextBoundary (s : State) : Nat := min (min s.nextBoost s.nextPower) s.nextHot

/-- The number of the step, and time, move on (log 2, log 6), time no further than just before the next boundary: what acts
before a boundary has begun stands before it (20 R368). -/
def State.clocked (s : State) : State :=
  { s with tick := s.tick + 1, timebase := max s.timebase (min (s.timebase + Config.stepNs s.tick) (s.nextBoundary - 1)) }

/-- A core stands ready to issue: it runs, and nothing holds it. -/
def Core.ready (c : Core) : Core :=
  { c with running := true, halted := false, trapping := none, pending := [], reissue := [], ops := [], held := false
           inRep := false, noInt := false, past := false, idleSeen := none, spargeWait := none
           pc := if c.pc.toNat + 8 ≤ storeTop then c.pc else 0 }

/-- A one-district region in which a word placed from outside runs: district 1, launched (log 4). -/
def probeRegion : Region :=
  { loadId := 1, districts := [1], nodes := [{ dist := 1 }], status := .running, started := true }

/-- The core that a placed word runs on: the management core for a management word; else the acting core where it is that
of a launched region; else district 1. -/
def State.probeCore (s : State) (w : Nat) : Nat :=
  if w / 2 ^ 25 % 128 = 0x3D then mgmtCore
  else match s.regionAt s.core with
    | some r => if s.core ≠ mgmtCore ∧ r.gangHalt = false then s.core else 1
    | none => 1

/-- The state with a core that can issue: the region of district 1 where no region stands there. -/
def State.probed (s : State) (c : Nat) : State :=
  if c = mgmtCore then s
  else match s.regionAt c with
    | some _ => s
    | none => { s with regions := s.regions ++ [probeRegion]
                       districts := tset 1 { s.dist 1 with core := ({} : Core).wrK 0 probeRegion.k0 } s.districts }

/-- Words placed at PC of a core that is ready to issue. -/
def State.placed (s : State) (c : Nat) (bs : List Byte) : State :=
  s.modDist c fun x =>
    let y := x.core.ready
    { x with core := y, istore := mputs y.pc.toNat bs x.istore }

end Sys2Proof.Machine
end

