-- ==== Sys2Proof/Machine/Seqev.lean ====
section
/-! DEFINITION. What happens to a SEQ between its instructions: replies, trap entry, the completion of barriers, the release
of a plane switch (08 R170, R174, R175, R179-R181, R196; 17 R343; 15 R299). -/

namespace Sys2Proof.Machine

/-- A reply token at the SEQ's slot answers the request that its tag names; an error token gives the error (08 R174). At V0
it waits (01 R29). -/
def State.replyToken (s : State) (c link ch : Nat) : State :=
  let e := elemAt c seqIdx
  match s.headAt e link ch with
  | none => s
  | some h =>
    if s.routeOf e link ch ≠ 5 ∨ h.tok.kind ≠ 2 ∨ s.isSealed e = true ∨ s.accepts c = false then s
    else
      let s1 := s.popAt e link ch
      match h.tok.tag with
      | none => s1
      | some (n, op) =>
        if n ≠ c then s1
        else complete s1 c (if h.tok.marker = 3 then { op := some op, esub := h.tok.data.setWidth 8, denied := true }
          else { op := some op, words := [h.tok.data] })

/-- A PORT's answer to the SEQ's own access, while the incarnation is the one that asked (08 R175; 17 R343). -/
def State.portAnswer (s : State) (c : Nat) : State :=
  let mine (q : BitVec 16 × Access × List (BitVec 32) × BitVec 8) : Bool :=
    q.2.1.issuer == .seq c && q.1 == (s.distReg c).incarnation
  match (s.dist c).port.replyQ.find? mine with
  | none => s
  | some (_, a, ws, code) =>
    complete (s.modDist c fun x => { x with port := { x.port with replyQ := delFirst mine x.port.replyQ } }) c
      { op := some a.op, words := ws, denied := code != 0 }

/-- SEQ_REPLY: the next reply or completion reaches a SEQ: over the fabric on a link (0 to 3), from its own tiles and engines
(4), or from its PORT (5); a trap that waited for it is entered (08 R170, R196). -/
def execSeqReply (c src ch : Nat) (s : State) : Out :=
  .next (
    let s1 := if src < 4 then s.replyToken c src ch
      else if src = 4 then (match (s.coreOf c).inbox with
        | [] => s
        | k :: rest => complete (s.modCore c fun x => { x with inbox := rest }) c k)
      else s.portAnswer c
    settleTrap s1 c)

/-- TRAP_ENTRY: a core enters the trap that waits for its requests, once they have settled, or takes the next cause that is
pending (08 R196, R197). -/
def execTrapEntry (c : Nat) (s : State) : Out :=
  .next (if ({ s with core := c }).stopped then s
    else if (s.coreOf c).trapping.isSome then settleTrap s c
    else (takePending s c).getD s)

/-! ### Region barriers (R179) -/

/-- The word of rbar. -/
def rbarWord : W32 := 0x5A000010

/-- The word at a core's PC. -/
def State.wordAt (s : State) (c : Nat) : W32 := BitVec.ofNat 32 (mgetN (s.coreOf c).pc.toNat 4 (s.dist c).istore)

/-- A member's rbar is complete: it retires where the core stands at it, else when it is next executed. -/
def State.passBarrier (s : State) (c : Nat) : State :=
  let at_ := s.wordAt c == rbarWord && (s.coreOf c).trapping.isNone && !(s.coreOf c).active
  s.modCore c fun x =>
    let y := { x with barArrived := false, barGen := x.barGen + 1, remote := false }
    if at_ then y.advance 1 else { y with barDone := true }

/-- RBAR_COMPLETE: every SEQ of a region has arrived or halted, and the accesses of those that arrived are performed; the
monitors of the region check for drift (R179; 05 R117; 10 R249). It waits for waiters that come before a check's write (04
R93). -/
def execRbarComplete (load : BitVec 32) (s : State) : Out :=
  .next (match s.regionOf load with
    | none => s
    | some r =>
      let here := r.districts.filter fun d => (s.coreOf d).barArrived
      if r.fires = false ∨ here.isEmpty = true ∨
          (r.districts.any fun d => !(s.coreOf d).halted && !(s.coreOf d).barArrived) = true ∨
          (here.all fun d => (s.coreOf d).performed) = false ∨ s.mayCheck r = false then s
      else (here.foldl State.passBarrier s).driftChecks r)

/-! ### Phase barriers (R180) -/

/-- PHBAR_COMPLETE: the SEQs that arrived first at a group, as many as the first of them names, go on, once their accesses
are performed; later arrivals stand in the next generation, whose count is that of the first of them (R180; DEDUCED, log
67: the first arrival's count). -/
def execPhbarComplete (load : BitVec 32) (group : BitVec 4) (s : State) : Out :=
  .next (match s.regionOf load with
    | none => s
    | some r =>
      match tgetD group.toNat r.phase with
      | [] => s
      | (c, n) :: rest =>
        let l := (c, n) :: rest
        let here := (l.take n).map (·.1)
        if r.fires = false ∨ here.length < n ∨ (here.all fun d => (s.coreOf d).performed) = false then s
        else
          let left := l.drop n
          let s1 := s.modRegion load fun r =>
            { r with phase := if left.isEmpty then terase group.toNat r.phase else tset group.toNat left r.phase }
          here.foldl (fun s d => s.modCore d fun x =>
            { x with phArrived := x.phArrived.erase group, phDone := x.phDone ++ [group] }) s1)

/-! ### Plane switches (R181) -/

/-- No engine of a district has anything left to do, and nothing of what engines wrote stands in its side log (R181
step 1). -/
def District.drained (x : District) : Bool :=
  x.copier.queue.isEmpty &&
  (x.mns.all fun (_, m) => m.steepQ.isEmpty && m.mtokQ.isEmpty && m.cur.isNone) &&
  (x.ros.all fun (_, r) => r.queue.isEmpty) &&
  (x.sels.all fun (_, q) => q.queue.isEmpty) &&
  (x.mons.all fun (_, m) => m.queue.isEmpty) &&
  (x.decs.all fun (_, m) => m.queue.isEmpty) &&
  (x.tiles.all fun (_, t) => t.ports.toList.all fun p => p.score.isEmpty) &&
  x.port.score.isEmpty &&
  (x.pes.all fun (_, p) => p.head.job.isNone && p.head.queue.isEmpty) &&
  x.port.sideLog.all fun w => match w.acc.issuer with
    | .seq _ => true
    | .pe _ => true
    | _ => false

/-- SPARGE_RELEASE: every engine of the region has finished; the configuration tree tells every element, the region plane
becomes the slot, the sparge completes, and a SPARGEAWAIT of the region is released (R181; 06 R135; 15 R299). -/
def execSpargeRelease (load : BitVec 32) (s : State) : Out :=
  .next (match s.regionOf load with
    | none => s
    | some r => match (s.coreOf r.root).spargeWait with
      | none => s
      | some slot =>
        if r.fires = false ∨ (s.coreOf r.root).spargeDone = true ∨
            (r.districts.any fun d => !(s.dist d).drained) = true then s
        else
          let s1 := s.modRegion load fun r => { r with plane := slot }
          let s2 := r.districts.foldl (fun s d =>
            (List.range 520).foldl (fun s i =>
              if s.isSealed (elemAt d i) then s else s.treeWord (elemAt d i) r.plane slot) s) s1
          let s3 := r.districts.foldl (fun s d => s.modDist d fun x => { x with cfg := { x.cfg with await := false } }) s2
          s3.modCore r.root fun x => { x with spargeDone := true })

end Sys2Proof.Machine
end

