-- ==== Sys2Proof/Machine/Dispatch.lean ====
section
/-! DEFINITION. One arm per instruction: a direct call of its meaning. -/

namespace Sys2Proof.Machine

/-- What an instruction, or a device step, does. -/
def exec (i : Instr) (s : State) : Host.Outcome State Fault Refusal :=
  match i with
  | .aluAdd d a b => Sys2Proof.Machine.execAluAdd d a b s
  | .aluSub d a b => Sys2Proof.Machine.execAluSub d a b s
  | .aluMul d a b => Sys2Proof.Machine.execAluMul d a b s
  | .aluMulhs d a b => Sys2Proof.Machine.execAluMulhs d a b s
  | .aluMulhu d a b => Sys2Proof.Machine.execAluMulhu d a b s
  | .aluDivs d a b => Sys2Proof.Machine.execAluDivs d a b s
  | .aluDivu d a b => Sys2Proof.Machine.execAluDivu d a b s
  | .aluRems d a b => Sys2Proof.Machine.execAluRems d a b s
  | .aluRemu d a b => Sys2Proof.Machine.execAluRemu d a b s
  | .aluAnd d a b => Sys2Proof.Machine.execAluAnd d a b s
  | .aluOr d a b => Sys2Proof.Machine.execAluOr d a b s
  | .aluXor d a b => Sys2Proof.Machine.execAluXor d a b s
  | .aluAndn d a b => Sys2Proof.Machine.execAluAndn d a b s
  | .aluMin d a b => Sys2Proof.Machine.execAluMin d a b s
  | .aluMax d a b => Sys2Proof.Machine.execAluMax d a b s
  | .aluMinu d a b => Sys2Proof.Machine.execAluMinu d a b s
  | .aluMaxu d a b => Sys2Proof.Machine.execAluMaxu d a b s
  | .addi d a y => Sys2Proof.Machine.execAddi d a y s
  | .andi d a y => Sys2Proof.Machine.execAndi d a y s
  | .ori d a y => Sys2Proof.Machine.execOri d a y s
  | .xori d a y => Sys2Proof.Machine.execXori d a y s
  | .shli d a n => Sys2Proof.Machine.execShli d a n s
  | .shri d a n => Sys2Proof.Machine.execShri d a n s
  | .sari d a n => Sys2Proof.Machine.execSari d a n s
  | .liSx d imm => Sys2Proof.Machine.execLiSx d imm s
  | .liZx d imm => Sys2Proof.Machine.execLiZx d imm s
  | .liHi d imm => Sys2Proof.Machine.execLiHi d imm s
  | .cmpEq c a b => Sys2Proof.Machine.execCmpEq c a b s
  | .cmpNe c a b => Sys2Proof.Machine.execCmpNe c a b s
  | .cmpLt c a b => Sys2Proof.Machine.execCmpLt c a b s
  | .cmpLtu c a b => Sys2Proof.Machine.execCmpLtu c a b s
  | .cmpLe c a b => Sys2Proof.Machine.execCmpLe c a b s
  | .cmpLeu c a b => Sys2Proof.Machine.execCmpLeu c a b s
  | .cmpFeq c a b => Sys2Proof.Machine.execCmpFeq c a b s
  | .cmpFlt c a b => Sys2Proof.Machine.execCmpFlt c a b s
  | .cmpFle c a b => Sys2Proof.Machine.execCmpFle c a b s
  | .cmpFun c a b => Sys2Proof.Machine.execCmpFun c a b s
  | .cndAnd c a b => Sys2Proof.Machine.execCndAnd c a b s
  | .cndOr c a b => Sys2Proof.Machine.execCndOr c a b s
  | .cndXor c a b => Sys2Proof.Machine.execCndXor c a b s
  | .cndAndn c a b => Sys2Proof.Machine.execCndAndn c a b s
  | .cndSetg d a => Sys2Proof.Machine.execCndSetg d a s
  | .cndFromg c a => Sys2Proof.Machine.execCndFromg c a s
  | .cndSel d a b n => Sys2Proof.Machine.execCndSel d a b n s
  | .fpuAdd d a b r => Sys2Proof.Machine.execFpuAdd d a b r s
  | .fpuSub d a b r => Sys2Proof.Machine.execFpuSub d a b r s
  | .fpuMul d a b r => Sys2Proof.Machine.execFpuMul d a b r s
  | .fpuDiv d a b r => Sys2Proof.Machine.execFpuDiv d a b r s
  | .fpuSqrt d a r => Sys2Proof.Machine.execFpuSqrt d a r s
  | .fpuFma d a b r => Sys2Proof.Machine.execFpuFma d a b r s
  | .fpuMin d a b => Sys2Proof.Machine.execFpuMin d a b s
  | .fpuMax d a b => Sys2Proof.Machine.execFpuMax d a b s
  | .fpuAbs d a => Sys2Proof.Machine.execFpuAbs d a s
  | .fpuNeg d a => Sys2Proof.Machine.execFpuNeg d a s
  | .fpuCvto d a f r x => Sys2Proof.Machine.execFpuCvto d a f r x s
  | .fpuCvfrom d a f r => Sys2Proof.Machine.execFpuCvfrom d a f r s
  | .fpuFlags d => Sys2Proof.Machine.execFpuFlags d s
  | .bitShl d a b => Sys2Proof.Machine.execBitShl d a b s
  | .bitShr d a b => Sys2Proof.Machine.execBitShr d a b s
  | .bitSar d a b => Sys2Proof.Machine.execBitSar d a b s
  | .bitRol d a b => Sys2Proof.Machine.execBitRol d a b s
  | .bitRor d a b => Sys2Proof.Machine.execBitRor d a b s
  | .bitClz d a => Sys2Proof.Machine.execBitClz d a s
  | .bitCtz d a => Sys2Proof.Machine.execBitCtz d a s
  | .bitPopc d a => Sys2Proof.Machine.execBitPopc d a s
  | .bitBswap d a => Sys2Proof.Machine.execBitBswap d a s
  | .bitExtu d a b => Sys2Proof.Machine.execBitExtu d a b s
  | .bitExts d a b => Sys2Proof.Machine.execBitExts d a b s
  | .bitIns d a b => Sys2Proof.Machine.execBitIns d a b s
  | .br c x o => Sys2Proof.Machine.execBr c x o s
  | .call c x o => Sys2Proof.Machine.execCall c x o s
  | .jmpJr a => Sys2Proof.Machine.execJmpJr a s
  | .jmpJalr d a => Sys2Proof.Machine.execJmpJalr d a s
  | .rep n d a b => Sys2Proof.Machine.execRep n d a b s
  | .capMov d k => Sys2Proof.Machine.execCapMov d k s
  | .capNull d => Sys2Proof.Machine.execCapNull d s
  | .capBase d k a => Sys2Proof.Machine.execCapBase d k a s
  | .capLen d k a => Sys2Proof.Machine.execCapLen d k a s
  | .capAnd d k r => Sys2Proof.Machine.execCapAnd d k r s
  | .capTest c k a r => Sys2Proof.Machine.execCapTest c k a r s
  | .capGbase k a => Sys2Proof.Machine.execCapGbase k a s
  | .capGlimit k a => Sys2Proof.Machine.execCapGlimit k a s
  | .capGmeta k a => Sys2Proof.Machine.execCapGmeta k a s
  | .capLd d k a => Sys2Proof.Machine.execCapLd d k a s
  | .capSt d k a => Sys2Proof.Machine.execCapSt d k a s
  | .stepBegin a => Sys2Proof.Machine.execStepBegin a s
  | .stepNext c => Sys2Proof.Machine.execStepNext c s
  | .stepDone a => Sys2Proof.Machine.execStepDone a s
  | .stepSig a b => Sys2Proof.Machine.execStepSig a b s
  | .stepRcv d => Sys2Proof.Machine.execStepRcv d s
  | .sysRd d x => Sys2Proof.Machine.execSysRd d x s
  | .sysWr d x => Sys2Proof.Machine.execSysWr d x s
  | .memLdH d a k f o => Sys2Proof.Machine.execMemLdH d a k f o s
  | .memLdHs d a k f o => Sys2Proof.Machine.execMemLdHs d a k f o s
  | .memLdW d a k f o => Sys2Proof.Machine.execMemLdW d a k f o s
  | .memLdWs d a k f o => Sys2Proof.Machine.execMemLdWs d a k f o s
  | .memLdD d a k f o => Sys2Proof.Machine.execMemLdD d a k f o s
  | .memLdQ d a k f o => Sys2Proof.Machine.execMemLdQ d a k f o s
  | .memStH d a k f o => Sys2Proof.Machine.execMemStH d a k f o s
  | .memStW d a k f o => Sys2Proof.Machine.execMemStW d a k f o s
  | .memStD d a k f o => Sys2Proof.Machine.execMemStD d a k f o s
  | .memStQ d a k f o => Sys2Proof.Machine.execMemStQ d a k f o s
  | .rmemLdH d a k f o => Sys2Proof.Machine.execRmemLdH d a k f o s
  | .rmemLdHs d a k f o => Sys2Proof.Machine.execRmemLdHs d a k f o s
  | .rmemLdW d a k f o => Sys2Proof.Machine.execRmemLdW d a k f o s
  | .rmemLdWs d a k f o => Sys2Proof.Machine.execRmemLdWs d a k f o s
  | .rmemLdD d a k f o => Sys2Proof.Machine.execRmemLdD d a k f o s
  | .rmemLdQ d a k f o => Sys2Proof.Machine.execRmemLdQ d a k f o s
  | .rmemStH d a k f o => Sys2Proof.Machine.execRmemStH d a k f o s
  | .rmemStW d a k f o => Sys2Proof.Machine.execRmemStW d a k f o s
  | .rmemStD d a k f o => Sys2Proof.Machine.execRmemStD d a k f o s
  | .rmemStQ d a k f o => Sys2Proof.Machine.execRmemStQ d a k f o s
  | .amoAdd d a k f o => Sys2Proof.Machine.execAmoAdd d a k f o s
  | .amoMin d a k f o => Sys2Proof.Machine.execAmoMin d a k f o s
  | .amoMax d a k f o => Sys2Proof.Machine.execAmoMax d a k f o s
  | .amoAmax d a k f o => Sys2Proof.Machine.execAmoAmax d a k f o s
  | .amoAmaxr d a k f o => Sys2Proof.Machine.execAmoAmaxr d a k f o s
  | .amoFaddW d a k f o => Sys2Proof.Machine.execAmoFaddW d a k f o s
  | .amoFaddH d a k f o => Sys2Proof.Machine.execAmoFaddH d a k f o s
  | .amoAnd d a k f o => Sys2Proof.Machine.execAmoAnd d a k f o s
  | .amoOr d a k f o => Sys2Proof.Machine.execAmoOr d a k f o s
  | .amoXchg d a k f o => Sys2Proof.Machine.execAmoXchg d a k f o s
  | .amoCas d a k f o => Sys2Proof.Machine.execAmoCas d a k f o s
  | .amoAddPosted d a k f o => Sys2Proof.Machine.execAmoAddPosted d a k f o s
  | .amoMinPosted d a k f o => Sys2Proof.Machine.execAmoMinPosted d a k f o s
  | .amoMaxPosted d a k f o => Sys2Proof.Machine.execAmoMaxPosted d a k f o s
  | .amoAmaxPosted d a k f o => Sys2Proof.Machine.execAmoAmaxPosted d a k f o s
  | .amoFaddWPosted d a k f o => Sys2Proof.Machine.execAmoFaddWPosted d a k f o s
  | .amoFaddHPosted d a k f o => Sys2Proof.Machine.execAmoFaddHPosted d a k f o s
  | .amoAndPosted d a k f o => Sys2Proof.Machine.execAmoAndPosted d a k f o s
  | .amoOrPosted d a k f o => Sys2Proof.Machine.execAmoOrPosted d a k f o s
  | .syncPhbar a b => Sys2Proof.Machine.execSyncPhbar a b s
  | .syncSparge a => Sys2Proof.Machine.execSyncSparge a s
  | .strmDld dsc a => Sys2Proof.Machine.execStrmDld dsc a s
  | .strmBind dsc ch a die row col port => Sys2Proof.Machine.execStrmBind dsc ch a die row col port s
  | .strmPbar die row col port => Sys2Proof.Machine.execStrmPbar die row col port s
  | .strmDinv dsc => Sys2Proof.Machine.execStrmDinv dsc s
  | .engSteep u a => Sys2Proof.Machine.execEngSteep u a s
  | .engMtok u a => Sys2Proof.Machine.execEngMtok u a s
  | .engCopy a => Sys2Proof.Machine.execEngCopy a s
  | .engRo u a b => Sys2Proof.Machine.execEngRo u a b s
  | .engSel u a b => Sys2Proof.Machine.execEngSel u a b s
  | .engMon u a b => Sys2Proof.Machine.execEngMon u a b s
  | .engDec u a b => Sys2Proof.Machine.execEngDec u a b s
  | .rackSave a b => Sys2Proof.Machine.execRackSave a b s
  | .rackLoad d a b => Sys2Proof.Machine.execRackLoad d a b s
  | .wait l x c t => Sys2Proof.Machine.execWait l x c t s
  | .schedPitch a => Sys2Proof.Machine.execSchedPitch a s
  | .schedClaim a => Sys2Proof.Machine.execSchedClaim a s
  | .schedLevel d => Sys2Proof.Machine.execSchedLevel d s
  | .schedPerfsel a b => Sys2Proof.Machine.execSchedPerfsel a b s
  | .mgmtDrd d n => Sys2Proof.Machine.execMgmtDrd d n s
  | .mgmtDwr d n => Sys2Proof.Machine.execMgmtDwr d n s
  | .mgmtSint d => Sys2Proof.Machine.execMgmtSint d s
  | .mgmtCrypto d => Sys2Proof.Machine.execMgmtCrypto d s
  | .illegalWord w => Sys2Proof.Machine.execIllegalWord w s
  | .firing e => Sys2Proof.Machine.execFiring e s
  | .routerForward e link ch => Sys2Proof.Machine.execRouterForward e link ch s
  | .mtRouterForward e link ch => Sys2Proof.Machine.execMtRouterForward e link ch s
  | .tokenKindFault e link ch => Sys2Proof.Machine.execTokenKindFault e link ch s
  | .reconfig e link ch => Sys2Proof.Machine.execReconfig e link ch s
  | .configFetch e => Sys2Proof.Machine.execConfigFetch e s
  | .resume d => Sys2Proof.Machine.execResume d s
  | .doneToken d link ch => Sys2Proof.Machine.execDoneToken d link ch s
  | .sealToken d => Sys2Proof.Machine.execSealToken d s
  | .bindTimeout e link ch => Sys2Proof.Machine.execBindTimeout e link ch s
  | .operandStage e => Sys2Proof.Machine.execOperandStage e s
  | .admitStray e => Sys2Proof.Machine.execAdmitStray e s
  | .headVisit e => Sys2Proof.Machine.execHeadVisit e s
  | .rotationSave e => Sys2Proof.Machine.execRotationSave e s
  | .rotationLoad e => Sys2Proof.Machine.execRotationLoad e s
  | .mtReadStream e port => Sys2Proof.Machine.execMtReadStream e port s
  | .mtWriteStream e port => Sys2Proof.Machine.execMtWriteStream e port s
  | .tileRequest e link ch => Sys2Proof.Machine.execTileRequest e link ch s
  | .requestApply e bank => Sys2Proof.Machine.execRequestApply e bank s
  | .waiterServe e => Sys2Proof.Machine.execWaiterServe e s
  | .feTimeout e port => Sys2Proof.Machine.execFeTimeout e port s
  | .pageRequest d link ch => Sys2Proof.Machine.execPageRequest d link ch s
  | .portAccess d n => Sys2Proof.Machine.execPortAccess d n s
  | .portStreamElement d => Sys2Proof.Machine.execPortStreamElement d s
  | .cutEdgeTransfer d link ch => Sys2Proof.Machine.execCutEdgeTransfer d link ch s
  | .streamCommandStart e port => Sys2Proof.Machine.execStreamCommandStart e port s
  | .mnMul e => Sys2Proof.Machine.execMnMul e s
  | .mnMulacc e => Sys2Proof.Machine.execMnMulacc e s
  | .mnSwap e => Sys2Proof.Machine.execMnSwap e s
  | .mnRead e => Sys2Proof.Machine.execMnRead e s
  | .mnClear e => Sys2Proof.Machine.execMnClear e s
  | .mnDrain e => Sys2Proof.Machine.execMnDrain e s
  | .mnSetzp e => Sys2Proof.Machine.execMnSetzp e s
  | .shadowFillToken e => Sys2Proof.Machine.execShadowFillToken e s
  | .steep e => Sys2Proof.Machine.execSteep e s
  | .roInput e => Sys2Proof.Machine.execRoInput e s
  | .roOutput e => Sys2Proof.Machine.execRoOutput e s
  | .roShape e => Sys2Proof.Machine.execRoShape e s
  | .roFlush e => Sys2Proof.Machine.execRoFlush e s
  | .selKeyToken e weight => Sys2Proof.Machine.execSelKeyToken e weight s
  | .selKth e => Sys2Proof.Machine.execSelKth e s
  | .selQuant e => Sys2Proof.Machine.execSelQuant e s
  | .selWquant e => Sys2Proof.Machine.execSelWquant e s
  | .selClear e => Sys2Proof.Machine.execSelClear e s
  | .monArm e => Sys2Proof.Machine.execMonArm e s
  | .monDisarm e => Sys2Proof.Machine.execMonDisarm e s
  | .monSetref e => Sys2Proof.Machine.execMonSetref e s
  | .monSetabs e => Sys2Proof.Machine.execMonSetabs e s
  | .monSetrel e => Sys2Proof.Machine.execMonSetrel e s
  | .monClear e => Sys2Proof.Machine.execMonClear e s
  | .monRead e => Sys2Proof.Machine.execMonRead e s
  | .decRun e => Sys2Proof.Machine.execDecRun e s
  | .decBlock e => Sys2Proof.Machine.execDecBlock e s
  | .copyRun d => Sys2Proof.Machine.execCopyRun d s
  | .seqReply c src ch => Sys2Proof.Machine.execSeqReply c src ch s
  | .trapEntry c => Sys2Proof.Machine.execTrapEntry c s
  | .rbarComplete load => Sys2Proof.Machine.execRbarComplete load s
  | .phbarComplete load group => Sys2Proof.Machine.execPhbarComplete load group s
  | .spargeRelease load => Sys2Proof.Machine.execSpargeRelease load s
  | .cfgBegin d w => Sys2Proof.Machine.execCfgBegin d w s
  | .cfgAddr d w => Sys2Proof.Machine.execCfgAddr d w s
  | .cfgField d w => Sys2Proof.Machine.execCfgField d w s
  | .cfgExtend d w => Sys2Proof.Machine.execCfgExtend d w s
  | .cfgSpargeawait d w => Sys2Proof.Machine.execCfgSpargeawait d w s
  | .cfgCommit d w => Sys2Proof.Machine.execCfgCommit d w s
  | .sensorRefresh shown watts => Sys2Proof.Machine.execSensorRefresh shown watts s
  | .boostBoundary w0 w1 w2 w3 => Sys2Proof.Machine.execBoostBoundary w0 w1 w2 w3 s
  | .boardReport inlet flow medium => Sys2Proof.Machine.execBoardReport inlet flow medium s
  | .districtRetired d => Sys2Proof.Machine.execDistrictRetired d s
  | .loadcmd w => Sys2Proof.Machine.execLoadcmd w s
  | .trigger bank whole w => Sys2Proof.Machine.execTrigger bank whole w s
  | .launch n => Sys2Proof.Machine.execLaunch n s
  | .caskSave load => Sys2Proof.Machine.execCaskSave load s
  | .caskRestore load => Sys2Proof.Machine.execCaskRestore load s
  | .pagerResolve fsn => Sys2Proof.Machine.execPagerResolve fsn s
  | .reclaimRetry fsn => Sys2Proof.Machine.execReclaimRetry fsn s
  | .pageExhausted fsn => Sys2Proof.Machine.execPageExhausted fsn s
  | .huskSeal soft => Sys2Proof.Machine.execHuskSeal soft s
  | .replyLateDrop d => Sys2Proof.Machine.execReplyLateDrop d s
  | .hostAccess addr size wr => Sys2Proof.Machine.execHostAccess addr size wr s
  | .registerWrite bar off v => Sys2Proof.Machine.execRegisterWrite bar off v s
  | .supplyRampEnd load => Sys2Proof.Machine.execSupplyRampEnd load s
  | .alertstWrite v => Sys2Proof.Machine.execAlertstWrite v s
  | .alertenWrite v => Sys2Proof.Machine.execAlertenWrite v s
  | .goready v => Sys2Proof.Machine.execGoready v s
  | .limtabWrite key v => Sys2Proof.Machine.execLimtabWrite key v s
  | .retire v => Sys2Proof.Machine.execRetire v s
  | .attestreq v => Sys2Proof.Machine.execAttestreq v s
  | .unload v => Sys2Proof.Machine.execUnload v s
  | .dependenceValidSet n v => Sys2Proof.Machine.execDependenceValidSet n v s
  | .dependenceValidClear n v => Sys2Proof.Machine.execDependenceValidClear n v s
  | .batchCommit n v => Sys2Proof.Machine.execBatchCommit n v s
  | .bankcfgWrite bank v => Sys2Proof.Machine.execBankcfgWrite bank v s
  | .partwsWrite p v => Sys2Proof.Machine.execPartwsWrite p v s
  | .gangstatWrite v => Sys2Proof.Machine.execGangstatWrite v s
  | .bindcmd v => Sys2Proof.Machine.execBindcmd v s
  | .doorbell v => Sys2Proof.Machine.execDoorbell v s
  | .dbstWrite v => Sys2Proof.Machine.execDbstWrite v s
  | .tlbinv v => Sys2Proof.Machine.execTlbinv v s
  | .pgresolve v => Sys2Proof.Machine.execPgresolve v s
  | .fppush v => Sys2Proof.Machine.execFppush v s
  | .migrationStart v => Sys2Proof.Machine.execMigrationStart v s
  | .perfsel v => Sys2Proof.Machine.execPerfsel v s
  | .ctrq v => Sys2Proof.Machine.execCtrq v s
  | .cpcap v => Sys2Proof.Machine.execCpcap v s
  | .replthWrite v => Sys2Proof.Machine.execReplthWrite v s
  | .jmpRet => Sys2Proof.Machine.execJmpRet s
  | .stepEnd => Sys2Proof.Machine.execStepEnd s
  | .sysTret => Sys2Proof.Machine.execSysTret s
  | .sysHalt => Sys2Proof.Machine.execSysHalt s
  | .sysIdle => Sys2Proof.Machine.execSysIdle s
  | .syncFenceElem => Sys2Proof.Machine.execSyncFenceElem s
  | .syncFenceRegion => Sys2Proof.Machine.execSyncFenceRegion s
  | .syncFenceDie => Sys2Proof.Machine.execSyncFenceDie s
  | .syncFenceModule => Sys2Proof.Machine.execSyncFenceModule s
  | .syncFenceSystem => Sys2Proof.Machine.execSyncFenceSystem s
  | .syncRbar => Sys2Proof.Machine.execSyncRbar s
  | .fetchRange => Sys2Proof.Machine.execFetchRange s
  | .powerInterval => Sys2Proof.Machine.execPowerInterval s
  | .wsRefreshPeriod => Sys2Proof.Machine.execWsRefreshPeriod s
  | .coolantStale => Sys2Proof.Machine.execCoolantStale s
  | .coldReset => Sys2Proof.Machine.execColdReset s
  | .cryptoHash => Sys2Proof.Machine.execCryptoHash s
  | .cryptoVerify => Sys2Proof.Machine.execCryptoVerify s
  | .cryptoSign => Sys2Proof.Machine.execCryptoSign s
  | .cryptoExtend => Sys2Proof.Machine.execCryptoExtend s
  | .cryptoIdekey => Sys2Proof.Machine.execCryptoIdekey s
  | .loadComplete => Sys2Proof.Machine.execLoadComplete s
  | .scheduleTrigger => Sys2Proof.Machine.execScheduleTrigger s
  | .priorityTokenRefill => Sys2Proof.Machine.execPriorityTokenRefill s
  | .gangHalt => Sys2Proof.Machine.execGangHalt s
  | .gangInstant => Sys2Proof.Machine.execGangInstant s
  | .tlbinvComplete => Sys2Proof.Machine.execTlbinvComplete s
  | .migrationCopyDone => Sys2Proof.Machine.execMigrationCopyDone s
  | .perfselApply => Sys2Proof.Machine.execPerfselApply s
  | .ctrqLatch => Sys2Proof.Machine.execCtrqLatch s
  | .tracePcSample => Sys2Proof.Machine.execTracePcSample s
  | .sysfault => Sys2Proof.Machine.execSysfault s

end Sys2Proof.Machine
end

