-- ==== Sys2Proof/Machine/Step.lean ====
section
/-! DEFINITION. One step of the machine: the next entry of the agenda, or the acting core. -/

namespace Sys2Proof.Machine

/-- The acting core's turn: what comes before issue, a wait for a register, or the next instruction. -/
def coreStep (s : State) : Host.Outcome State Fault Refusal :=
  match s.before with
  | some t => .next t
  | none =>
    match s.issues with
    | none => .next s
    | some i => exec i s

/-- The boundary that comes next: of those at one instant a boost interval begins first, then a token interval (19 R360),
then the refresh period of the weight stores (04 R101). The die groups' power at a boost boundary is a free value (log
137). -/
def State.boundary (s : State) : Instr :=
  let w (g : Nat) : BitVec 16 := Config.groupPower s.tick g
  if s.nextBoost ≤ min s.nextPower s.nextHot then .boostBoundary (w 0) (w 1) (w 2) (w 3)
  else if s.nextPower ≤ s.nextHot then .powerInterval
  else .wsRefreshPeriod

/-- The event is the boundary that comes next, whatever power it shows. -/
def State.isBoundary (s : State) (i : Instr) : Bool :=
  match i, s.boundary with
  | .boostBoundary _ _ _ _, .boostBoundary _ _ _ _ => true
  | .powerInterval, .powerInterval => true
  | .wsRefreshPeriod, .wsRefreshPeriod => true
  | _, _ => false

/-- The next interval begins by itself. Time up to the boundary counts where handlers wait for power tokens (22 R378). -/
def boundaryStep (s : State) : Host.Outcome State Fault Refusal :=
  match exec s.boundary s with
  | .next u => .next (u.starvedSince s)
  | o => o

/-- An event of the device acts; one that stands at or after the next boundary waits for that to come first, and stays in
the agenda (20 R368). Time that it lets pass counts where handlers wait for power tokens (22 R378). -/
def eventStep (i : Instr) (rest : List Turn) (s : State) : Host.Outcome State Fault Refusal :=
  let t := { s with agenda := rest }
  match exec i t with
  | .next u =>
    if s.nextBoundary ≤ u.timebase ∧ s.isBoundary i = false ∧ s.timebase < u.timebase then boundaryStep s
    else .next (u.starvedSince t)
  | o => o

/-- One step: time moves on, then the first entry of the agenda acts (a core, or an event of the device or of the world
around it), or the core that acted last where the agenda is empty (log 3). Where TIMEBASE stands just before a boundary, or
at it, the interval begins in the step's place (20 R368). -/
def step (s : State) : Host.Outcome State Fault Refusal :=
  let t := s.clocked.starvedSince s
  let due := decide (s.nextBoundary ≤ s.timebase + 1)
  let begins := boundaryStep { s with tick := s.tick + 1 }
  match s.agenda with
  | .event i :: rest => if due && !s.isBoundary i then begins else eventStep i rest t
  | .core c :: rest => if due then begins else coreStep { t with core := c, agenda := rest }
  | [] => if due then begins else coreStep t

/-- s with an instruction's words stored where the next step fetches: at PC of the management core for a management word,
else at PC of a launched region's SEQ, ready to issue, with an empty agenda and no interval about to begin (log 4). -/
def State.withFetchWord (s : State) (_nbits w : Nat) : State :=
  let c := s.probeCore w
  { (s.probed c).placed c (leBytes 8 w) with
    core := c, agenda := []
    nextPower := max s.nextPower (s.timebase + 1000), nextBoost := max s.nextBoost (s.timebase + 1000)
    nextHot := max s.nextHot (s.timebase + 1000) }

end Sys2Proof.Machine
end

