-- ==== Sys2Proof/Machine/BarRead.lean ====
section
/-! DEFINITION. What the host reads: the registers of the BARs and scheduler memory (16 R305; the register tables of 16, 17,
19 and 22). A read changes nothing, so it is a function of the state. -/

namespace Sys2Proof.Machine

/-- Fields of a register: the value and the lowest bit of each. -/
def regWord (fs : List (Nat × Nat)) : BitVec 64 := BitVec.ofNat 64 (fs.map fun (v, lo) => v * 2 ^ lo).sum

/-- A condition as a one-bit field. -/
def bit (b : Bool) : Nat := if b then 1 else 0

/-- PARTWS of a partition, and PARTCTL (16 R317, Table D-9). -/
def Partition.ctl (p : Partition) : BitVec 64 :=
  regWord [(p.bindto.toNat, 32), (p.tokens.toNat, 24), (p.tokMax.toNat, 16), (p.tokRate.toNat, 8)]

/-- PROGRESS of a bank: while its partition is switched out, the COUNT committed before (16 R310, Table D-6). -/
def Bank.progressWord (k : Bank) : BitVec 64 :=
  regWord [((if k.suspended then k.frozen else k.progress).toNat, 0), (bit k.suspended, 32)]

/-- BANKSTAT of a bank (16 Table D-6). -/
def Bank.stat (k : Bank) : BitVec 64 := regWord [(k.lastErr.toNat, 8), (k.dropped.toNat, 16), (k.failed.toNat, 32)]

/-- A gang register (16 R321, Table D-10); a write that waits for its instant does not show. -/
def Gang.read (g : Gang) (off : Nat) : BitVec 64 :=
  match off with
  | 0x3000 => g.epoch
  | 0x3008 => g.n.setWidth 64
  | 0x3010 => regWord [(bit (g.n != 0), 0), (bit g.raised, 1), (bit g.skipped, 2), (g.index.toNat, 8)]
  | _ => if 0x3100 ≤ off ∧ off < 0x3300 then tgetD ((off - 0x3100) / 8) g.ent else 0

/-- A scheduler register (16 R306, R307, R311, R318, R324, R325); the write-only ones read zero. -/
def HostRegs.read (h : HostRegs) (off : Nat) : BitVec 64 :=
  match off with
  | 0x4000 => h.drainth.setWidth 64
  | 0x4080 => regWord [(bit h.loadBusy, 0), (bit h.cmdIgn, 1)]
  | 0x4088 => h.deperr.setWidth 64
  | 0x4098 => h.bindst.setWidth 64
  | 0x40A8 => regWord [(bit h.dbErr, 0)]
  | 0x40B8 => h.unloadSt.setWidth 64
  | _ => 0

/-- A paging, notification or migration register from 0x5200 on (17 Table D-14); the write-only ones read zero. -/
def Paging.read (p : Paging) (off : Nat) : BitVec 64 :=
  match off with
  | 0x5200 => p.hotth.setWidth 64
  | 0x5208 => p.deadline.setWidth 64
  | 0x5210 => p.fpcfg
  | 0x5220 => p.fpcount.setWidth 64
  | 0x5230 => p.nqbase
  | 0x5238 => p.nqctl
  | 0x5240 => p.nqhead.setWidth 64
  | 0x5248 => p.nqtail.setWidth 64
  | 0x5250 => p.nqlost.setWidth 64
  | 0x5258 => p.latedrop.setWidth 64
  | 0x5268 => regWord [(bit p.tlbinv.isSome, 0)]
  | 0x5270 => p.mig.src
  | 0x5280 => regWord [(p.mig.state.toNat, 0), (p.mig.err.toNat, 8)]
  | _ => 0

/-- MODHEALTH (22 Table F-2). -/
def State.modhealth (s : State) : BitVec 64 :=
  regWord [(s.capacity, 0), (639 - s.capacity, 16), (s.fleet.replth.toNat, 32), (bit s.fleet.sysfault, 62),
    (bit s.fleet.replace, 63)]

/-- RETMAP[i]: bit j is RETIRED of district 64 i + j (22 R377). -/
def State.retmap (s : State) (i : Nat) : BitVec 64 :=
  regWord ((List.range 64).map fun j => (bit (s.distReg (64 * i + j)).retired, j))

/-- A register of fleet operation, counters, capture and traces (22 R377, R380-R382). -/
def State.fleetRead (s : State) (off : Nat) : BitVec 64 :=
  let f := s.fleet
  match off with
  | 0x8400 => s.modhealth
  | 0x8490 => f.ctrres
  | 0x8498 => regWord [(bit f.ctrq.isSome, 0), (f.ctrerr.toNat, 8), (f.ctrn.toNat, 16)]
  | 0x84A0 => f.cpcap
  | 0x84A8 => regWord [(f.cpst.toNat, 0), (f.cpn.toNat, 8)]
  | 0x84B0 => f.trcctl
  | 0x84B8 => f.trchead.setWidth 64
  | 0x84C0 => f.trctail.setWidth 64
  | 0x84C8 => f.trclost.setWidth 64
  | 0x84D0 => f.trcsamp.setWidth 64
  | _ => if 0x8410 ≤ off ∧ off < 0x8460 then s.retmap ((off - 0x8410) / 8) else 0

/-- A register of BAR 0 as it reads; an offset that no table assigns reads zero. -/
def State.bar0Read (s : State) (off : Nat) : BitVec 64 :=
  if 0x1000 ≤ off ∧ off < 0x1200 then (tgetD ((off - 0x1000) / 8) s.banks).cfg
  else if 0x2000 ≤ off ∧ off < 0x2400 then
    let p := tgetD ((off - 0x2000) / 16) s.parts
    if off % 16 = 0 then p.ws else p.ctl
  else if 0x3000 ≤ off ∧ off < 0x4000 then s.gang.read off
  else if 0x4000 ≤ off ∧ off < 0x5000 then s.hostif.read off
  else if 0x5000 ≤ off ∧ off < 0x5200 then (tgetD ((off - 0x5000) / 8) s.parts).otcfg
  else if 0x5200 ≤ off ∧ off < 0x6000 then s.paging.read off
  else if off = 0x6008 then s.boot.attReq
  else if off = 0x6010 then s.boot.attSt.setWidth 64
  else if 0x7000 ≤ off ∧ off < 0x8400 then (s.distReg ((off - 0x7000) / 8)).mirror
  else if 0x8400 ≤ off then s.fleetRead off
  else 0

/-- A register of a bank page (16 Table D-6). -/
def State.bankRead (s : State) (off : Nat) : BitVec 64 :=
  let k := tgetD (off / 4096) s.banks
  if 0x40000 ≤ off then 0
  else match off % 4096 with
    | 0x40 => k.tail.setWidth 64
    | 0x48 => k.progressWord
    | 0x50 => k.stat
    | _ => 0

/-- What a host read of so many bytes at an offset of a BAR returns (R305): zero for a width other than 8 or a misaligned
offset. While the ROM runs, BOOTST alone answers (19 R362); what does not answer reads zero, and so do the registers whose
tables name no read: PERFSEL and CTRQ (DESIGN CHOICE, log 85). -/
def State.barRead (s : State) (bar off bytes : Nat) : BitVec 64 :=
  if bytes ≠ 8 ∨ off % 8 ≠ 0 then 0
  else if bar = 0 ∧ off = 0x6000 then s.boot.status
  else if s.boot.state = 1 then 0
  else if bar = 0 then s.bar0Read off
  else if bar = 2 then s.bankRead off
  else if bar = 4 ∧ off < 0xC0000 then BitVec.ofNat 64 (mgetN off 8 s.sched)
  else 0

end Sys2Proof.Machine
end

