-- ==== Sys2Proof/Safety.lean ====
section
/-! DEFINITION. The terms that statements use: a byte of any memory of the module, what an instruction leaves as it was
(its frame), and the invariants of a safe state. -/

namespace Sys2Proof.Machine

/-! ### Memory, byte by byte -/

/-- A place of the module's memories that holds one byte. -/
inductive Place where
  /-- a byte of a tile of a district (or of the management store), by its key -/
  | tile (d key : Nat)
  /-- a byte of an instruction store -/
  | istore (d a : Nat)
  /-- a byte of HBM -/
  | hbm (a : Nat)
  /-- a byte of host memory -/
  | host (a : Nat)
  /-- a byte of a weight store, by its key -/
  | ws (key : Nat)
  /-- a byte of the scheduler's tables behind BAR 4 -/
  | sched (a : Nat)
  /-- a byte of the boot flash, by its key -/
  | flash (key : Nat)
  deriving DecidableEq, Repr, Inhabited

/-- The byte at a place. -/
def State.byteAt (s : State) : Place → Byte
  | .tile d key => mget key (s.dist d).tileMem
  | .istore d a => mget a (s.dist d).istore
  | .hbm a => mget a s.hbm
  | .host a => mget a s.host
  | .ws key => mget key s.ws
  | .sched a => mget a s.sched
  | .flash key => mget key s.flash

/-- Every byte of memory reads as before. -/
def sameBytes (s t : State) : Prop := ∀ p, t.byteAt p = s.byteAt p

/-- Every byte of memory outside `n` bytes from a key of a district's tiles reads as before. -/
def sameBytesBut (s t : State) (d key n : Nat) : Prop :=
  ∀ p, (∀ k, key ≤ k → k < key + n → p ≠ .tile d k) → t.byteAt p = s.byteAt p

/-! ### Frames -/

/-- Nothing but one district has changed: every other district and every other part of the module is as it was. -/
def onlyDist (d : Nat) (s t : State) : Prop :=
  { t with districts := s.districts } = s ∧ ∀ c, c ≠ d → t.dist c = s.dist c

/-- Nothing but the core of one district has changed; every byte of memory reads as before. -/
def onlyCore (c : Nat) (s t : State) : Prop :=
  onlyDist c s t ∧ { t.dist c with core := s.coreOf c } = s.dist c ∧ sameBytes s t

/-- General register `d` took `v`, unless it is g0, whose writes are discarded; every other one is as it was. -/
def wroteG (x y : Core) (d : BitVec 5) (v : Word) : Prop := ∀ i, y.rdG i = if i = d ∧ d ≠ 0 then v else x.rdG i

/-- Condition bit `c` took `v`, unless it is c0, whose writes are discarded; every other one is as it was. -/
def wroteC (x y : Core) (c : BitVec 3) (v : Bool) : Prop := ∀ i, y.rdC i = if i = c ∧ c ≠ 0 then v else x.rdC i

/-- Capability register `k` took `v`; every other one is as it was. -/
def wroteK (x y : Core) (k : BitVec 4) (v : Cap) : Prop := ∀ i, y.rdK i = if i = k then v else x.rdK i

/-- A core moved `n` words on. Where the next instruction would lie beyond the store, PC stays, and the fetch beyond the
store is still to trap (06 R120, log 9). -/
def movedOn (x y : Core) (n : Nat) : Prop :=
  let next := x.pc + BitVec.ofNat 64 (4 * n)
  if next.toNat < storeTop then y.pc = next ∧ y.past = x.past else y.pc = x.pc ∧ y.past = true

/-- Everything of a core but its general registers, condition bits, capability registers, FLAGS and where it stands is as it
was. `noInt`, the model's own note that a wait has begun that no interrupt breaks, is clear. -/
def sameRest (x y : Core) : Prop :=
  { y with g := x.g, c := x.c, k := x.k, flags := x.flags, pc := x.pc, past := x.past } = { x with noInt := false }

/-- The acting core wrote general register `d` and moved `n` words on; FLAGS took the conditions `fl` beside what they held.
Nothing else changed. -/
def writesG (s t : State) (d : BitVec 5) (v : Word) (n : Nat) (fl : Conds := 0) : Prop :=
  onlyCore s.core s t ∧ wroteG s.cr t.cr d v ∧ movedOn s.cr t.cr n ∧
    t.cr.flags = s.cr.flags ||| fl ∧ t.cr.c = s.cr.c ∧ t.cr.k = s.cr.k ∧ sameRest s.cr t.cr

/-- The acting core wrote condition bit `c` and moved one word on. Nothing else changed but what `fl` adds to FLAGS. -/
def writesC (s t : State) (c : BitVec 3) (v : Bool) (fl : Conds := 0) : Prop :=
  onlyCore s.core s t ∧ wroteC s.cr t.cr c v ∧ movedOn s.cr t.cr 1 ∧
    t.cr.flags = s.cr.flags ||| fl ∧ t.cr.g = s.cr.g ∧ t.cr.k = s.cr.k ∧ sameRest s.cr t.cr

/-- The acting core wrote capability register `k` and moved one word on. Nothing else changed. -/
def writesK (s t : State) (k : BitVec 4) (v : Cap) : Prop :=
  onlyCore s.core s t ∧ wroteK s.cr t.cr k v ∧ movedOn s.cr t.cr 1 ∧
    t.cr.flags = s.cr.flags ∧ t.cr.g = s.cr.g ∧ t.cr.c = s.cr.c ∧ sameRest s.cr t.cr

/-- The acting core moved one word on, and nothing else changed. -/
def movesOn (s t : State) : Prop :=
  onlyCore s.core s t ∧ movedOn s.cr t.cr 1 ∧ t.cr = { s.cr with pc := t.cr.pc, past := t.cr.past, noInt := t.cr.noInt }

/-- The acting core moved PC, and nothing else changed. -/
def movesPc (s t : State) (pc : Word) : Prop :=
  onlyCore s.core s t ∧ t.cr = { s.cr with pc := pc, noInt := t.cr.noInt }

/-- The acting core waits: nothing changed, so that it executes the same instruction again. -/
def waits (s t : State) : Prop := t = s

/-! ### Invariants -/

/-- A district's memories are in their canonical form. -/
def District.memoriesWf (x : District) : Bool := Memory.wf x.tileMem && Memory.wf x.istore

/-- Every memory of the module is in its canonical form: addresses strictly rising, no zero listed. -/
def State.memoriesWf (s : State) : Bool :=
  Memory.wf s.hbm && Memory.wf s.host && Memory.wf s.ws && Memory.wf s.sched && Memory.wf s.flash &&
    s.districts.all fun p => p.2.memoriesWf

/-- PC of a core, and what PC can be taken from, is a word address of the instruction store (06 R120): PC itself, and
TRAPPC. -/
def Core.pcOk (x : Core) : Bool :=
  decide (x.pc.toNat % 4 = 0 ∧ x.pc.toNat < storeTop ∧ x.trappc.toNat % 4 = 0 ∧ x.trappc.toNat < storeTop)

/-- PC of every core is a word address of its instruction store. -/
def State.pcsOk (s : State) : Bool := s.districts.all fun p => p.2.core.pcOk

end Sys2Proof.Machine
end

