-- ==== Sys2Proof/Certificates/Slice0/Obligations.lean ====
section
/-! DEFINITION. The statements of the model: what the rules of the spec say of instructions, traps and device steps, as
propositions over the machine. -/

namespace Sys2Proof.Spec

open Sys2Proof.Machine

/-- The instruction ends in a next state of which `P` holds. -/
def runsTo (s : State) (i : Instr) (P : State → Prop) : Prop := ∃ t, exec i s = .next t ∧ P t

/-- The words of a major opcode whose func value, bits [hi:lo], is in none of the listed places are refused. -/
def onlyFuncs (op : BitVec 7) (hi lo : Nat) (assigned : List Nat) : Prop :=
  ∀ (w : W32) (v : Option W32), fld w 31 25 = op → (fld w hi lo).toNat ∉ assigned →
    decodeWords w v ≠ .error .short → decodeWords w v = .error (.badWord w)

/-- The first word, and the second where there is one, are those of that instruction. -/
def means (w : W32) (v : Option W32) (i : Instr) : Prop := decodeWords w v = .ok i

/-- The word traps: the next state is the one that a synchronous trap of that cause and sub-code leaves, with `x` the offset
of the access (08 R194 to R197; `TrapEntryWritesTheFrame` and `DoubleTrapHalts` say what that is). -/
def traps (s : State) (i : Instr) (cause : BitVec 8) (sub : BitVec 8 := 0) (x : Word := 0) : Prop :=
  exec i s = .next (syncTrap s cause sub x)

/-- The acting core wrote a link to a general register and jumped. Nothing else changed. -/
def linksAndJumps (s t : State) (d : BitVec 5) (pc : Word) : Prop :=
  onlyCore s.core s t ∧ wroteG s.cr t.cr d (s.cr.pc + 4) ∧ t.cr = { s.cr with g := t.cr.g, pc := pc }

/-- Every other district is as it was. -/
def otherDists (d : Nat) (s t : State) : Prop := ∀ c, c ≠ d → t.dist c = s.dist c

/-- The acting core is that of a district, not the management core. -/
def onDistrict (s : State) : Prop := s.core ≠ 1023

/-- The trace ring is off, so that an instruction leaves no record in host memory (22 R382). -/
def untraced (s : State) : Prop := s.fleet.trcctl.getLsbD 0 = false

/-- The cause of the first check of 04 R104 that fails for `n` bytes at offset `o`: form, rights, bounds. -/
def capCause (k : Cap) (o n : Nat) (need : BitVec 8) : Option (BitVec 8) :=
  if ¬ (k.extractLsb' 112 16 = 0 ∧ (k.extractLsb' 32 40).toNat ≤ (k.extractLsb' 72 40).toNat ∧ k.extractLsb' 0 24 ≠ 0) then
    some 0x04
  else if k.extractLsb' 24 8 &&& need ≠ need then some 0x05
  else if ¬ ((k.extractLsb' 32 40).toNat ≤ o ∧ o + n ≤ (k.extractLsb' 72 40).toNat) then some 0x06
  else none

/-- Whether a capability names the tile space of its region. -/
abbrev namesTiles (k : Cap) : Prop := k.extractLsb' 0 24 = 0xFFFFFF

/-- A tile address lies in the acting SEQ's own district: 250 tiles of 2^19 bytes a district (04 R97). -/
def inOwnDistrict (s : State) (o : Nat) : Prop :=
  s.core = 1023 ∨ ∃ r, s.regionAt s.core = some r ∧ o / 2 ^ 19 % 2 ^ 18 / 250 = r.districts.idxOf s.core

/-- What an unfinished memory instruction captured when it issued (08 Table K-95). -/
def captured (o : MemOp) : Nat × W32 × W32 × Word × Word × Word × Cap × W32 × Option (BitVec 4) :=
  (o.id, o.pc, o.word, o.addr, o.data0, o.data1, o.cap, o.eecsn, o.dld)

/-- A memory instruction has issued: it stands last among the unfinished ones with what it captured, its counter is one
higher, and PC is `n` words on. Registers, FLAGS, every other core and every byte of memory are as before. The counter
clause is for an issue queue that holds nothing else unsent. -/
def issuedMem (s t : State) (w : W32) (cls : OpClass) (o d0 d1 : Word) (k : Cap) (n : Nat) (dld : Option (BitVec 4)) : Prop :=
  let x := s.cr
  let y := t.cr
  movedOn x y n ∧ y.g = x.g ∧ y.c = x.c ∧ y.k = x.k ∧ y.d = x.d ∧ y.flags = x.flags ∧
  y.ecsn = x.ecsn ∧ y.trapcause = x.trapcause ∧ y.trappc = x.trappc ∧ sameBytes s t ∧
  (∀ c, c ≠ s.core → t.coreOf c = s.coreOf c) ∧
  y.ops.map captured = x.ops.map captured ++ [(x.opId, x.here, w, o, d0, d1, k, x.ecsn, dld)] ∧
  ((∀ p ∈ x.ops, p.status ≠ .queued) → y.count cls = x.count cls + 1 ∧ ∀ e, e ≠ cls → y.count e = x.count e)

/-- There is room for one more memory instruction of a class (08 R170). -/
def roomFor (s : State) (cls : OpClass) : Prop := s.cr.count cls < 62 ∧ s.cr.ops.length < 64

/-- The access has somewhere to go: a tile of the region, or a PORT (the management core has none). -/
def reaches (s : State) (k : Cap) (o : Word) : Prop :=
  (namesTiles k → (s.tileAddr s.core o.toNat).isSome = true) ∧ (¬ namesTiles k → s.core ≠ 1023)

/-- The engine or stream command of the acting SEQ goes ahead: every earlier memory instruction is finished (08 R188) and
its counter is below its limit (08 R170). -/
def free (s : State) (cls : OpClass) : Prop := (∀ o ∈ s.cr.ops, o.status = .errored) ∧ s.cr.count cls < 62

/-- The acting SEQ issued a command: ECSN and the counter are one higher and PC is `n` words on; nothing else of it, no byte
of memory, and nothing of the module but its districts and the note of the command in its region has changed. -/
def commanded (s t : State) (cls : OpClass) (n : Nat) : Prop :=
  t.cr = { s.cr.setCount cls (s.cr.count cls + 1) with ecsn := s.cr.ecsn + 1 }.advance n ∧
  { t with districts := s.districts, regions := s.regions } = s ∧ sameBytes s t

/-- A command as its engine's queue holds it: bound to the region plane, in the name of the SEQ, its PC and its new ECSN. -/
def asQueued (s : State) (c : EngCmd) : EngCmd :=
  { c with core := s.core, pc := s.cr.here, ecsn := s.cr.ecsn + 1, plane := s.planeAt s.core, arr := s.tick, ns := s.timebase }

/-- The region of a LOADID is one whose SEQs and elements act: an instance runs, started, not at V0 and not halted for a
save. -/
def active (s : State) (load : BitVec 32) (r : Region) : Prop := s.regionOf load = some r ∧ r.fires = true ∧ r.districts.Nodup

/-- The skid buffer of a link and channel of an element, head first. -/
def bufAt (s : State) (e link ch : Nat) : List Held := (s.dist (e / 520)).buf (e % 520) link ch

/-- A token stands at the head of a link's channel of an element, with `rest` behind it. -/
def atHead (s : State) (e link ch : Nat) (h : Held) (rest : List Held) : Prop :=
  link < 4 ∧ ch < 32 ∧ h.tok.channel.toNat = ch ∧ bufAt s e link ch = h :: rest

/-- An element that had nothing to emit has formed one token for a link: it has arrived at the next router where that had
room, behind what stood there, and waits at the element where it had not (01 R18). -/
def emits (s t : State) (e link : Nat) (k : Token) : Prop :=
  ∀ n, s.outOf e = [] → link < 4 → neighbour e link = some n →
    (s.room e link k.channel.toNat = true → t.outOf e = [] ∧
      bufAt t n ((link + 2) % 4) k.channel.toNat =
        bufAt s n ((link + 2) % 4) k.channel.toNat ++ [{ arr := s.tick, ns := s.timebase, tok := k }]) ∧
    (s.room e link k.channel.toNat = false → t.outOf e = [(link, k)])

/-- A fault of the fabric is recorded for containment, at the element and in the plane of the channel (17 R341). -/
def recorded (s t : State) (code : BitVec 8) (e ch : Nat) : Prop :=
  t.husks = s.husks ++ [{ code := code, region := false, elem := e, plane := (s.dist (e / 520)).slotOf (e % 520) ch }]

/-- No core and no byte of memory has changed. -/
def fabricOnly (s t : State) : Prop := (∀ c, t.coreOf c = s.coreOf c) ∧ sameBytes s t

/-- The pipeline element of an element number. -/
def peAt (s : State) (e : Nat) : Pe := tgetD (e % 520) (s.dist (e / 520)).pes

/-- One pass of the while of 09 R223: the top two entries of a reduction stack have equal level and become their sum, one
level up. The conditions raised go along. -/
def combines (rm : RM) (u v : List (W32 × Nat) × Conds) : Prop :=
  ∃ r l k rest, u.1 = (r, k) :: (l, k) :: rest ∧
    v = (((rnd32 rm ((val32 l).add rm (val32 r))).1, k + 1) :: rest, u.2 ||| (rnd32 rm ((val32 l).add rm (val32 r))).2)

/-- `n` passes of the while lead from u to v. -/
def passes (rm : RM) : Nat → List (W32 × Nat) × Conds → List (W32 × Nat) × Conds → Prop
  | 0, u, v => u = v
  | n + 1, u, v => ∃ w, combines rm u w ∧ passes rm n w v

/-- The final collapse of R223: the value below comes in from the left. -/
def collapse (rm : RM) (top : W32 × Conds) (rest : List (W32 × Nat)) : W32 × Conds :=
  rest.foldl (fun u e => ((rnd32 rm ((val32 e.1).add rm (val32 u.1))).1, u.2 ||| (rnd32 rm ((val32 e.1).add rm (val32 u.1))).2)) top

/-- The tile of an element number. -/
def tileAt (s : State) (e : Nat) : Tile := tgetD (e % 520) (s.dist (e / 520)).tiles

/-- The key of a byte of the tile of an element number in its district's memory. -/
def tileByte (e off : Nat) : Nat := tileOrd (e % 520) * 2 ^ 19 + off

/-- Nothing waits at a tile: no request for a full/empty bit, and no stream. -/
def calm (s : State) (e : Nat) : Prop := ∀ p : Fin 5, (tileAt s e).ports[p].waiters = [] ∧ (tileAt s e).ports[p].stream.since = none

/-- A core has one completion more on its way. -/
def answersTo (s t : State) (c : Nat) (k : Completion) : Prop := (t.coreOf c).inbox = (s.coreOf c).inbox ++ [k]

/-- An element of a region that fires acts: it is not sealed, and no capture is armed (22 R381 numbers firings then). -/
def acting (s : State) (e : Nat) (r : Region) : Prop :=
  s.regionAt (e / 520) = some r ∧ r.fires = true ∧ s.isSealed e = false ∧ s.fleet.cpst ≠ 1

/-- A whole number as a word of 32 bits, and whether it had to be saturated. -/
def sat32 (v : Int) : W32 × Bool :=
  if v < -2147483648 then (0x80000000, true) else if 2147483647 < v then (0x7FFFFFFF, true) else (BitVec.ofInt 32 v, false)

/-- The sum of whole numbers. -/
def total (l : List Int) : Int := l.foldl (· + ·) 0

/-- An element that had nothing to emit has formed these tokens for a link that has no room for them: they wait there in
order. -/
def keeps (s t : State) (e link : Nat) (ks : List Token) : Prop :=
  s.outOf e = [] → (∀ k ∈ ks, s.room e link k.channel.toNat = false) → t.outOf e = ks.map fun k => (link, k)

/-- An engine command has ended with a fault of its unit: its counter falls, and ENGINE_FAULT is raised with the command's PC
and ECSN (08 R188). -/
def endsIn (s t : State) (e : Nat) (k : EngCmd) (cls : OpClass) (code : BitVec 8) : Prop :=
  answersTo s t k.core { counter := cls, cause := some { cause := 0x12, sub := code, unit := BitVec.ofNat 8 (e % 520 / 26)
                                                         epc := k.pc, eecsn := k.ecsn } }

/-- A byte address of the region of a district lies in a tile that the district's engines may access, with no waiter of its
granule to be served first (04 R88, R93, R97). -/
def tilePlace (s : State) (d : Nat) (a : Int) (dd ord off : Nat) : Prop :=
  0 ≤ a ∧ s.tileAddr d a.toNat = some (dd, ord, off) ∧ s.tileFits dd ord off 1 = true ∧
    s.areaWaking dd ord (off / 16) 1 = false

/-- A walk of bytes through tile space, one after another, without a full/empty bit. -/
def plain (q : Descriptor) : Prop := namesTiles q.cap ∧ q.fe = 0

/-- A byte of the tile memory of a district. -/
def tileByteAt (t : State) (dd ord off : Nat) : Byte := mget (ord * 2 ^ 19 + off) (t.dist dd).tileMem

/-- Where an ALERTST bit becomes set that was clear and is enabled, the management core has one INTERRUPT of SUB 3 more
pending; else it has none more (19 R361). -/
def tellsOfAlert (s t : State) (i : Nat) : Prop := (t.coreOf 1023).pending = (s.coreOf 1023).pending ++
  if s.kiln.alertst.getLsbD i = false ∧ s.kiln.alerten.getLsbD i = true then [{ cause := 0x15, sub := 3 }] else []

/-- A notification of a type has been written and VECTOR signalled, or, with the ring off or full, counted as lost (17 R339).
The bytes are claimed where no trace record could lie over them. -/
def notified (s t : State) (type part code : Nat) : Prop :=
  let p := s.paging
  let n := 2 ^ (p.nqctl.toNat / 2 ^ 32 % 16)
  let a := p.nqbase.toNat + 32 * (p.nqhead.toNat % n)
  let room := p.nqctl.getLsbD 63 = true ∧ (p.nqhead - p.nqtail).toNat ≠ n
  (room → t.paging.nqhead = p.nqhead + 1 ∧
    (s.hostif.msix ++ [BitVec.ofNat 7 (p.nqctl.toNat / 2 ^ 40 % 128)]).isPrefixOf t.hostif.msix = true ∧
    (untraced s → mgetN a 1 t.host = type ∧ mgetN (a + 1) 1 t.host = part ∧ mgetN (a + 2) 1 t.host = code)) ∧
  (¬ room → t.paging.nqhead = p.nqhead ∧ t.paging.nqlost.toNat = min (2 ^ 32 - 1) (p.nqlost.toNat + 1))

/-- Every byte of memory but host memory reads as before. -/
def sameBytesButHost (s t : State) : Prop := ∀ p, (∀ a, p ≠ .host a) → t.byteAt p = s.byteAt p

/-- No translation cache holds anything. -/
def uncached (s : State) : Prop :=
  (∀ d, (s.dist d).port.tlb = [] ∧ (s.coreOf d).tlb = []) ∧ ∀ die, tgetD die s.paging.l2 = []

/-- No PORT has logged a write or holds a read. -/
def unlogged (s : State) : Prop := ∀ d, (s.dist d).port.sideLog = [] ∧ (s.dist d).port.heldReads = []

/-- Bytes of HBM from an address on hold a value, little-endian, and the others are as in `m`. -/
def putsN (m m' : Memory) (a n v : Nat) : Prop :=
  ∀ b, mget b m' = if a ≤ b ∧ b < a + n then BitVec.ofNat 8 (v / 2 ^ (8 * (b - a))) else mget b m

/-- The faults on a page are resolved, where no PORT has logged or held anything: their records are gone, each PORT of a
data-class one is sent RESUME, and no byte has changed (17 R332, R334, R335). -/
def restarted (s t : State) (part obj page : Nat) : Prop :=
  let on (f : PageFault) : Bool := f.part.toNat == part && f.obj.toNat == obj && f.page.toNat == page
  t.paging.faults = s.paging.faults.filter (fun f => !on f) ∧ (∀ c, t.coreOf c = s.coreOf c) ∧
  ∀ d, (t.dist d).port.resumeQ = (s.dist d).port.resumeQ ++
    (s.paging.faults.filter fun f => on f && f.dataClass && f.dist == d).map (·.fsn)

/-- A page of an object of a region's partition as a PORT finds it, where no cache holds anything: object, page, and entry of
an access (17 R327 to R329). -/
def pageAt (s : State) (r : Region) (obj : BitVec 24) (off n : Nat) (rights : BitVec 8) (o : Obj) (e : Nat) : Prop :=
  s.objectOf r.part.toNat obj.toNat = some o ∧ off + n ≤ o.limit ∧ rights &&& ~~~o.ceil = 0 ∧
    e = mgetN (o.ptaddr + 8 * (off / o.pageSize)) 8 s.hbm

/-- An entry maps a page of HBM that takes writes: VALID, LOC 0, ATTR below 3, WB 0, and for a large page an aligned frame. -/
def inHbm (o : Obj) (e : Nat) : Prop :=
  e.testBit 23 = true ∧ e / 2 ^ 24 % 16 < 3 ∧ e.testBit 19 = false ∧ (o.large = true → e / 2 ^ 28 % 256 = 0)

/-- Bytes at the HBM places of some offsets of a page are `bs` in turn, and every other byte is as in `m`. -/
def putsAt (m m' : Memory) (place : Nat → Nat) (run : List Nat) (bs : List Byte) : Prop :=
  (∀ (i a : Nat) (b : Byte), run[i]? = some a → bs[i]? = some b → mget (place a) m' = b) ∧
    ∀ x, (∀ a ∈ run, x ≠ place a) → mget x m' = mget x m

/-- The HBM address of an offset of an object's page. -/
def placeOf (o : Obj) (e off : Nat) : Nat := e / 2 ^ 28 % 2 ^ 24 * 65536 + off % o.pageSize

end Sys2Proof.Spec

open Sys2Proof Sys2Proof.Machine Sys2Proof.Spec

/-- The worked encodings of 06, 07, 08 and 21. -/
def Obligations.WordsWrittenOutDecode : Prop :=
  means 0x02B2A401 none (.aluAdd 11 5 9) ∧ means 0x10507FFD none (.addi 5 0 (-3)) ∧ means 0x18528004 none (.shli 5 5 4) ∧
  means 0x0C510000 (some 0x12345678) (.liZx 5 0x12345678) ∧ means 0x04229803 none (.cmpLt 2 5 6) ∧
  means 0x06531E01 none (.fpuAdd 5 6 7 2) ∧ means 0x03040011 none (.aluOr 16 8 0) ∧
  means 0x70182080 none (.rep 3 1 1 0) ∧ means 0x40205003 none (.capBase 1 0 5) ∧
  means 0x40226004 none (.capLen 1 1 6) ∧ means 0x40220035 none (.capAnd 1 1 3) ∧
  means 0x60028001 none (.stepBegin 5) ∧ means 0x78502201 none (.sysRd 5 0x022) ∧
  means 0x58000000 none (.wait 0 0 0 0) ∧ means 0x305300E2 none (.memLdW 5 6 0 2 2) ∧
  means 0x30730289 none (.memStW 7 6 0 0 9) ∧ means 0x348301C0 none (.amoFaddW 8 6 0 0 0) ∧
  means 0x5A000010 none .syncRbar ∧ means 0x5A028020 none (.syncSparge 5) ∧
  means 0x50440080 (some 0x37737400) (.strmBind 2 4 0 3 59 155 5) ∧ means 0x53228003 none (.engCopy 5) ∧
  means 0x54952C02 none (.rackLoad 9 10 11) ∧ means 0x5C028001 none (.schedPitch 5) ∧
  means 0x78000010 none .sysTret ∧ means 0x78000020 none .sysHalt ∧ means 0x78000021 none .sysIdle ∧
  means 0x20BFFFFC none (.br 2 1 0x1FFFFC) ∧ means 0x22200003 none (.call 0 1 3) ∧
  means 0x300A0280 none (.memStW 0 20 0 0 0) ∧ means 0x309500C0 none (.memLdW 9 10 0 0 0) 

/-- Decode and encode agree (06 R120 to R124): no bit of an encoding is dropped. An instruction with words is one of the
sequencer; a step of the device has none. -/
def Obligations.EncodingsDecodeBack : Prop :=
  ∀ (i : Instr) (rest : List Byte), i.wf = true → encode i ≠ [] → decode (encodeBytes i ++ rest) = .ok (i, rest)

/-- 06 R127 with Table K-45, 19 R349, R362, 17 Table D-14, 22 R377. That the management core runs at reset is the model's
reading (log 3). -/
def Obligations.ResetAndHardWiredRegisters : Prop :=
  (let s := State.reset
   s.boot.state = 1 ∧ s.regions = [] ∧ s.paging.deadline = 1000 ∧ s.paging.nqctl.toNat / 2 ^ 32 % 16 = 4 ∧
   s.fleet.replth = 620 ∧ s.memoriesWf = true ∧ s.pcsOk = true ∧
   ∀ c, let x := s.coreOf c
     (∀ i, x.rdG i = 0) ∧ (∀ i, x.rdC i = decide (i = 0)) ∧
     (∀ k, x.rdK k = (if c = 1023 ∧ k = 0 then capMake 0x200000 0 0x3F 0xFFFFFF else 0) ∧ x.rdD k = none) ∧
     x.flags = 0 ∧ x.ecsn = 0 ∧ x.trapcause = 0 ∧ x.trappc = 0 ∧ x.trapq = 0 ∧ x.remain = 0 ∧ x.stepcfgLo = 0 ∧
     x.stepcfgHi = 0 ∧ x.step = none ∧ x.ldc = 0 ∧ x.stc = 0 ∧ x.cpc = 0 ∧ x.toc = 0 ∧ x.level1 = (c == 1023) ∧
     x.running = (c == 1023)) ∧
  ∀ (x : Core) (v : Word) (b : Bool), x.rdG 0 = 0 ∧ x.rdC 0 = true ∧ x.wrG 0 v = x ∧ x.wrC 0 b = x

/-- 07 R150 with Table K-55: the products and quotients in integers, so that what is dropped shows. -/
def Obligations.AluWritesTableK55 : Prop :=
  (∀ (s : State) (d a b : BitVec 5),
    let x := s.cr.rdG a
    let y := s.cr.rdG b
    let low : Word := BitVec.intMin 64
    let gives (i : Instr) (v : Word) := runsTo s i fun t => writesG s t d v 1
    gives (.aluAdd d a b) (BitVec.ofNat 64 (x.toNat + y.toNat)) ∧
    gives (.aluSub d a b) (BitVec.ofInt 64 (x.toNat - y.toNat)) ∧
    gives (.aluMul d a b) (BitVec.ofNat 64 (x.toNat * y.toNat)) ∧
    gives (.aluMulhs d a b) (BitVec.ofInt 64 (x.toInt * y.toInt / 2 ^ 64)) ∧
    gives (.aluMulhu d a b) (BitVec.ofNat 64 (x.toNat * y.toNat / 2 ^ 64)) ∧
    gives (.aluDivs d a b) (if y = 0 then BitVec.allOnes 64 else if x = low ∧ y = -1 then low
      else BitVec.ofInt 64 (x.toInt.tdiv y.toInt)) ∧
    gives (.aluDivu d a b) (if y = 0 then BitVec.allOnes 64 else BitVec.ofNat 64 (x.toNat / y.toNat)) ∧
    gives (.aluRems d a b) (if y = 0 then x else if x = low ∧ y = -1 then 0 else BitVec.ofInt 64 (x.toInt.tmod y.toInt)) ∧
    gives (.aluRemu d a b) (if y = 0 then x else BitVec.ofNat 64 (x.toNat % y.toNat)) ∧
    gives (.aluAnd d a b) (x &&& y) ∧ gives (.aluOr d a b) (x ||| y) ∧ gives (.aluXor d a b) (x ^^^ y) ∧
    gives (.aluAndn d a b) (x &&& ~~~y) ∧
    gives (.aluMin d a b) (if x.toInt < y.toInt then x else y) ∧ gives (.aluMax d a b) (if y.toInt < x.toInt then x else y) ∧
    gives (.aluMinu d a b) (if x.toNat < y.toNat then x else y) ∧ gives (.aluMaxu d a b) (if y.toNat < x.toNat then x else y)) ∧
  onlyFuncs 0x01 9 0 [1, 2, 3, 4, 5, 6, 7, 8, 9, 0x10, 0x11, 0x12, 0x13, 0x20, 0x21, 0x22, 0x23]

/-- 07 R151 and R152: a result is said by its bits, or in integers. -/
def Obligations.ImmediatesWriteTheirResults : Prop :=
  (∀ (s : State) (d a : BitVec 5) (i : BitVec 15) (n : BitVec 6) (w : W32),
    let x := s.cr.rdG a
    let gives (j : Instr) (v : Word) := runsTo s j fun t => writesG s t d v 1
    gives (.addi d a i) (BitVec.ofInt 64 (x.toNat + i.toInt)) ∧
    gives (.andi d a i) (x &&& BitVec.ofNat 64 i.toNat) ∧ gives (.ori d a i) (x ||| BitVec.ofNat 64 i.toNat) ∧
    gives (.xori d a i) (x ^^^ BitVec.ofNat 64 i.toNat) ∧
    gives (.shli d a n) (BitVec.ofNat 64 (x.toNat * 2 ^ n.toNat)) ∧
    gives (.shri d a n) (BitVec.ofNat 64 (x.toNat / 2 ^ n.toNat)) ∧
    gives (.sari d a n) (BitVec.ofInt 64 (x.toInt / 2 ^ n.toNat)) ∧
    runsTo s (.liSx d w) (fun t => writesG s t d (BitVec.ofInt 64 w.toInt) 2) ∧
    runsTo s (.liZx d w) (fun t => writesG s t d (BitVec.ofNat 64 w.toNat) 2) ∧
    runsTo s (.liHi d w) (fun t =>
      writesG s t d (BitVec.ofNat 64 (w.toNat * 2 ^ 32 + (s.cr.rdG d).toNat % 2 ^ 32)) 2)) ∧
  onlyFuncs 0x06 19 15 [1, 2, 3] ∧
  ∀ (w : W32) (v : Option W32), fld w 31 25 ∈ [0x0C#7, 0x0D#7, 0x0E#7] → fld w 14 6 ≠ 0 →
    decodeWords w v = .error (.badWord w)

/-- 07 R153 with Table K-58 and R154 with Table K-59. -/
def Obligations.ComparesWriteOneConditionBit : Prop :=
  (∀ (s : State) (c : BitVec 3) (a b : BitVec 5),
    let x := s.cr.rdG a
    let y := s.cr.rdG b
    let p := val32 (x.setWidth 32)
    let q := val32 (y.setWidth 32)
    let num := !p.isNaN && !q.isNaN
    let quiet : Conds := if p = .nan true ∨ q = .nan true then condV else 0
    let loud : Conds := if num then 0 else condV
    let gives (i : Instr) (v : Bool) := runsTo s i fun t => writesC s t c v
    let givesF (i : Instr) (v : Bool) (f : Conds) := runsTo s i fun t => writesC s t c v f
    gives (.cmpEq c a b) (decide (x.toNat = y.toNat)) ∧ gives (.cmpNe c a b) (decide (x.toNat ≠ y.toNat)) ∧
    gives (.cmpLt c a b) (decide (x.toInt < y.toInt)) ∧ gives (.cmpLtu c a b) (decide (x.toNat < y.toNat)) ∧
    gives (.cmpLe c a b) (decide (x.toInt ≤ y.toInt)) ∧ gives (.cmpLeu c a b) (decide (x.toNat ≤ y.toNat)) ∧
    givesF (.cmpFeq c a b) (num && !p.lt q && !q.lt p) quiet ∧ givesF (.cmpFlt c a b) (num && p.lt q) loud ∧
    givesF (.cmpFle c a b) (num && !q.lt p) loud ∧ givesF (.cmpFun c a b) (!num) quiet) ∧
  (∀ (s : State) (c a b : BitVec 3) (d f g : BitVec 5),
    let x := s.cr.rdC a
    let y := s.cr.rdC b
    let gives (i : Instr) (v : Bool) := runsTo s i fun t => writesC s t c v
    gives (.cndAnd c a b) (x && y) ∧ gives (.cndOr c a b) (x || y) ∧ gives (.cndXor c a b) (x ^^ y) ∧
    gives (.cndAndn c a b) (x && !y) ∧ gives (.cndFromg c f) (decide (s.cr.rdG f ≠ 0)) ∧
    runsTo s (.cndSetg d a) (fun t => writesG s t d (if x then 1 else 0) 1) ∧
    runsTo s (.cndSel d f g a) (fun t => writesG s t d (if x then s.cr.rdG f else s.cr.rdG g) 1)) ∧
  onlyFuncs 0x02 9 0 [1, 2, 3, 4, 5, 6, 0x10, 0x11, 0x12, 0x13] ∧
  onlyFuncs 0x05 9 0 [1, 2, 3, 4, 8, 9, 0x10, 0x11, 0x12, 0x13, 0x14, 0x15, 0x16, 0x17]

/-- 07 R155 and R156 with Table K-60. `rnd32` and `rndTo` are the model's one rounding (03 R60 to R66). -/
def Obligations.FpuRoundsOnceAndRaisesFlags : Prop :=
  ∀ (s : State) (d a b : BitVec 5) (r : BitVec 2),
    let rm := RM.ofBits r
    let x : W32 := (s.cr.rdG a).setWidth 32
    let y : W32 := (s.cr.rdG b).setWidth 32
    let z : W32 := (s.cr.rdG d).setWidth 32
    let nan (v : W32) := (val32 v).isNaN
    let less := (val32 x).lt (val32 y) || (!(val32 y).lt (val32 x) && x.msb && !y.msb)
    let quiet : Conds := if val32 x = .nan true ∨ val32 y = .nan true then condV else 0
    let same : W32 × Conds := if val32 x = .nan true then (nan32, condV) else (x, 0)
    let gives (i : Instr) (v : W32 × Conds) := runsTo s i fun t => writesG s t d (v.1.setWidth 64) 1 v.2
    gives (.fpuAdd d a b r) (rnd32 rm ((val32 x).add rm (val32 y))) ∧
    gives (.fpuSub d a b r) (rnd32 rm ((val32 x).add rm (val32 y).negate)) ∧
    gives (.fpuMul d a b r) (rnd32 rm ((val32 x).mul (val32 y))) ∧
    gives (.fpuDiv d a b r) ((rnd32 rm ((val32 x).div (val32 y)).1).1,
      (rnd32 rm ((val32 x).div (val32 y)).1).2 ||| ((val32 x).div (val32 y)).2) ∧
    gives (.fpuSqrt d a r) (rnd32 rm (val32 x).sqrt) ∧
    gives (.fpuFma d a b r) (rnd32 rm (((val32 x).mul (val32 y)).add rm (val32 z))) ∧
    gives (.fpuMin d a b) (if nan x && nan y then nan32 else if nan x then y else if nan y then x else if less then x else y, quiet) ∧
    gives (.fpuMax d a b) (if nan x && nan y then nan32 else if nan x then y else if nan y then x else if less then y else x, quiet) ∧
    gives (.fpuAbs d a) (x &&& 0x7FFFFFFF, 0) ∧ gives (.fpuNeg d a) (x ^^^ 0x80000000, 0) ∧
    (∀ (f : BitVec 4) (h : BitVec 1), 1 ≤ f.toNat → f.toNat ≤ 4 →
      gives (.fpuCvto d a (f.setWidth 5) r h) (rndTo f rm (h == 1) (val32 x)) ∧
      gives (.fpuCvfrom d a (f.setWidth 5) r)
        (rnd32 rm (valOf f ((s.cr.rdG a).toNat % 2 ^ (if f.toNat ≤ 2 then 16 else 8))))) ∧
    gives (.fpuCvto d a 0 r 0) same ∧ gives (.fpuCvfrom d a 0 r) same ∧
    runsTo s (.fpuCvto d a 10 r 0) (fun t =>
      writesG s t d ((rndInt32 rm (val32 x)).1.signExtend 64) 1 (rndInt32 rm (val32 x)).2) ∧
    gives (.fpuCvfrom d a 10 r) (rnd32 rm (.ofInt x.toInt)) ∧
    runsTo s (.fpuFlags d) (fun t => onlyCore s.core s t ∧ wroteG s.cr t.cr d (s.cr.flags.setWidth 64) ∧ t.cr.flags = 0 ∧
      movedOn s.cr t.cr 1 ∧ t.cr.c = s.cr.c ∧ t.cr.k = s.cr.k ∧ sameRest s.cr t.cr)

/-- 07 R157 with Table K-62. A result is said bit by bit, or by what characterises a count. -/
def Obligations.BitFieldsWriteTableK62 : Prop :=
  (∀ (s : State) (d a b : BitVec 5),
    let x := s.cr.rdG a
    let n := (s.cr.rdG b).toNat % 64
    let pos := (s.cr.rdG b).toNat % 64
    let top := pos + (s.cr.rdG b).toNat / 2 ^ 8 % 64
    let gives (i : Instr) (P : Word → Prop) := runsTo s i fun t => ∃ v, P v ∧ writesG s t d v 1
    gives (.bitShl d a b) (fun v => ∀ i, v.getLsbD i = (decide (i < 64) && decide (n ≤ i) && x.getLsbD (i - n))) ∧
    gives (.bitShr d a b) (fun v => ∀ i, v.getLsbD i = x.getLsbD (i + n)) ∧
    gives (.bitSar d a b) (fun v => ∀ i, i < 64 → v.getLsbD i = x.getLsbD (min (i + n) 63)) ∧
    gives (.bitRol d a b) (fun v => ∀ i, i < 64 → v.getLsbD ((i + n) % 64) = x.getLsbD i) ∧
    gives (.bitRor d a b) (fun v => ∀ i, i < 64 → v.getLsbD i = x.getLsbD ((i + n) % 64)) ∧
    gives (.bitClz d a) (fun v => v.toNat ≤ 64 ∧ x.toNat < 2 ^ (64 - v.toNat) ∧ (v.toNat < 64 → 2 ^ (63 - v.toNat) ≤ x.toNat)) ∧
    gives (.bitCtz d a) (fun v => v.toNat ≤ 64 ∧ (∀ i, i < v.toNat → x.getLsbD i = false) ∧
      (v.toNat < 64 → x.getLsbD v.toNat = true)) ∧
    gives (.bitPopc d a) (fun v => v.toNat = ((List.range 64).filter x.getLsbD).length) ∧
    gives (.bitBswap d a) (fun v => ∀ i, i < 8 → v.extractLsb' (8 * i) 8 = x.extractLsb' (56 - 8 * i) 8) ∧
    gives (.bitExtu d a b) (fun v => ∀ i, v.getLsbD i = (decide (pos + i ≤ top) && x.getLsbD (pos + i))) ∧
    gives (.bitExts d a b) (fun v => ∀ i, i < 64 → v.getLsbD i = x.getLsbD (min (pos + i) top)) ∧
    gives (.bitIns d a b) (fun v => ∀ i, i < 64 → v.getLsbD i =
      if pos ≤ i ∧ i ≤ top then x.getLsbD (i - pos) else (s.cr.rdG d).getLsbD i)) ∧
  onlyFuncs 0x04 9 0 [1, 2, 3, 4, 5, 0x10, 0x11, 0x12, 0x13, 0x20, 0x21, 0x22]

/-- 07 R158, the target formed in integers so that wrapping below 0 shows, and R159 with Table K-64. -/
def Obligations.BranchesCallsAndJumpsGoToTheirTarget : Prop :=
  (∀ (s : State) (c : BitVec 3) (sense : BitVec 1) (o : BitVec 21),
    let t : Int := s.cr.pc.toNat + 4 * o.toInt
    (s.cr.rdC c ≠ (sense == 1) →
      runsTo s (.br c sense o) (fun u => movesOn s u) ∧
      runsTo s (.call c sense o) (fun u => movesOn s u)) ∧
    (s.cr.rdC c = (sense == 1) → 0 ≤ t → t < 0x40000 →
      runsTo s (.br c sense o) (fun u => movesPc s u (BitVec.ofInt 64 t)) ∧
      runsTo s (.call c sense o) (fun u => linksAndJumps s u 31 (BitVec.ofInt 64 t))) ∧
    (s.cr.rdC c = (sense == 1) → t < 0 ∨ 0x40000 ≤ t →
      traps s (.br c sense o) 0x03 ∧ traps s (.call c sense o) 0x03)) ∧
  ∀ (s : State) (d a : BitVec 5),
    let n := s.cr.rdG a
    let m := s.cr.rdG 31
    let inStore (v : Word) := v.toNat % 4 = 0 ∧ v.toNat < 0x40000
    (inStore n → runsTo s (.jmpJr a) (fun u => movesPc s u n) ∧
      runsTo s (.jmpJalr d a) (fun u => linksAndJumps s u d n)) ∧
    (¬ inStore n → traps s (.jmpJr a) 0x03 ∧ traps s (.jmpJalr d a) 0x03) ∧
    (inStore m → runsTo s .jmpRet (fun u => movesPc s u m)) ∧
    (¬ inStore m → traps s .jmpRet 0x03)

/-- 07 R162 with Table K-69, for the operations that reach no memory, and R163: in the last part `i` completes where PC
moves one word on. -/
def Obligations.CapabilityOperationsOfTableK69 : Prop :=
  (∀ (s : State) (d k : BitVec 4) (a : BitVec 5) (c : BitVec 3) (r : BitVec 8),
    let src := s.cr.rdK k
    let formed := src.extractLsb' 112 16 = 0 ∧ (src.extractLsb' 32 40).toNat ≤ (src.extractLsb' 72 40).toNat ∧
      src.extractLsb' 0 24 ≠ 0
    let derives := src.getLsbD 29
    let sum := (src.extractLsb' 32 40).toNat + (s.cr.rdG a).toNat
    let inside := sum ≤ (src.extractLsb' 72 40).toNat
    let keeps (v : Cap) (lo n : Nat) := ∀ i, i < 128 → (i < lo ∨ lo + n ≤ i) → v.getLsbD i = src.getLsbD i
    runsTo s (.capMov d k) (fun t => writesK s t d src) ∧ runsTo s (.capNull d) (fun t => writesK s t d 0) ∧
    (formed → derives = true → inside →
      runsTo s (.capBase d k a) (fun t => ∃ v, writesK s t d v ∧ (v.extractLsb' 32 40).toNat = sum ∧ keeps v 32 40) ∧
      runsTo s (.capLen d k a) (fun t => ∃ v, writesK s t d v ∧ (v.extractLsb' 72 40).toNat = sum ∧ keeps v 72 40)) ∧
    (formed → derives = true →
      runsTo s (.capAnd d k r) (fun t => ∃ v, writesK s t d v ∧ v.extractLsb' 24 8 = src.extractLsb' 24 8 &&& r ∧
        keeps v 24 8)) ∧
    (¬ formed → traps s (.capBase d k a) 0x04 ∧ traps s (.capLen d k a) 0x04 ∧ traps s (.capAnd d k r) 0x04) ∧
    (formed → derives = false →
      traps s (.capBase d k a) 0x05 ∧ traps s (.capLen d k a) 0x05 ∧ traps s (.capAnd d k r) 0x05) ∧
    (formed → derives = true → ¬ inside → traps s (.capBase d k a) 0x06 ∧ traps s (.capLen d k a) 0x06) ∧
    runsTo s (.capTest c k a r) (fun t => writesC s t c (decide (formed ∧ src.extractLsb' 24 8 &&& r = r ∧
      (src.extractLsb' 32 40).toNat ≤ (s.cr.rdG a).toNat ∧ (s.cr.rdG a).toNat + 1 ≤ (src.extractLsb' 72 40).toNat))) ∧
    runsTo s (.capGbase k a) (fun t => writesG s t a ((src.extractLsb' 32 40).setWidth 64) 1) ∧
    runsTo s (.capGlimit k a) (fun t => writesG s t a ((src.extractLsb' 72 40).setWidth 64) 1) ∧
    runsTo s (.capGmeta k a) (fun t => writesG s t a ((src.extractLsb' 0 32).setWidth 64) 1)) ∧
  ∀ (s t : State) (i : Instr) (d k : BitVec 4) (a : BitVec 5) (r : BitVec 8),
    (i = .capBase d k a ∨ i = .capLen d k a ∨ i = .capAnd d k r) → exec i s = .next t → movedOn s.cr t.cr 1 →
    s.cr.pc ≠ -4 → s.cr.past = false → s.cr.active = false → s.cr.trapping = none → t.cr.trapping = none → t.cr.halted = s.cr.halted →
    let old := s.cr.rdK k
    let new := t.cr.rdK d
    old.getLsbD 29 = true ∧ new.extractLsb' 0 24 = old.extractLsb' 0 24 ∧
    (old.extractLsb' 32 40).toNat ≤ (new.extractLsb' 32 40).toNat ∧
    (new.extractLsb' 72 40).toNat ≤ (old.extractLsb' 72 40).toNat ∧
    new.extractLsb' 24 8 &&& old.extractLsb' 24 8 = new.extractLsb' 24 8 ∧
    (i = .capAnd d k r → r.getLsbD 5 = false → ∀ e b m, traps t (.capBase e d b) 0x05 ∧ traps t (.capLen e d b) 0x05 ∧
      traps t (.capAnd e d m) 0x05)

/-- 07 R160 and R161, 06 R126. The first part says what a repeat of any word of format A, I or M is, by the instruction that
the stepped word is; the others say it whole for alu.add and for the condition bits of cmp and cnd. One repeat is one step of
the model (log 2). -/
def Obligations.RepRunsTheNextWordStepped : Prop :=
  (∀ (s : State) (n sd sa sb : BitVec 6) (w : W32),
    let x := s.cr
    let i : Int := if x.remain = 0 then 0 else (n.toNat : Int) + 1 - x.remain.toNat
    let gb : Prop := fld w 31 25 ∈ [1#7, 2, 3, 4, 5, 0x2A, 0x2D, 0x2E, 0x30]
    let im : Prop := fld w 31 25 ∈ [8#7, 9, 0xA, 0xB, 0xC, 0xD, 0xE, 0x18, 0x19, 0x1A]
    let moved (f : BitVec 5) (step : BitVec 6) : Int := f.toNat + i * step.toInt
    let fits (f : BitVec 5) (step : BitVec 6) : Prop := 0 ≤ moved f step ∧ moved f step < 32
    let left := ((n.toNat : Int) - i).toNat
    let s0 := s.setCr { x with remain := BitVec.ofNat 64 (left + 1), inRep := true }
    let after (u : State) : State := u.modCore s.core fun y =>
      if y.pc ≠ x.pc + 4 then { y with inRep := false }
      else if left = 0 then { y with inRep := false, pc := x.pc, remain := 0 }.advance 2
      else { y with inRep := false, pc := x.pc, remain := BitVec.ofNat 64 left }
    let illegal := exec (.rep n sd sa sb) s = .next (syncTrap (s.setCr { x with remain := BitVec.ofNat 64 (left + 1) }) 0x01)
    x.pc.toNat + 8 ≤ 0x40000 → x.ops = [] → x.remain.toNat ≤ n.toNat + 1 → s.storeWord s.core (x.pc.toNat + 4) = w →
    (¬ gb → ¬ im → traps s (.rep n sd sa sb) 0x01) ∧ (im → sb ≠ 0 → traps s (.rep n sd sa sb) 0x01) ∧
    (gb ∨ (im ∧ sb = 0) →
      (¬ (fits (fld w 24 20) sd ∧ fits (fld w 19 15) sa ∧ fits (fld w 14 10) sb) → illegal) ∧
      (∀ v : W32, fits (fld w 24 20) sd → fits (fld w 19 15) sa → fits (fld w 14 10) sb →
        fld v 31 25 = fld w 31 25 → fld v 24 20 = BitVec.ofInt 5 (moved (fld w 24 20) sd) →
        fld v 19 15 = BitVec.ofInt 5 (moved (fld w 19 15) sa) → fld v 14 10 = BitVec.ofInt 5 (moved (fld w 14 10) sb) →
        fld v 9 0 = fld w 9 0 →
        (∀ j, decodeWords v none = .ok j → j.wf = true → ∃ u, exec j s0 = .next u ∧ exec (.rep n sd sa sb) s = .next (after u)) ∧
        ((∀ j, decodeWords v none = .ok j → j.wf = false) → illegal)))) ∧
  (∀ (s : State) (n sd sa : BitVec 6) (c p q : BitVec 3) (a b : BitVec 5),
    let x := s.cr
    let i : Int := if x.remain = 0 then 0 else (n.toNat : Int) + 1 - x.remain.toNat
    let fc : Int := c.toNat + i * sd.toInt
    let fp : Int := p.toNat + i * sa.toInt
    let fa : Int := a.toNat + i * sa.toInt
    let left := ((n.toNat : Int) - i).toNat
    let bit (f : Int) := 0 ≤ f ∧ f < 8
    let one (w : W32) (good : Prop) (v : Bool) :=
      s.storeWord s.core (x.pc.toNat + 4) = w →
      (good → runsTo s (.rep n sd sa 0) fun t => onlyCore s.core s t ∧ wroteC x t.cr (BitVec.ofInt 3 fc) v ∧ t.cr.g = x.g ∧
        t.cr.remain = BitVec.ofNat 64 left ∧ if left = 0 then movedOn x t.cr 2 else t.cr.pc = x.pc) ∧
      (¬ good → exec (.rep n sd sa 0) s = .next (syncTrap (s.setCr { x with remain := BitVec.ofNat 64 (left + 1) }) 0x01))
    x.pc.toNat + 8 ≤ 0x40000 → x.ops = [] → x.remain.toNat ≤ n.toNat + 1 →
    one (nth 0 (encode (.cmpEq c a b))) (bit fc ∧ 0 ≤ fa ∧ fa < 32) (decide (x.rdG (BitVec.ofInt 5 fa) = x.rdG b)) ∧
    one (nth 0 (encode (.cndAnd c p q))) (bit fc ∧ bit fp) (x.rdC (BitVec.ofInt 3 fp) && x.rdC q)) ∧
  ∀ (s : State) (n sd sa sb : BitVec 6) (d a b : BitVec 5),
    let x := s.cr
    let i : Int := if x.remain = 0 then 0 else (n.toNat : Int) + 1 - x.remain.toNat
    let fd : Int := d.toNat + i * sd.toInt
    let fa : Int := a.toNat + i * sa.toInt
    let fb : Int := b.toNat + i * sb.toInt
    let fits (f : Int) := 0 ≤ f ∧ f < 32
    let left := ((n.toNat : Int) - i).toNat
    x.pc.toNat + 8 ≤ 0x40000 → x.ops = [] → x.remain.toNat ≤ n.toNat + 1 →
    [s.storeWord s.core (x.pc.toNat + 4)] = encode (.aluAdd d a b) →
    (fits fd → fits fa → fits fb →
      runsTo s (.rep n sd sa sb) (fun t => onlyCore s.core s t ∧
        wroteG x t.cr (BitVec.ofInt 5 fd) (x.rdG (BitVec.ofInt 5 fa) + x.rdG (BitVec.ofInt 5 fb)) ∧
        t.cr.remain = BitVec.ofNat 64 left ∧
        (if left = 0 then movedOn x t.cr 2 else t.cr.pc = x.pc ∧ t.cr.past = x.past) ∧
        t.cr.flags = x.flags ∧ t.cr.c = x.c ∧ t.cr.k = x.k ∧
        sameRest { x with inRep := false } { t.cr with remain := x.remain })) ∧
    (¬ (fits fd ∧ fits fa ∧ fits fb) →
      exec (.rep n sd sa sb) s = .next (syncTrap (s.setCr { x with remain := BitVec.ofNat 64 (left + 1) }) 0x01))

/-- 07 R165 with Table K-74 and R166. That the DONEs of a containment wait beside a full queue, and enter it in order of
arrival before done looks, is the model's reading (log 82). -/
def Obligations.StepInstructionsFollowTheCounter : Prop :=
  ∀ (s : State) (a b d : BitVec 5) (c : BitVec 3), onDistrict s → untraced s →
    let x := s.cr
    let trip : Vector (BitVec 24) 4 := #v[x.stepcfgLo.extractLsb' 0 24, x.stepcfgLo.extractLsb' 24 24,
      x.stepcfgHi.extractLsb' 0 24, x.stepcfgHi.extractLsb' 24 24]
    let plane : BitVec 2 := x.stepcfgHi.extractLsb' 48 2
    let zeros : Vector (BitVec 24) 4 := #v[0, 0, 0, 0]
    let leaf : BitVec 24 := (x.rdG a).setWidth 24
    (x.step = none → plane = s.planeAt s.core →
      runsTo s (.stepBegin a) (fun t => otherDists s.core s t ∧ sameBytes s t ∧
        t.cr = { x with step := some { leaf := leaf, trip := trip, plane := plane }, iter := zeros
                        ecsn := x.ecsn + 1 }.advance 1 ∧
        { t with districts := s.districts, regions := s.regions } = s)) ∧
    (x.step ≠ none → traps s (.stepBegin a) 0x0A) ∧
    (x.step = none → plane ≠ s.planeAt s.core → traps s (.stepBegin a) 0x0B) ∧
    (x.step = none → traps s (.stepNext c) 0x0C) ∧
    (∀ st, x.step = some st →
      (∀ i : Fin 4, (∀ j, j < i → x.iter[j] = st.trip[j]) → x.iter[i] ≠ st.trip[i] →
        runsTo s (.stepNext c) (fun t => onlyCore s.core s t ∧ t.cr.step = some st ∧ wroteC x t.cr c false ∧
          (∀ j : Fin 4, t.cr.iter[j] = if j < i then 0 else if j = i then x.iter[j] + 1 else x.iter[j]) ∧
          sameRest { x with iter := t.cr.iter } t.cr ∧ t.cr.g = x.g ∧ t.cr.k = x.k ∧ t.cr.flags = x.flags ∧
          movedOn x t.cr 1)) ∧
      ((∀ j : Fin 4, x.iter[j] = st.trip[j]) →
        runsTo s (.stepNext c) (fun t => onlyCore s.core s t ∧ t.cr.step = none ∧ t.cr.iter = zeros ∧
          wroteC x t.cr c true ∧ sameRest { x with iter := zeros, step := none } t.cr ∧ t.cr.g = x.g ∧ t.cr.k = x.k ∧
          t.cr.flags = x.flags ∧ movedOn x t.cr 1))) ∧
    runsTo s .stepEnd (fun t => onlyCore s.core s t ∧
      t.cr = { x with step := none, iter := if x.step.isSome then zeros else x.iter }.advance 1) ∧
    (∀ front back, x.doneWait = [] → x.doneQ = front ++ leaf :: back → leaf ∉ front →
      runsTo s (.stepDone a) (fun t => onlyCore s.core s t ∧ t.cr = { x with doneQ := front ++ back }.advance 1)) ∧
    (x.doneWait = [] → leaf ∉ x.doneQ → exec (.stepDone a) s = .next s) ∧
    (let y := (s.settleDone s.core).cr
     ∀ front back, y.doneQ = front ++ leaf :: back → leaf ∉ front →
      runsTo s (.stepDone a) (fun t => onlyCore s.core s t ∧ movedOn x t.cr 1 ∧
        t.cr.doneQ ++ t.cr.doneWait.map (·.2) = front ++ back ++ y.doneWait.map (·.2))) ∧
    (∀ r n, s.regionAt s.core = some r → n = (x.rdG a).toNat → r.districts.contains n = true → n ≠ s.core → x.ops = [] →
      (s.coreOf n).sigQ.length < 8 →
      runsTo s (.stepSig a b) (fun t => (∀ e, e ≠ n → e ≠ s.core → t.dist e = s.dist e) ∧ sameBytes s t ∧
        t.coreOf n = { s.coreOf n with sigQ := (s.coreOf n).sigQ ++ [(BitVec.ofNat 10 s.core, (x.rdG b).setWidth 32)] } ∧
        t.cr = x.advance 1)) ∧
    (∀ r, s.regionAt s.core = some r → r.districts.contains (x.rdG a).toNat = false → traps s (.stepSig a b) 0x0D) ∧
    (∀ who v rest, x.sigQ = (who, v) :: rest →
      runsTo s (.stepRcv d) (fun t => onlyCore s.core s t ∧ t.cr.sigQ = rest ∧
        wroteG x t.cr d (BitVec.ofNat 64 (who.toNat * 2 ^ 32 + v.toNat)) ∧ movedOn x t.cr 1 ∧ t.cr.c = x.c ∧
        t.cr.k = x.k ∧ t.cr.flags = x.flags ∧ sameRest { x with sigQ := rest } t.cr))

/-- 06 R128 with Table K-46, 04 R102, 07 R168 and R169, 19 R352 with Table D-29. -/
def Obligations.SystemRegistersReadAndWrite : Prop :=
  ∀ (s : State) (d : BitVec 5) (n : BitVec 12),
    let x := s.cr
    let v := x.rdG d
    let reads (i : BitVec 12) (w : Word) := runsTo s (.sysRd d i) fun t => writesG s t d w 1
    let stores (i : BitVec 12) (y : Core) := runsTo s (.sysWr d i) fun t =>
      onlyCore s.core s t ∧ t.cr = y.advance 1
    let shows (i : BitVec 12) (fields : List (Nat × Nat × Nat)) := runsTo s (.sysRd d i) fun t =>
      ∃ w, writesG s t d w 1 ∧ ∀ f ∈ fields, w.toNat / 2 ^ f.1 % 2 ^ f.2.1 = f.2.2
    let manages (i : BitVec 12) (P : State → Prop) := runsTo s (.sysWr d i) fun t =>
      P t ∧ sameBytes s t ∧ (∀ e, e ≠ 1023 → e ≠ s.core → t.dist e = s.dist e) ∧ movedOn x t.cr 1
    let k := s.kiln
    let one (c : Bool) : Nat := if c then 1 else 0
    let atMost64 (k : Nat) : Nat := if 64 < k then 64 else k
    reads 0x000 (BitVec.ofNat 64 s.core) ∧ (x.inRep = false → reads 0x001 ((x.pc.setWidth 32).setWidth 64)) ∧
    reads 0x002 (x.ecsn.setWidth 64) ∧ reads 0x003 (if x.level1 then 1 else 0) ∧ reads 0x004 (BitVec.ofNat 64 s.timebase) ∧
    reads 0x010 x.trapcause ∧ reads 0x011 x.trappc ∧ reads 0x012 x.trapq ∧ reads 0x013 x.remain ∧
    reads 0x020 x.stepcfgLo ∧ reads 0x021 x.stepcfgHi ∧ reads 0x022 (x.iter[0].setWidth 64) ∧
    reads 0x023 (x.iter[1].setWidth 64) ∧ reads 0x024 (x.iter[2].setWidth 64) ∧ reads 0x025 (x.iter[3].setWidth 64) ∧
    reads 0x030 (BitVec.ofNat 64 x.ldc) ∧ reads 0x031 (BitVec.ofNat 64 x.stc) ∧ reads 0x032 (BitVec.ofNat 64 x.cpc) ∧
    reads 0x033 (BitVec.ofNat 64 x.toc) ∧
    (let hot := s.core ≠ 1023 ∧ vget s.hot (s.core / 40) = true
     let period := if hot then 32000 else 64000
     let now := s.timebase % period
     shows 0x040 [(31, 1, if hot then 1 else 0), (16, 5, if hot then now / 1000 else now / 2000), (0, 16, now)]) ∧
    runsTo s (.sysWr d 0x010) (fun t => onlyCore s.core s t ∧
      t.cr = { x with trapcause := v &&& 0x1FFFF00FF, trapOp := t.cr.trapOp }.advance 1) ∧ stores 0x011 { x with trappc := v &&& 0x3FFFC } ∧
    stores 0x012 { x with trapq := BitVec.ofNat 64 (v.toNat / 2 ^ 6 % 2 ^ 31 * 2 ^ 6 + atMost64 (v.toNat / 2 ^ 40 % 128) * 2 ^ 40) } ∧
    stores 0x013 { x with remain := BitVec.ofNat 64 (atMost64 (v.toNat % 128)) } ∧
    stores 0x020 { x with stepcfgLo := BitVec.ofNat 64 (v.toNat % 2 ^ 48) } ∧
    stores 0x021 { x with stepcfgHi := BitVec.ofNat 64 (v.toNat % 2 ^ 50) } ∧
    (∀ i ∈ [0x000#12, 0x001, 0x002, 0x004, 0x022, 0x023, 0x024, 0x025, 0x030, 0x031, 0x032, 0x033, 0x040], stores i x) ∧
    (x.level1 = false → stores 0x003 x) ∧
    (n.toNat < 0x800 → n.toNat ∉ [0, 1, 2, 3, 4, 0x10, 0x11, 0x12, 0x13, 0x20, 0x21, 0x22, 0x23, 0x24, 0x25, 0x30, 0x31,
      0x32, 0x33, 0x40] → traps s (.sysRd d n) 0x01 ∧ traps s (.sysWr d n) 0x01) ∧
    (0x800 ≤ n.toNat → x.level1 = false → traps s (.sysRd d n) 0x02 ∧ traps s (.sysWr d n) 0x02) ∧
    (x.level1 = true →
      stores 0x003 { x with level1 := v.getLsbD 0 } ∧
      shows 0x800 [(0, 4, s.boot.state.toNat), (4, 1, one s.boot.slot), (8, 8, s.boot.errA.toNat), (16, 8, s.boot.errB.toNat),
        (24, 39, 0)] ∧
      reads 0x801 (Config.svnMin.setWidth 64) ∧
      shows 0x808 [(0, 4, k.mode.toNat), (4, 4, k.row.toNat), (8, 8, one k.stale), (16, 16, k.inlet.toNat),
        (32, 16, k.flow.toNat), (48, 16, k.medium.toNat)] ∧
      reads 0x809 (k.modpwr.setWidth 64) ∧ (k.modStep < 8 → reads 0x80A (BitVec.ofNat 64 k.modStep)) ∧
      reads 0x80B (k.boostw.setWidth 64) ∧ shows 0x810 [(0, 32, k.alertst.toNat), (32, 32, k.alertDist.toNat)] ∧
      reads 0x811 (k.alerten.setWidth 64) ∧
      shows 0x818 [(0, 1, one s.boot.cbusy.isSome), (1, 7, one s.boot.cresult), (8, 56, s.boot.cerr.toNat)] ∧
      (∀ g, g < 4 → shows (BitVec.ofNat 12 (0x820 + g)) [(0, 16, (vget k.head g).toNat), (16, 16, (vget k.tiepref g).toNat),
        (32, 32, (vget k.gwatts g).toNat)]) ∧
      (∀ r, r < 24 → reads (BitVec.ofNat 12 (0xA00 + r)) (tgetD r k.limtab) ∧
        manages (BitVec.ofNat 12 (0xA00 + r)) (fun t => tgetD r t.kiln.limtab = v &&& 0x80FFFFFFFFFFF0FF ∧
          ∀ q, q ≠ r → tgetD q t.kiln.limtab = tgetD q k.limtab)) ∧
      manages 0x800 (fun t => t.boot = if v.getLsbD 63 = true ∧ s.boot.goready = false then
        { s.boot with goready := true, state := if s.boot.state = 2 then 3 else s.boot.state } else s.boot) ∧
      manages 0x80B (fun t => t.kiln = { k with boostw := v.setWidth 16 }) ∧
      manages 0x810 (fun t => t.kiln = { k with alertst := k.alertst &&& ~~~v.setWidth 5 }) ∧
      manages 0x811 (fun t => t.kiln = { k with alerten := v.setWidth 5 }) ∧
      manages 0x830 (fun t => ∀ e, (t.distReg e).retired = (s.distReg e).retired ∧
        ((t.distReg e).retiring = ((s.distReg e).retiring ||
          decide (e = v.toNat % 1024 ∧ 0 < e ∧ e < 640 ∧ (s.distReg e).retired = false)))) ∧
      (n.toNat ∈ [0x801, 0x808, 0x809, 0x80A, 0x818, 0x820, 0x821, 0x822, 0x823] → stores n x) ∧
      (0x800 ≤ n.toNat → ¬ (0xA00 ≤ n.toNat ∧ n.toNat < 0xA18) → n.toNat ∉ [0x800, 0x801, 0x808, 0x809, 0x80A, 0x80B, 0x810,
        0x811, 0x818, 0x820, 0x821, 0x822, 0x823] → reads n 0 ∧ (n ≠ 0x830 → stores n x)))

/-- 08 R195 and R196 with Tables K-92 to K-95. -/
def Obligations.TrapEntryWritesTheFrame : Prop :=
  ∀ (s : State) (c : Nat) (k : Cause) (ord off : Nat),
    let x := s.coreOf c
    let stays (o : MemOp) := o.status = .logged ∨ (o.status = .held ∧ k.cause ≠ 0x15)
    let ents := (x.ops.filter fun o => decide ¬ stays o) ++ x.reissue
    let t := takeTrap s c k
    let y := t.coreOf c
    let word (at_ : Nat) := mgetN (tileKey ord off + at_) 4 (t.dist c).tileMem
    let pcw := (x.pc &&& 0x3FFFC).toNat
    x.active = false → s.mayEnter c k = true → (∀ o ∈ x.ops, o.status ≠ .sent) → ents.length < 128 →
    s.frameLoc c (64 + 64 * ents.length) = some (ord, off) →
    y.pc = 0 ∧ y.trappc = x.pc &&& 0x3FFFC ∧ y.active = true ∧
    y.trapcause.toNat = 2 ^ 32 + k.sub.toNat * 2 ^ 24 + k.unit.toNat * 2 ^ 16 + k.cause.toNat ∧
    y.trapq.toNat / 2 ^ 40 % 128 = ents.length ∧ y.trapq.toNat % 2 ^ 40 = x.trapq.toNat % 2 ^ 40 ∧
    y.g = x.g ∧ y.c = x.c ∧ y.k = x.k ∧ y.d = x.d ∧ y.flags = x.flags ∧ y.remain = x.remain ∧ y.ecsn = x.ecsn ∧
    y.reissue = [] ∧ y.ops = x.ops.filter (fun o => decide (stays o)) ∧ y.past = false ∧
    word 0 = k.sub.toNat * 2 ^ 24 + k.unit.toNat * 2 ^ 16 + k.cause.toNat ∧
    word 4 = pcw ∧ word 8 = (if k.cause = 0x15 then pcw else k.epc.toNat) ∧
    word 12 = (if k.cause = 0x15 then x.ecsn.toNat else k.eecsn.toNat) ∧ word 16 = ents.length ∧
    word 24 + word 28 * 2 ^ 32 = k.xaddr.toNat ∧
    (∀ i o, ents[i]? = some o → word (64 + 64 * i) = o.pc.toNat ∧ word (64 + 64 * i + 4) = o.word.toNat ∧
      2 ^ 31 ≤ word (64 + 64 * i + 8) ∧ word (64 + 64 * i + 16) + word (64 + 64 * i + 20) * 2 ^ 32 = o.addr.toNat) ∧
    (untraced s → sameBytesBut s t c (tileKey ord off) (64 + 64 * ents.length) ∧ otherDists c s t)

/-- 08 R197 and 19 R350. -/
def Obligations.DoubleTrapHalts : Prop :=
  ∀ (s : State) (c : Nat) (k : Cause),
    let x := s.coreOf c
    let stays (o : MemOp) := o.status = .logged ∨ (o.status = .held ∧ k.cause ≠ 0x15)
    let n := 64 + 64 * ((x.ops.filter fun o => decide ¬ stays o) ++ x.reissue).length
    let t := takeTrap s c k
    (x.active = true ∨ (x.active = false ∧ (∀ o ∈ x.ops, o.status ≠ .sent) ∧ s.frameLoc c n = none)) →
    (t.coreOf c).halted = true ∧ (t.coreOf c).running = false ∧ (t.coreOf c).pc = x.pc ∧ sameBytes s t ∧ otherDists c s t ∧
    (c ≠ 1023 → t.husks = s.husks ++ [{
      code := 0x09, region := true, elem := 520 * c + 493, plane := s.planeAt c
      name := if x.active = false ∧ k.cause = 0x15 then some (c, (x.pc &&& 0x3FFFC).setWidth 32, x.ecsn)
        else some (c, k.epc, k.eecsn) }]) ∧
    (c = 1023 → t.boot.state = 4 ∧ t.husks = s.husks)

/-- 08 R198, with 04 R93: a read of the frame comes behind the waiters that are due to be served before it. -/
def Obligations.TrapReturnResumes : Prop :=
  ∀ (s : State) (ord off : Nat),
    let x := s.cr
    let es := (List.range x.frameCount).filterMap (replayOp s s.core ord off)
    (x.active = false → traps s .sysTret 0x01) ∧
    let due := s.wakingSpan (elemAt s.core (tileIdx ord)) off (64 + 64 * x.frameCount) = true
    (x.active = true → s.frameLoc s.core (64 + 64 * x.frameCount) = some (ord, off) → due → exec .sysTret s = .next s) ∧
    (x.active = true → x.ops = [] → s.frameLoc s.core (64 + 64 * x.frameCount) = some (ord, off) → ¬ due →
      (es.all (·.isSome) = true →
        runsTo s .sysTret (fun t => onlyCore s.core s t ∧ t.cr.active = false ∧ t.cr.pc = x.trappc ∧
          (∀ i, i ≠ 32 → t.cr.trapcause.getLsbD i = x.trapcause.getLsbD i) ∧ t.cr.reissue.map some = es ∧
          { t.cr with trapcause := x.trapcause, pc := x.pc, reissue := x.reissue } = x)) ∧
      (es.all (·.isSome) = false → exec .sysTret s = .next (doubleTrap s s.core x.here x.ecsn)) ∧
      ((∀ i, i < x.frameCount → leNat (((s.dist s.core).tileRead ord (off + 64 + 64 * i + 8) 4)) < 2 ^ 31) →
        runsTo s .sysTret (fun t => t.cr.reissue = [])))

/-- 06 R120 and R124. The fall-through past the store is read as log 9 says (DEDUCED). -/
def Obligations.IllegalWordsAndFetchesTrap : Prop :=
  ∀ (s : State) (w : W32),
    let x := s.cr
    let entered (cause : Nat) (pc : Word) (t : State) := t.cr.pc = 0 ∧ t.cr.trappc = pc &&& 0x3FFFC ∧ t.cr.active = true ∧
      t.cr.trapcause.toNat % 2 ^ 8 = cause ∧ t.cr.g = x.g ∧ t.cr.c = x.c ∧ t.cr.k = x.k ∧ t.cr.flags = x.flags
    traps s (.illegalWord w) (if fld w 31 25 = 0x3D ∧ x.level1 = false then 0x02 else 0x01) ∧
    exec .fetchRange s = .next (syncTrap (s.setCr { x with past := false }) 0x03) ∧
    (∀ ord off, x.active = false → x.ops = [] → x.reissue = [] → s.frameLoc s.core 64 = some (ord, off) →
      s.wakingSpan (elemAt s.core (tileIdx ord)) off 64 = false →
      runsTo s (.illegalWord w) (entered (if fld w 31 25 = 0x3D ∧ x.level1 = false then 2 else 1) x.pc) ∧
      runsTo s .fetchRange (entered 3 x.pc))

/-- 08 R171, R199 and R200. -/
def Obligations.WaitIdleAndHalt : Prop :=
  ∀ (s : State) (l st c t : BitVec 6),
    let x := s.cr
    let within (n : Nat) (k : BitVec 6) := k = 63 ∨ n ≤ k.toNat
    let all := within x.ldc l ∧ within x.stc st ∧ within x.cpc c ∧ within x.toc t
    let zero := x.ldc = 0 ∧ x.stc = 0 ∧ x.cpc = 0 ∧ x.toc = 0
    (all → runsTo s (.wait l st c t) (fun u => movesOn s u)) ∧
    (¬ all → exec (.wait l st c t) s = .next s) ∧
    (x.sigQ ≠ [] ∨ x.doneQ ≠ [] ∨ x.pending ≠ [] ∨
      (∃ a b e f, x.idleSeen = some (a, b, e, f) ∧ (x.ldc < a ∨ x.stc < b ∨ x.cpc < e ∨ x.toc < f)) →
      runsTo s .sysIdle (fun u => onlyCore s.core s u ∧
        u.cr = { x with idleSeen := none }.advance 1)) ∧
    (zero → x.remote = false →
      runsTo s .sysHalt (fun u => u.cr = { x with halted := true, running := false, noInt := false } ∧
        (s.core = 1023 → onlyCore s.core s u))) ∧
    (zero → x.remote = true →
      exec .sysHalt s = .next (syncTrap (s.setCr { x with noInt := false }) 0x0E)) ∧
    (¬ zero → runsTo s .sysHalt (fun u => onlyCore s.core s u ∧ u.cr = { x with noInt := true }))

/-- 08 R170, R172 to R175 and 07 R164. That 64 unfinished instructions, those already sent included, leave no room is the
model's choice (log 123). -/
def Obligations.LoadsAndStoresIssue : Prop :=
  ∀ (s : State) (d a : BitVec 5) (k kd : BitVec 4) (f : BitVec 2) (o : BitVec 4),
    let x := s.cr
    let off := x.rdG a
    let cap := x.rdK k
    let pass (n : Nat) (need : BitVec 8) (f : BitVec 2) := capCause cap off.toNat n need = none ∧ off.toNat % n = 0 ∧
      (namesTiles cap → n ≠ 8 ∧ inOwnDistrict s off.toNat) ∧ (¬ namesTiles cap → f = 0) ∧ reaches s cap off
    let goes (i : Instr) (cls : OpClass) (d0 d1 : Word) (op : BitVec 4) (width : BitVec 2) (n : Nat) (f : BitVec 2)
        (operands : List W32) :=
      (i.wf = true → roomFor s cls → runsTo s i fun t =>
        issuedMem s t (nth 0 (encode i)) cls off d0 d1 cap 1 none ∧ t.cr.remote = x.remote ∧
        (x.ops = [] → x.trapping = none →
          (namesTiles cap → ∀ e ord at_, s.tileAddr s.core off.toNat = some (e, ord, at_) →
            (tgetD (tileIdx ord) (t.dist e).tiles).seqQ = (tgetD (tileIdx ord) (s.dist e).tiles).seqQ ++
              [{ op := op, feq := f, width := width, rep := false, offset := BitVec.ofNat 19 at_, operands := operands
                 origin := .seq x.opId }]) ∧
          (¬ namesTiles cap → ∃ q, (t.dist s.core).port.accessQ = (s.dist s.core).port.accessQ ++ [q] ∧
            q.obj = cap.extractLsb' 0 24 ∧ q.offset = off.setWidth 40 ∧ q.size = n ∧ q.rights = cap.extractLsb' 24 8 ∧
            q.issuer = .seq s.core ∧ q.op = x.opId ∧ q.write.isSome = (op == 1)))) ∧
      (¬ roomFor s cls → exec i s = .next s)
    let lo (v : Word) : W32 := v.setWidth 32
    let hi (v : Word) : W32 := v.extractLsb' 32 32
    let loads (i : Instr) (n : Nat) (width : BitVec 2) :=
      pass n ((1 : BitVec 8) ||| (if f = 0 then 0 else 8) ||| (if f = 2 then 2 else 0)) f → goes i .ldc (x.rdG d) 0 0 width n f []
    let stores (i : Instr) (n : Nat) (width : BitVec 2) (d1 : Word) (ws : List W32) :=
      pass n ((2 : BitVec 8) ||| (if f = 0 then 0 else 8)) f → goes i .stc (x.rdG d) d1 1 width n f ws
    loads (.memLdH d a k f o) 2 0 ∧ loads (.memLdHs d a k f o) 2 0 ∧ loads (.memLdW d a k f o) 4 1 ∧
    loads (.memLdWs d a k f o) 4 1 ∧ loads (.memLdD d a k f o) 8 2 ∧ loads (.memLdQ d a k f o) 16 2 ∧
    stores (.memStH d a k f o) 2 0 0 [lo (x.rdG d &&& 0xFFFF)] ∧ stores (.memStW d a k f o) 4 1 0 [lo (x.rdG d)] ∧
    stores (.memStD d a k f o) 8 2 0 [] ∧
    stores (.memStQ d a k f o) 16 2 (x.rdG (d + 1)) [lo (x.rdG d), hi (x.rdG d), lo (x.rdG (d + 1)), hi (x.rdG (d + 1))] ∧
    (pass 16 1 0 → goes (.capLd kd k a) .ldc 0 0 0 2 16 0 []) ∧
    (pass 16 2 0 → (x.rdK kd).getLsbD 31 = true →
      let v0 : Word := (x.rdK kd).extractLsb' 0 64
      let v1 : Word := (x.rdK kd).extractLsb' 64 64
      goes (.capSt kd k a) .stc v0 v1 1 2 16 0 [lo v0, hi v0, lo v1, hi v1])

/-- 08 R170, R173, R174, R176 and R177, with Tables K-28, K-81 and K-82. The model's choices: a remote store asks for
a reply (log 35), 64 unfinished instructions, those already sent included, leave no room (log 123), and a request's tokens
carry a tag that names it (log 8). -/
def Obligations.RemoteRequestsAndUpdatesIssue : Prop :=
  ∀ (s : State) (d a : BitVec 5) (k : BitVec 4) (f : BitVec 2) (o : BitVec 4), onDistrict s →
    let x := s.cr
    let off := x.rdG a
    let v := x.rdG d
    let cap := x.rdK k
    let pass (n : Nat) (need : BitVec 8) := capCause cap off.toNat n need = none ∧ off.toNat % n = 0 ∧ namesTiles cap ∧
      (s.tileAddr s.core off.toNat).isSome = true
    let slot := 520 * s.core + 493
    let ch : BitVec 5 := BitVec.ofNat 5 (s.planeField s.core 493 0 32 16)
    let rch : BitVec 5 := BitVec.ofNat 5 (s.planeField s.core 493 0 33 24)
    let link := s.planeField s.core 493 0 34 0
    let tok (kind : BitVec 3) (w : W32) : Nat × Token :=
      (link, { kind := kind, channel := ch, data := w, tag := some (s.core, x.opId) })
    let rest (op : BitVec 4) (width : BitVec 2) (rep : BitVec 1) : W32 :=
      (((((op ++ f : BitVec 6) ++ width : BitVec 8) ++ rep : BitVec 9) ++ (0 : BitVec 4) : BitVec 13) ++
        (off.setWidth 19 : BitVec 19) : BitVec 32)
    let route : W32 := (((15 : BitVec 4) ++ rch : BitVec 9) ++ ((0 : BitVec 5) ++ (off.extractLsb' 19 18 : BitVec 18) : BitVec 23))
    let goes (i : Instr) (cls : OpClass) (d1 : Word) (op : BitVec 4) (width : BitVec 2) (rep : BitVec 1) (far : Prop)
        (operands : List W32) :=
      (i.wf = true → roomFor s cls → runsTo s i fun t =>
        issuedMem s t (nth 0 (encode i)) cls off v d1 cap 1 none ∧ (far → t.cr.remote = true) ∧
        (x.ops = [] → x.trapping = none →
          (far → s.outOf slot = [] → s.room slot link ch.toNat = false →
            t.outOf slot = [tok 1 route, tok 1 (rest op width rep)] ++ operands.map (tok 0)) ∧
          (¬ far → ∀ e ord at_, s.tileAddr s.core off.toNat = some (e, ord, at_) →
            t.cr.remote = x.remote ∧
            (tgetD (tileIdx ord) (t.dist e).tiles).seqQ = (tgetD (tileIdx ord) (s.dist e).tiles).seqQ ++
              [{ op := op, feq := f, width := width, rep := rep == 1, offset := BitVec.ofNat 19 at_, operands := operands
                 origin := .seq x.opId }]))) ∧
      (¬ roomFor s cls → exec i s = .next s)
    let lo (v : Word) : W32 := v.setWidth 32
    let hi (v : Word) : W32 := v.extractLsb' 32 32
    let loads (i : Instr) (n : Nat) (width : BitVec 2) :=
      pass n ((1 : BitVec 8) ||| (if f = 0 then 0 else 8) ||| (if f = 2 then 2 else 0)) → goes i .ldc 0 0 width 0 True []
    let stores (i : Instr) (n : Nat) (width : BitVec 2) (d1 : Word) (ws : List W32) :=
      pass n ((2 : BitVec 8) ||| (if f = 0 then 0 else 8)) → goes i .stc d1 1 width 1 True ws
    let updates (i : Instr) (op : BitVec 4) (n : Nat) (width : BitVec 2) (ret : Bool) (ws : List W32) :=
      pass n (if ret then 7 else 6) → goes i .toc 0 op width (if ret then 1 else 0) (¬ inOwnDistrict s off.toNat) ws
    let never (i : Instr) (need : BitVec 8) :=
      capCause cap off.toNat 8 need = none → off.toNat % 8 = 0 → traps s i 0x08 (if namesTiles cap then 2 else 5) off
    let w := [lo v]
    loads (.rmemLdH d a k f o) 2 0 ∧ loads (.rmemLdHs d a k f o) 2 0 ∧ loads (.rmemLdW d a k f o) 4 1 ∧
    loads (.rmemLdWs d a k f o) 4 1 ∧ loads (.rmemLdQ d a k f o) 16 2 ∧
    stores (.rmemStH d a k f o) 2 0 0 [lo (v &&& 0xFFFF)] ∧ stores (.rmemStW d a k f o) 4 1 0 w ∧
    stores (.rmemStQ d a k f o) 16 2 (x.rdG (d + 1)) [lo v, hi v, lo (x.rdG (d + 1)), hi (x.rdG (d + 1))] ∧
    never (.rmemLdD d a k f o) ((1 : BitVec 8) ||| (if f = 0 then 0 else 8) ||| (if f = 2 then 2 else 0)) ∧
    never (.rmemStD d a k f o) ((2 : BitVec 8) ||| (if f = 0 then 0 else 8)) ∧
    updates (.amoAdd d a k f o) 2 4 1 true w ∧ updates (.amoMin d a k f o) 3 4 1 true w ∧
    updates (.amoMax d a k f o) 4 4 1 true w ∧ updates (.amoAmax d a k f o) 5 4 1 true w ∧
    updates (.amoAmaxr d a k f o) 6 4 1 true [] ∧ updates (.amoFaddW d a k f o) 7 4 1 true w ∧
    updates (.amoFaddH d a k f o) 7 2 0 true [lo (v &&& 0xFFFF)] ∧ updates (.amoAnd d a k f o) 8 4 1 true w ∧
    updates (.amoOr d a k f o) 9 4 1 true w ∧ updates (.amoXchg d a k f o) 10 4 1 true w ∧
    updates (.amoCas d a k f o) 11 4 1 true [lo v, hi v] ∧
    updates (.amoAddPosted d a k f o) 2 4 1 false w ∧ updates (.amoMinPosted d a k f o) 3 4 1 false w ∧
    updates (.amoMaxPosted d a k f o) 4 4 1 false w ∧ updates (.amoAmaxPosted d a k f o) 5 4 1 false w ∧
    updates (.amoFaddWPosted d a k f o) 7 4 1 false w ∧ updates (.amoFaddHPosted d a k f o) 7 2 0 false [lo (v &&& 0xFFFF)] ∧
    updates (.amoAndPosted d a k f o) 8 4 1 false w ∧ updates (.amoOrPosted d a k f o) 9 4 1 false w

/-- 08 R173: the order of the checks; with them those of 08 R177 for amo and of 07 Table K-69 and R164 for cap.ld and cap.st. -/
def Obligations.MemoryChecksTrapInOrder : Prop :=
  ∀ (s : State) (d a : BitVec 5) (k : BitVec 4) (f : BitVec 2) (o : BitVec 4),
    let off := s.cr.rdG a
    let cap := s.cr.rdK k
    let ld : BitVec 8 := 1 ||| (if f = 0 then 0 else 8) ||| (if f = 2 then 2 else 0)
    let st : BitVec 8 := 2 ||| (if f = 0 then 0 else 8)
    let checks (i : Instr) (n : Nat) (need : BitVec 8) (remote : Bool) :=
      (∀ cause, capCause cap off.toNat n need = some cause → traps s i cause 0 off) ∧
      (capCause cap off.toNat n need = none →
        (off.toNat % n ≠ 0 → traps s i 0x08 1 off) ∧
        (off.toNat % n = 0 →
          (namesTiles cap → (n = 8 → traps s i 0x08 2 off) ∧
            (n ≠ 8 → remote = false → ¬ inOwnDistrict s off.toNat → traps s i 0x08 4 off)) ∧
          (¬ namesTiles cap → (remote = true → traps s i 0x08 5 off) ∧
            (remote = false → f ≠ 0 → traps s i 0x08 3 off))))
    checks (.memLdH d a k f o) 2 ld false ∧ checks (.memLdHs d a k f o) 2 ld false ∧ checks (.memLdW d a k f o) 4 ld false ∧
    checks (.memLdWs d a k f o) 4 ld false ∧ checks (.memLdD d a k f o) 8 ld false ∧ checks (.memLdQ d a k f o) 16 ld false ∧
    checks (.memStH d a k f o) 2 st false ∧ checks (.memStW d a k f o) 4 st false ∧ checks (.memStD d a k f o) 8 st false ∧
    checks (.memStQ d a k f o) 16 st false ∧
    (onDistrict s →
      checks (.rmemLdH d a k f o) 2 ld true ∧ checks (.rmemLdHs d a k f o) 2 ld true ∧ checks (.rmemLdW d a k f o) 4 ld true ∧
      checks (.rmemLdWs d a k f o) 4 ld true ∧ checks (.rmemLdD d a k f o) 8 ld true ∧
      checks (.rmemLdQ d a k f o) 16 ld true ∧ checks (.rmemStH d a k f o) 2 st true ∧ checks (.rmemStW d a k f o) 4 st true ∧
      checks (.rmemStD d a k f o) 8 st true ∧ checks (.rmemStQ d a k f o) 16 st true) ∧
    (let update (i : Instr) (n : Nat) (need : BitVec 8) :=
      (∀ cause, capCause cap off.toNat n need = some cause → traps s i cause 0 off) ∧
      (capCause cap off.toNat n need = none →
        (off.toNat % n ≠ 0 → traps s i 0x08 1 off) ∧
        (off.toNat % n = 0 → ¬ namesTiles cap → traps s i 0x08 5 off))
     (∀ i ∈ ([.amoAdd d a k f o, .amoMin d a k f o, .amoMax d a k f o, .amoAmax d a k f o, .amoAmaxr d a k f o,
        .amoFaddW d a k f o, .amoAnd d a k f o, .amoOr d a k f o, .amoXchg d a k f o, .amoCas d a k f o] : List Instr),
        update i 4 7) ∧ update (.amoFaddH d a k f o) 2 7 ∧
     (∀ i ∈ ([.amoAddPosted d a k f o, .amoMinPosted d a k f o, .amoMaxPosted d a k f o, .amoAmaxPosted d a k f o,
        .amoFaddWPosted d a k f o, .amoAndPosted d a k f o, .amoOrPosted d a k f o] : List Instr), update i 4 6) ∧
     update (.amoFaddHPosted d a k f o) 2 6) ∧
    ∀ kd : BitVec 4,
      let moves (i : Instr) (need : BitVec 8) (held : Prop) :=
        (∀ cause, capCause cap off.toNat 16 need = some cause → traps s i cause 0 off) ∧
        (capCause cap off.toNat 16 need = none →
          (¬ held → traps s i 0x05 0 off) ∧
          (held → off.toNat % 16 ≠ 0 → traps s i 0x06 0 off) ∧
          (held → off.toNat % 16 = 0 → namesTiles cap → ¬ inOwnDistrict s off.toNat → traps s i 0x08 4 off))
      moves (.capLd kd k a) 1 True ∧ moves (.capSt kd k a) 2 ((s.cr.rdK kd).getLsbD 31 = true)

/-- 08 R178 to R181 and 05 R114. That fence.elem moves on in every state is the model's reading (log 98). -/
def Obligations.FencesAndBarriersIssue : Prop :=
  ∀ (s : State) (a b : BitVec 5),
    let x := s.cr
    let fences (i : Instr) :=
      ((∀ o ∈ x.ops, o.status = .errored) → runsTo s i (fun t => movesOn s t)) ∧
      ((∃ o ∈ x.ops, o.status ≠ .errored) → runsTo s i (fun t => onlyCore s.core s t ∧ t.cr = { x with noInt := true }))
    let becomes (i : Instr) (y : Core) := runsTo s i fun t => onlyCore s.core s t ∧ t.cr = y
    let g : BitVec 4 := (x.rdG a).setWidth 4
    let n := (x.rdG b).toNat % 1024
    runsTo s .syncFenceElem (fun t => movesOn s t) ∧ fences .syncFenceRegion ∧ fences .syncFenceDie ∧
    fences .syncFenceModule ∧ fences .syncFenceSystem ∧
    (onDistrict s →
      (x.barDone = true → becomes .syncRbar ({ x with barDone := false }.advance 1)) ∧
      (x.barDone = false → becomes .syncRbar { x with barArrived := true }) ∧
      (n = 0 → traps s (.syncPhbar a b) 0x01) ∧
      (n ≠ 0 → g ∈ x.phDone →
        becomes (.syncPhbar a b) ({ x with phDone := x.phDone.erase g }.advance 1)) ∧
      (n ≠ 0 → g ∉ x.phDone → g ∈ x.phArrived → exec (.syncPhbar a b) s = .next s) ∧
      (∀ r, s.regionAt s.core = some r → n ≠ 0 → g ∉ x.phDone → g ∉ x.phArrived →
        runsTo s (.syncPhbar a b) (fun t => t.cr = { x with phArrived := x.phArrived ++ [g] } ∧ sameBytes s t ∧
          otherDists s.core s t ∧
          ∃ p, t.regionAt s.core = some { r with phase := p } ∧ tgetD g.toNat p = tgetD g.toNat r.phase ++ [(s.core, n)] ∧
            ∀ h, h ≠ g.toNat → tget h p = tget h r.phase)) ∧
      (∀ r, s.regionAt s.core = some r →
        (r.districts.head? ≠ some s.core → r.districts ≠ [] → traps s (.syncSparge a) 0x0F) ∧
        (r.districts.head? = some s.core →
          (x.spargeDone = true →
            becomes (.syncSparge a) ({ x with spargeDone := false, spargeWait := none }.advance 1)) ∧
          (x.spargeDone = false → x.step ≠ none → traps s (.syncSparge a) 0x0A) ∧
          (x.spargeDone = false → x.step = none → x.spargeWait = none →
            becomes (.syncSparge a) { x with spargeWait := some ((x.rdG a).setWidth 2) }))))

/-- 08 R183, R184 and R187. The model's own choices here: START + g[ga] is taken modulo 2^64 (log 40), a pbar to no port is
STREAM sub 2 (log 41), a bind waits while earlier accesses are unfinished (log 99), a dld reaches any tile of the region
(log 39), or an object where k0 names one (log 155), and a misaligned image traps MEM_FORM sub 1, after capchk (log 153). -/
def Obligations.StreamInstructionsIssue : Prop :=
  ∀ (s : State) (dsc : BitVec 4) (ch a : BitVec 5) (die : BitVec 4) (row : BitVec 7) (col : BitVec 8) (port : BitVec 3),
    onDistrict s →
    let x := s.cr
    let off := x.rdG a
    let bind : Instr := .strmBind dsc ch a die row col port
    let pbar : Instr := .strmPbar die row col port
    let target := s.strmTarget die row col port
    let waiting := ∃ o ∈ x.ops, o.dld = some dsc
    let room (e p : Nat) := (s.scoreOf e p).length < 4 ∧ e % 520 ∉ (s.dist (e / 520)).sealed
    (capCause (x.rdK 0) off.toNat 64 1 = none → off.toNat % 16 = 0 → reaches s (x.rdK 0) off →
      roomFor s .ldc →
      runsTo s (.strmDld dsc a) fun t =>
        issuedMem s t (nth 0 (encode (.strmDld dsc a))) .ldc off 0 0 (x.rdK 0) 2 (some dsc)) ∧
    (∀ c, capCause (x.rdK 0) off.toNat 64 1 = some c → traps s (.strmDld dsc a) c 0 off) ∧
    (capCause (x.rdK 0) off.toNat 64 1 = none → off.toNat % 16 ≠ 0 → traps s (.strmDld dsc a) 0x08 1 off) ∧
    (waiting → exec bind s = .next s ∧ exec (.strmDinv dsc) s = .next s) ∧
    (¬ waiting → runsTo s (.strmDinv dsc) fun t => onlyCore s.core s t ∧ t.cr.rdD dsc = none ∧
      (∀ i, i ≠ dsc → t.cr.rdD i = x.rdD i) ∧ t.cr = { x with d := t.cr.d }.advance 2) ∧
    (¬ waiting → x.rdD dsc = none → traps s bind 0x10 1) ∧
    (∀ d, ¬ waiting → x.rdD dsc = some d →
      let st := (d.start.setWidth 64 + off).toNat
      let q : Descriptor := { d with start := BitVec.ofNat 40 st }
      let need : BitVec 8 := (if d.dir = 0 then 1 else 2) ||| 16
      let inBounds := (capBase d.cap).toNat ≤ q.low st ∧ q.high st ≤ (capLimit d.cap).toNat
      let passes := capWellFormed d.cap = true ∧ capRights d.cap &&& need = need ∧ inBounds
      (target = none → traps s bind 0x10 2) ∧
      (∀ e p, target = some (e, p) →
        (capWellFormed d.cap = false → traps s bind 0x04) ∧
        (capWellFormed d.cap = true → capRights d.cap &&& need ≠ need → traps s bind 0x05) ∧
        (capWellFormed d.cap = true → capRights d.cap &&& need = need → ¬ inBounds → traps s bind 0x06) ∧
        (passes → p = 5 → (namesTiles d.cap ∨ d.fe ≠ 0) → traps s bind 0x10 3) ∧
        (passes → p ≠ 5 → s.patternFits e p q = false → traps s bind 0x10 4) ∧
        (passes → p ≠ 5 → s.patternFits e p q = true → s.planeField (e / 520) (e % 520) 0 (12 * p) 0 ≠ 1 →
          traps s bind 0x10 5) ∧
        (passes → (p = 5 → ¬ namesTiles d.cap ∧ d.fe = 0) →
          (p ≠ 5 → s.patternFits e p q = true ∧ s.planeField (e / 520) (e % 520) 0 (12 * p) 0 = 1) →
          (free s .cpc → room e p → runsTo s bind fun t => commanded s t .cpc 2 ∧
            t.scoreOf e p = s.scoreOf e p ++ [{ desc := q, chan := ch, core := s.core, pc := x.here, ecsn := x.ecsn + 1
                                                plane := s.planeAt s.core }]) ∧
          (¬ free s .cpc ∨ 4 ≤ (s.scoreOf e p).length → exec bind s = .next s)))) ∧
    (target = none → traps s pbar 0x10 2) ∧
    (∀ e p, target = some (e, p) → room e p → runsTo s pbar fun t =>
      t.cr = x.advance 2 ∧ sameBytes s t ∧ { t with districts := s.districts } = s ∧
      t.scoreOf e p = s.scoreOf e p ++ [{ bar := true, core := s.core, pc := x.here, ecsn := x.ecsn
                                          plane := s.planeAt s.core }])

/-- 08 R188 to R191 with Tables K-87 and K-88, and 10 Table K-127. The model's own choices here: the command under way is one
of the queue's four (log 42), and a command waits while earlier accesses are unfinished (log 99). -/
def Obligations.EngineCommandsIssue : Prop :=
  ∀ (s : State) (a b : BitVec 5), onDistrict s →
    let x := s.cr
    let here := s.dist s.core
    let w := x.rdG a
    let v := x.rdG b
    let n := w.toNat
    let m := v.toNat
    let unit (i : Nat) := 26 * i + 25 ∉ here.sealed
    let goes (i : Instr) (cls : OpClass) (ok : Prop) (sub : BitVec 8) (u : Nat) (queue : District → List EngCmd)
        (c : EngCmd) :=
      (ok → free s cls → (queue here).length < 4 → unit u → runsTo s i fun t => commanded s t cls 1 ∧
        otherDists s.core s t ∧ queue (t.dist s.core) = queue here ++ [asQueued s c]) ∧
      (ok → (¬ free s cls ∨ 4 ≤ (queue here).length) → exec i s = .next s) ∧
      (¬ ok → traps s i 0x11 sub)
    let granted := ∃ r, s.regionAt s.core = some r ∧
      let p := (tgetD r.part.toNat s.parts).ws.toNat
      2 ^ 63 ≤ p ∧ p % 2 ^ 18 * 65536 ≤ n ∧ n + 4096 ≤ p % 2 ^ 18 * 65536 + p / 2 ^ 32 % 2 ^ 18 * 65536
    let asked (i : BitVec 4) : Prop := ∃ o ∈ x.ops, o.dld = some i
    let usable (q : Descriptor) (dir : BitVec 2) := q.dir = dir ∧ (namesTiles q.cap ∨ q.fe = 0)
    let si : BitVec 4 := w.setWidth 4
    let di : BitVec 4 := w.extractLsb' 4 4
    let words : EngCmd := { cmd := w, arg := v }
    (∀ u : BitVec 3,
      goes (.engSteep u a) .cpc (granted ∧ n % 64 = 0) 2 u.toNat (fun y => (tgetD u.toNat y.mns).steepQ) { cmd := w } ∧
      goes (.engMtok u a) .toc (n < 2 ^ 32) 1 u.toNat (fun y => (tgetD u.toNat y.mns).mtokQ) { cmd := w }) ∧
    (∀ u : BitVec 2, goes (.engRo u a b) .toc ((n % 16 = 1 ∧ n < 2 ^ 15 ∧ m < 2 ^ 60) ∨ (n = 2 ∧ m = 0)) 1 (8 + u.toNat)
      (fun y => (tgetD (8 + u.toNat) y.ros).queue) words) ∧
    (∀ u : BitVec 1,
      goes (.engSel u a b) .toc ((n % 16 = 1 ∧ n < 32 ∧ m < 2 ^ 12) ∨ ((n % 16 = 2 ∨ n % 16 = 3) ∧ n < 32 ∧ m < 2 ^ 32) ∨
        (n = 4 ∧ m = 0)) 1 (12 + u.toNat) (fun y => (tgetD (12 + u.toNat) y.sels).queue) words ∧
      goes (.engMon u a b) .toc ((n = 1 ∧ m < 2 ^ 8) ∨ (n = 2 ∧ m = 0) ∨
        ((n % 16 = 3 ∨ n % 16 = 4 ∨ n % 16 = 5) ∧ n < 2 ^ 7 ∧ m < 2 ^ 32) ∨ (n % 16 = 6 ∧ n < 2 ^ 8 ∧ m = 0) ∨
        (n % 16 = 7 ∧ n < 2 ^ 7 ∧ m = 0)) 1 (14 + u.toNat) (fun y => (tgetD (14 + u.toNat) y.mons).queue) words) ∧
    (¬ asked si → ¬ asked di →
      (2 ^ 11 ≤ n → traps s (.engCopy a) 0x11 1) ∧
      (n < 2 ^ 11 → ¬ (∃ p q, x.rdD si = some p ∧ x.rdD di = some q ∧ usable p 0 ∧ usable q 1) → traps s (.engCopy a) 0x11 3) ∧
      (∀ p q, n < 2 ^ 11 → x.rdD si = some p → x.rdD di = some q → usable p 0 → usable q 1 →
        (∀ c, p.check p.start.toNat = some c → traps s (.engCopy a) c) ∧
        (∀ c, p.check p.start.toNat = none → q.check q.start.toNat = some c → traps s (.engCopy a) c) ∧
        (p.check p.start.toNat = none → q.check q.start.toNat = none →
          (p.fmt ≠ q.fmt → (8 ≤ p.fmt.toNat ∨ 8 ≤ q.fmt.toNat) → traps s (.engCopy a) 0x11 5) ∧
          (p.fmt = q.fmt → p.elements ≠ q.elements → traps s (.engCopy a) 0x11 4) ∧
          (p.fmt ≠ q.fmt → p.fmt.toNat < 8 → q.fmt.toNat < 8 → p.values ≠ q.values → traps s (.engCopy a) 0x11 4) ∧
          ((if p.fmt = q.fmt then p.elements = q.elements else p.fmt.toNat < 8 ∧ q.fmt.toNat < 8 ∧ p.values = q.values) →
            free s .cpc → here.copier.queue.length < 4 → 520 ∉ here.sealed →
            runsTo s (.engCopy a) fun t => commanded s t .cpc 1 ∧ otherDists s.core s t ∧
              (t.dist s.core).copier.queue =
                here.copier.queue ++ [asQueued s { cmd := w, src := some p, dst := some q }])))) ∧
    (∀ (u : BitVec 1) (p : Descriptor), n % 16 = 1 → m = 0 → ¬ asked (w.extractLsb' 4 4) →
      x.rdD (w.extractLsb' 4 4) = some p → usable p 0 → p.esz = 0 → p.check p.start.toNat = none → free s .cpc →
      (tgetD (16 + u.toNat) here.decs).queue.length < 4 → unit (16 + u.toNat) →
      (2 ^ 12 ≤ n → n < 2 ^ 13 → n / 2 ^ 8 % 2 ^ 4 = 0 → runsTo s (.engDec u a b) fun t => commanded s t .cpc 1 ∧
        (tgetD (16 + u.toNat) (t.dist s.core).decs).queue =
          (tgetD (16 + u.toNat) here.decs).queue ++ [asQueued s { cmd := w, arg := v, src := some p }]) ∧
      (∀ q, n < 2 ^ 12 → ¬ asked (w.extractLsb' 8 4) → x.rdD (w.extractLsb' 8 4) = some q → usable q 1 → q.esz = 0 →
        q.check q.start.toNat = none → runsTo s (.engDec u a b) fun t => commanded s t .cpc 1 ∧
          (tgetD (16 + u.toNat) (t.dist s.core).decs).queue =
            (tgetD (16 + u.toNat) here.decs).queue ++ [asQueued s { cmd := w, arg := v, src := some p, dst := some q }]))

/-- 08 R192 and the first check of R385. Bits [63:37] of g[gb], and of a remap table's register, are dropped: the model's choice
(log 152). -/
def Obligations.RotationCommandsIssue : Prop :=
  ∀ (s : State) (d a b : BitVec 5), onDistrict s →
    let x := s.cr
    let v := x.rdG a
    let n := v.toNat
    let r := x.rdG b
    let m := x.rdG d
    let identity := m.getLsbD 37
    let aligned (w : Word) := w.toNat % 16 = 0
    let heads (t : State) (e : Nat) := (tgetD (e % 520) (t.dist (e / 520)).pes).head.queue
    let names (e : Nat) := ∃ g, s.regionAt s.core = some g ∧ e / 520 ∈ g.districts ∧
      elemOf (n / 2 ^ 24 % 16) (n / 2 ^ 16 % 128) (n % 256) = some e ∧ idxKind (e % 520) = .pe
    let goes (i : Instr) (j : RackJob) :=
      free s .toc →
      (∀ e, names e → runsTo s i fun t => commanded s t .toc 1 ∧ ∃ bad, heads t e = heads s e ++
        [{ j with badBits := bad, core := s.core, pc := x.here, ecsn := x.ecsn + 1 }] ∧
        (bad = true ↔ ∃ k, k < 64 ∧ (0x0F7F00FF : Word).getLsbD k = false ∧ v.getLsbD k = true)) ∧
      ((∀ e, ¬ names e) → runsTo s i fun t => t.cr.toc = x.toc + 1 ∧ t.cr.ecsn = x.ecsn + 1 ∧ movedOn x t.cr 1 ∧
        t.cr.g = x.g ∧ t.cr.k = x.k ∧ sameBytes s t ∧
        t.cr.inbox = x.inbox ++ [{ counter := .toc, cause := some { cause := 0x13, sub := 5, epc := x.here
                                                                    eecsn := x.ecsn + 1 } }])
    (¬ aligned r → traps s (.rackSave a b) 0x08 1 ∧ traps s (.rackLoad d a b) 0x08 1) ∧
    (identity = false → ¬ aligned m → traps s (.rackLoad d a b) 0x08 1) ∧
    (aligned r → goes (.rackSave a b) { addr := r.setWidth 37 }) ∧
    (aligned r → identity = true ∨ aligned m → goes (.rackLoad d a b)
      { load := true, addr := r.setWidth 37, remap := if identity then none else some (m.setWidth 37)
        slots := m.toNat / 2 ^ 56 % 128 })

/-- 08 R193 with Table K-90; 16 R312; 22 R378. -/
def Obligations.SchedulerInstructions : Prop :=
  ∀ (s : State) (d a b : BitVec 5) (r : Region), onDistrict s → s.regionAt s.core = some r →
    let x := s.cr
    let v := x.rdG a
    let e := v.toNat
    let moved := x.advance 1
    let entry (t : State) (off n : Nat) := mgetN (128 * e + off) n t.sched
    let valid := 2 ^ 31 ≤ entry s 0 4
    let mine := entry s 0 4 / 2 ^ 16 % 64 = r.part.toNat
    let k := (x.rdG b).toNat
    (4096 ≤ e ∨ ¬ valid → traps s (.schedPitch a) 0x14 1) ∧
    (e < 4096 → valid → ¬ mine → traps s (.schedPitch a) 0x14 2) ∧
    (e < 4096 → valid → mine → 62 ≤ x.toc → exec (.schedPitch a) s = .next s) ∧
    (e < 4096 → valid → mine → x.toc < 62 → runsTo s (.schedPitch a) fun t =>
      t.cr = { moved with toc := x.toc + 1, inbox := x.inbox ++ [{ counter := .toc }] } ∧ otherDists s.core s t ∧
      (∀ p, (∀ i, p ≠ .sched i) → t.byteAt p = s.byteAt p) ∧
      (∀ i, (i < 128 * e ∨ 128 * e + 128 ≤ i) → mget i t.sched = mget i s.sched) ∧
      (2 ≤ entry s 6 2 → entry t 6 2 = entry s 6 2 - 1 ∧ t.hostif.waiting = s.hostif.waiting) ∧
      (entry s 6 2 ≤ 1 → entry t 6 2 = entry s 4 2 ∧
        (s.hasInstance e = false → t.hostif.waiting = s.hostif.waiting ++ [{ entry := e }]))) ∧
    ((e < 1 ∨ 4 < e) → traps s (.schedClaim a) 0x14 3) ∧
    (1 ≤ e → e ≤ 4 → runsTo s (.schedClaim a) fun t => t.cr = moved ∧ otherDists s.core s t ∧ sameBytes s t ∧
      t.regionAt s.core = some { r with want := e } ∧ { t with districts := s.districts, regions := s.regions } = s) ∧
    runsTo s (.schedLevel d) (fun t => writesG s t d (BitVec.ofNat 64 (r.level + 256 * r.permits)) 1) ∧
    (4 ≤ k → traps s (.schedPerfsel a b) 0x14 4) ∧
    (∀ h : k < 4, runsTo s (.schedPerfsel a b) fun t => t.cr = moved ∧ otherDists s.core s t ∧ sameBytes s t ∧
      (t.dist s.core).perf[k] = 0 ∧ (t.dist s.core).perfSel[k] = v.setWidth 16 ∧
      ∀ j : Fin 4, j.val ≠ k → (t.dist s.core).perfSel[j] = (s.dist s.core).perfSel[j])

/-- 19 R351 with Table D-28, R353 and R364. -/
def Obligations.ManagementInstructions : Prop :=
  ∀ (s : State) (d : BitVec 5) (n : BitVec 8),
    let x := s.cr
    let v := (x.rdG d).toNat
    let k := v % 1024
    let w := x.rdG (d + 1)
    let moved := x.advance 1
    let block := mgets (v / 2 ^ 19 * 2 ^ 19 + v % 2 ^ 19) 64 (s.dist 1023).tileMem
    let inTile := v / 2 ^ 19 < 4 ∧ v % 2 ^ 19 + 64 ≤ 0x60000
    (x.level1 = false → traps s (.mgmtDrd d n) 0x02 ∧ traps s (.mgmtDwr d n) 0x02 ∧ traps s (.mgmtSint d) 0x02 ∧
      traps s (.mgmtCrypto d) 0x02) ∧
    (x.level1 = true →
      (640 ≤ v → runsTo s (.mgmtDrd d n) fun t => writesG s t d (-1) 1) ∧
      (v < 640 → n ∉ [0x00#8, 0x01, 0x02, 0x08, 0x09, 0x0A] → runsTo s (.mgmtDrd d n) fun t => writesG s t d 0 1) ∧
      (v < 640 → runsTo s (.mgmtDrd d 0x00) (fun t => writesG s t d ((s.distReg v).temp.setWidth 64) 1) ∧
        runsTo s (.mgmtDrd d 0x01) (fun t => writesG s t d ((s.distReg v).mv.setWidth 64) 1) ∧
        runsTo s (.mgmtDrd d 0x02) (fun t => writesG s t d ((s.distReg v).ring.setWidth 64) 1) ∧
        runsTo s (.mgmtDrd d 0x08) (fun t => writesG s t d
          (BitVec.ofNat 64 ((s.distReg v).step + 2 ^ 8 * (s.distReg v).fwstep.toNat)) 1) ∧
        (∀ r, s.regionAt v = some r → runsTo s (.mgmtDrd d 0x09) fun t => writesG s t d
          (BitVec.ofNat 64 (r.level + 2 ^ 4 * r.want + 2 ^ 8 * r.permits)) 1) ∧
        (s.regionAt v = none → runsTo s (.mgmtDrd d 0x09) fun t => writesG s t d (BitVec.ofNat 64
          ((s.distReg v).grant.toNat + 2 ^ 4 * (s.distReg v).want.toNat + 2 ^ 8 * (s.distReg v).permits.toNat)) 1) ∧
        runsTo s (.mgmtDrd d 0x0A) (fun t => writesG s t d ((s.distReg v).allot.setWidth 64) 1)) ∧
      (k < 640 → runsTo s (.mgmtDwr d 0x08) (fun t => t.cr = moved ∧ sameBytes s t ∧
          t.distReg k = { s.distReg k with fwstep := w.extractLsb' 8 3 } ∧
          (∀ j, j ≠ k → t.distReg j = s.distReg j) ∧ { t with districts := s.districts, regs := s.regs } = s) ∧
        runsTo s (.mgmtDwr d 0x0A) (fun t => t.cr = moved ∧ sameBytes s t ∧
          t.distReg k = { s.distReg k with allot := w.setWidth 24 } ∧ (∀ j, j ≠ k → t.distReg j = s.distReg j))) ∧
      ((n ≠ 0x08 ∧ n ≠ 0x0A) ∨ 640 ≤ k → runsTo s (.mgmtDwr d n) fun t => movesOn s t) ∧
      (640 ≤ k → runsTo s (.mgmtSint d) fun t => movesOn s t) ∧
      (k < 640 → k ≠ s.core → runsTo s (.mgmtSint d) fun t => t.cr = moved ∧ sameBytes s t ∧
        t.coreOf k = { s.coreOf k with pending := (s.coreOf k).pending ++ [{ cause := 0x15, sub := 1 }] } ∧
        ∀ j, j ≠ k → j ≠ s.core → t.dist j = s.dist j) ∧
      (s.boot.cbusy.isSome = true → exec (.mgmtCrypto d) s = .next s) ∧
      (s.boot.cbusy = none → runsTo s (.mgmtCrypto d) fun t => t.cr = moved ∧ otherDists s.core s t ∧ sameBytes s t ∧
        (v % 16 ≠ 0 → t.boot = { s.boot with cerr := 1 }) ∧
        (v % 16 = 0 → ¬ inTile → t.boot = { s.boot with cerr := 2 }) ∧
        (v % 16 = 0 → inTile → cryptoErr s block = 0 → t.boot = { s.boot with cbusy := some block }) ∧
        (v % 16 = 0 → inTile → cryptoErr s block ≠ 0 → t.boot.cbusy = none ∧ t.boot.cerr.toNat = cryptoErr s block)))

/-- 08 R170, R172, R174 to R176, R182 and R183; 07 R164. Of a descriptor image the model reads one granule at a time (05
R109), through the PORT where k0 names an object (log 155), and takes k[KREG] at the last reply (log 154). -/
def Obligations.RepliesFinishInstructions : Prop :=
  ∀ (s : State) (c link ch : Nat) (o : MemOp) (i : Instr) (d a : BitVec 5) (k kd : BitVec 4) (f : BitVec 2) (q : BitVec 4)
    (w0 w1 w2 w3 : W32),
    let x := s.coreOf c
    let lo (v : W32) : W32 := v &&& 0xFFFF
    let long (u v : W32) : Word := v ++ u
    o ∈ x.ops → x.ops.Pairwise (·.id ≠ ·.id) → (∀ p ∈ x.ops, p.status = .sent) → x.trapping = none →
    o.word = nth 0 (encode i) → i.wf = true →
    let left (t : State) := (t.coreOf c).ops = x.ops.filter (·.id ≠ o.id) ∧ (t.coreOf c).pc = x.pc ∧
      (o.dld = none → (t.coreOf c).d = x.d) ∧ (t.coreOf c).c = x.c ∧ (t.coreOf c).flags = x.flags ∧ (t.coreOf c).cpc = x.cpc ∧
      sameBytes s t
    let wrote (t : State) (g : BitVec 5 → Word) := left t ∧ (t.coreOf c).k = x.k ∧ ∀ n, (t.coreOf c).rdG n = g n
    let one (v : Word) (n : BitVec 5) : Word := if n = d ∧ d ≠ 0 then v else x.rdG n
    let ldc (t : State) := (t.coreOf c).ldc = x.ldc - 1 ∧ (t.coreOf c).stc = x.stc ∧ (t.coreOf c).toc = x.toc
    let stc (t : State) := (t.coreOf c).stc = x.stc - 1 ∧ (t.coreOf c).ldc = x.ldc ∧ (t.coreOf c).toc = x.toc
    let toc (t : State) := (t.coreOf c).toc = x.toc - 1 ∧ (t.coreOf c).ldc = x.ldc ∧ (t.coreOf c).stc = x.stc
    let stores : List Instr := [.memStH d a k f q, .memStW d a k f q, .memStD d a k f q, .memStQ d a k f q, .capSt kd k a,
      .rmemStH d a k f q, .rmemStW d a k f q, .rmemStQ d a k f q]
    let posted : List Instr := [.amoAddPosted d a k f q, .amoMinPosted d a k f q, .amoMaxPosted d a k f q,
      .amoAmaxPosted d a k f q, .amoFaddWPosted d a k f q, .amoFaddHPosted d a k f q, .amoAndPosted d a k f q,
      .amoOrPosted d a k f q]
    let updates : List Instr := [.amoAdd d a k f q, .amoMin d a k f q, .amoMax d a k f q, .amoAmax d a k f q,
      .amoAmaxr d a k f q, .amoFaddW d a k f q, .amoAnd d a k f q, .amoOr d a k f q, .amoXchg d a k f q, .amoCas d a k f q]
    let loads : List Instr := [.memLdH d a k f q, .rmemLdH d a k f q, .memLdHs d a k f q, .rmemLdHs d a k f q,
      .memLdW d a k f q, .rmemLdW d a k f q, .memLdWs d a k f q, .rmemLdWs d a k f q, .memLdD d a k f q, .memLdQ d a k f q,
      .rmemLdQ d a k f q, .capLd kd k a]
    let errs (e : BitVec 8) (t : State) := (t.coreOf c).g = x.g ∧ (t.coreOf c).k = x.k ∧ (t.coreOf c).pc = x.pc ∧
      (t.coreOf c).flags = x.flags ∧ (t.coreOf c).c = x.c ∧ (t.coreOf c).cpc = x.cpc ∧ sameBytes s t ∧
      (t.coreOf c).ops = x.ops.map (fun p => if p.id = o.id then { p with status := .errored, esub := e } else p) ∧
      (i ∈ loads → ldc t) ∧ (i ∈ stores → stc t) ∧ (i ∈ .amoFaddH d a k f q :: updates ++ posted → toc t)
    let effect (ws : List W32) (t : State) :=
      (i ∈ [.memLdH d a k f q, .rmemLdH d a k f q] → ws = [w0] → wrote t (one ((lo w0).setWidth 64)) ∧ ldc t) ∧
      (i ∈ [.memLdHs d a k f q, .rmemLdHs d a k f q] → ws = [w0] →
        wrote t (one ((w0.setWidth 16).signExtend 64)) ∧ ldc t) ∧
      (i ∈ [.memLdW d a k f q, .rmemLdW d a k f q] → ws = [w0] → wrote t (one (w0.setWidth 64)) ∧ ldc t) ∧
      (i ∈ [.memLdWs d a k f q, .rmemLdWs d a k f q] → ws = [w0] → wrote t (one (w0.signExtend 64)) ∧ ldc t) ∧
      (i = .memLdD d a k f q → ws = [w0, w1] → wrote t (one (long w0 w1)) ∧ ldc t) ∧
      (i ∈ [.memLdQ d a k f q, .rmemLdQ d a k f q] → ws = [w0, w1, w2, w3] →
        wrote t (fun n => if n = d + 1 then long w2 w3 else one (long w0 w1) n) ∧ ldc t) ∧
      (i = .capLd kd k a → ws = [w0, w1, w2, w3] → left t ∧ (t.coreOf c).g = x.g ∧ ldc t ∧
        ∀ n, (t.coreOf c).rdK n = if n = kd then long w2 w3 ++ long w0 w1 else x.rdK n) ∧
      (i ∈ updates → ws = [w0] → wrote t (one (w0.setWidth 64)) ∧ toc t) ∧
      (i = .amoFaddH d a k f q → ws = [w0] → wrote t (one ((lo w0).setWidth 64)) ∧ toc t) ∧
      (i ∈ stores → wrote t x.rdG ∧ stc t) ∧ (i ∈ posted → wrote t x.rdG ∧ toc t)
    (o.dld = none → o.reply = [] →
    (∀ ws rest cls, x.inbox = { op := some o.id, counter := cls, words := ws } :: rest →
      runsTo s (.seqReply c 4 ch) fun t => (t.coreOf c).inbox = rest ∧ effect ws t) ∧
    (∀ h rest, link < 4 → (s.dist c).buf 493 link ch = h :: rest → (s.dist c).route 493 link ch = 5 → h.tok.kind = 2 →
      h.tok.tag = some (c, o.id) → h.tok.data = w0 → 493 ∉ (s.dist c).sealed → s.accepts c = true →
      runsTo s (.seqReply c link ch) fun t => (t.dist c).buf 493 link ch = rest ∧
        (h.tok.marker ≠ 3 → effect [w0] t) ∧ (h.tok.marker = 3 → errs (w0.setWidth 8) t)) ∧
    (∀ acc ws code rest, (s.dist c).port.replyQ = ((s.distReg c).incarnation, acc, ws, code) :: rest → acc.issuer = .seq c →
      acc.op = o.id → runsTo s (.seqReply c 5 ch) fun t => (t.dist c).port.replyQ = rest ∧
        (code = 0 → effect ws t) ∧ (code ≠ 0 → errs 0 t))) ∧
    (∀ dsc rest cls, o.dld = some dsc → i = .strmDld dsc a →
      x.inbox = { op := some o.id, counter := cls, words := [w0, w1, w2, w3] } :: rest →
      let y (t : State) := t.coreOf c
      let ws := o.reply ++ [w0, w1, w2, w3]
      let w (n : Nat) := nth n ws
      let bits (n hi lo : Nat) : Nat := (w n).toNat / 2 ^ lo % 2 ^ (hi + 1 - lo)
      let others (t : State) := (y t).inbox = rest ∧ (y t).g = x.g ∧ (y t).k = x.k ∧
        ∀ n, n ≠ dsc → (y t).rdD n = x.rdD n
      let bad := bits 1 31 8 ≠ 0 ∨ bits 2 1 0 ≥ 2 ∨ bits 2 2 2 ≠ 0 ∨ bits 2 5 3 > 4 ∨ bits 2 9 6 ≥ 12 ∨ bits 2 15 14 = 3 ∨
        bits 2 31 16 ≠ 0 ∨ w 3 ≠ 0 ∨ bits 4 31 24 ≠ 0 ∨ bits 7 31 24 ≠ 0 ∨ bits 10 31 24 ≠ 0 ∨ bits 13 31 24 ≠ 0
      (o.reply.length = 12 → runsTo s (.seqReply c 4 ch) fun t => left t ∧ ldc t ∧ others t ∧
        (bad → (y t).rdD dsc = none ∧ ∃ p : Cause, (y t).pending = x.pending ++ [p] ∧ p.cause = 0x10 ∧ p.sub = 1 ∧
          p.sync = false ∧ p.epc = o.pc ∧ p.eecsn = o.eecsn ∧ p.xaddr = o.addr) ∧
        (¬ bad → (y t).pending = x.pending ∧ ∃ D, (y t).rdD dsc = some D ∧ D.start = (w 1).setWidth 8 ++ w 0 ∧
          D.dir.toNat = bits 2 1 0 ∧ D.esz.toNat = bits 2 5 3 ∧ D.fmt.toNat = bits 2 9 6 ∧ D.fe.toNat = bits 2 15 14 ∧
          D.cap = x.rdK (BitVec.ofNat 4 (bits 2 13 10)) ∧
          ∀ n : Fin 4, D.cnt[n].toNat = bits (4 + 3 * n.val) 23 0 ∧ D.str[n] = long (w (5 + 3 * n.val)) (w (6 + 3 * n.val)))) ∧
      (o.reply.length < 12 → c ≠ mgmtCore →
        let place := o.addr.toNat + 4 * ws.length
        (∀ v ord off, capObj o.cap = tileSpace → s.tileAddr c place = some (v, ord, off) →
          runsTo s (.seqReply c 4 ch) fun t => others t ∧ (y t).d = x.d ∧ (y t).ldc = x.ldc ∧
            (y t).ops = x.ops.map (fun p => if p.id = o.id then { p with reply := ws } else p) ∧
            (tgetD (tileIdx ord) (t.dist v).tiles).seqQ = (tgetD (tileIdx ord) (s.dist v).tiles).seqQ ++
              [{ op := 0, width := 2, offset := BitVec.ofNat 19 off, origin := .seq o.id }]) ∧
        (capObj o.cap ≠ tileSpace → runsTo s (.seqReply c 4 ch) fun t => others t ∧ (y t).d = x.d ∧ (y t).ldc = x.ldc ∧
            (y t).ops = x.ops.map (fun p => if p.id = o.id then { p with reply := ws } else p) ∧
            ∃ acc : Access, (t.dist c).port.accessQ = (s.dist c).port.accessQ ++ [acc] ∧ acc.obj = capObj o.cap ∧
              acc.offset = BitVec.ofNat 40 place ∧ acc.size = 16 ∧ acc.write = none ∧ acc.rights = capRights o.cap ∧
              acc.issuer = .seq c ∧ acc.op = o.id))) ∧
    (∀ e rest, x.inbox = { op := some o.id, esub := e } :: rest → e ≠ 0 → runsTo s (.seqReply c 4 ch) fun t =>
      (t.coreOf c).inbox = rest ∧ errs e t) ∧
    (∀ cls rest, x.inbox = { counter := cls } :: rest → runsTo s (.seqReply c 4 ch) fun t =>
      t.coreOf c = { x.setCount cls (x.count cls - 1) with inbox := rest })

/-- 08 R196, R197, R199 to R201. -/
def Obligations.TrapsEnterWhenRequestsSettle : Prop :=
  ∀ (s : State) (c : Nat) (k : Cause),
    let x := s.coreOf c
    let entered (t : State) := let y := t.coreOf c
      y.pc = 0 ∧ y.active = true ∧ y.trapcause.toNat % 2 ^ 8 = k.cause.toNat ∧
      y.trapcause.toNat / 2 ^ 24 % 2 ^ 8 = k.sub.toNat ∧ y.trappc = x.pc &&& 0x3FFFC ∧ y.g = x.g ∧ y.k = x.k ∧ y.c = x.c ∧
      y.flags = x.flags ∧ y.trapping = none
    let fits (k : Cause) := s.mayEnter c k = true ∧
      (s.frameLoc c (64 + 64 * ((x.ops.filter fun o => !o.stays k) ++ x.reissue).length)).isSome = true
    let quiet := ∀ o ∈ x.ops, o.status ≠ .errored
    x.running = true → (c = 1023 ∨ ∀ r, s.regionAt c = some r → r.gangHalt = false) →
    (fits k → x.trapping = some k → k.sync = true ∨ (x.pending = [] ∧ quiet) → runsTo s (.trapEntry c) entered) ∧
    (∀ o, fits o.cause → x.trapping = some k → k.sync = false → (∀ j ∈ x.pending, j.opId = none) → o ∈ x.ops →
      o.status = .errored → (∀ p ∈ x.ops, p.status = .errored → p = o ∨ o.id < p.id) → runsTo s (.trapEntry c) fun t =>
        (t.coreOf c).pc = 0 ∧ (t.coreOf c).active = true ∧
        (t.coreOf c).trapcause.toNat % 2 ^ 8 = if namesTiles o.cap then 0x07 else 0x09) ∧
    (x.trapping = none → x.spargeWait = none → x.past = false → x.idleSeen = none → quiet → x.pending = [k] →
      (x.active = false → fits k → (k.cause = 0x15 → x.noInt = false) →
        runsTo s (.trapEntry c) fun t => entered t ∧ (t.coreOf c).pending = []) ∧
      (x.active = true → k.cause = 0x15 → k.opId = none → exec (.trapEntry c) s = .next s) ∧
      (x.noInt = true → x.active = false → k.cause = 0x15 → k.opId = none → exec (.trapEntry c) s = .next s))

/-- 08 R179 to R181; 06 R135. A monitor that has drifted writes its status at a region barrier (10 R249): no monitor is
armed here. The first arrival's count is the group's (log 67). -/
def Obligations.BarriersCompleteForTheirMembers : Prop :=
  ∀ (s : State) (load : BitVec 32) (g : BitVec 4) (r : Region), active s load r →
    let keeps (t : State) (d : Nat) := (t.coreOf d).g = (s.coreOf d).g ∧ (t.coreOf d).k = (s.coreOf d).k ∧
      (t.coreOf d).flags = (s.coreOf d).flags
    let missing := ∃ d ∈ r.districts, (s.coreOf d).halted = false ∧ (s.coreOf d).barArrived = false
    (missing → exec (.rbarComplete load) s = .next s) ∧
    (¬ missing → (∃ d ∈ r.districts, (s.coreOf d).barArrived = true) →
      (∀ d ∈ r.districts, (s.coreOf d).barArrived = true → (s.coreOf d).ops = []) →
      (∀ d ∈ r.districts, ∀ u ∈ [14, 15], (tgetD u (s.dist d).mons).armer = none) →
      runsTo s (.rbarComplete load) fun t => sameBytes s t ∧ (∀ d, d ∉ r.districts → t.dist d = s.dist d) ∧
        ∀ d ∈ r.districts, keeps t d ∧
          ((s.coreOf d).barArrived = false → t.coreOf d = s.coreOf d) ∧
          ((s.coreOf d).barArrived = true → (t.coreOf d).barGen = (s.coreOf d).barGen + 1 ∧
            (t.coreOf d).barArrived = false ∧ (t.coreOf d).remote = false ∧
            ((t.coreOf d).barDone = true ∧ (t.coreOf d).pc = (s.coreOf d).pc ∨
              movedOn (s.coreOf d) (t.coreOf d) 1 ∧ s.wordAt d = 0x5A000010))) ∧
    (∀ c n rest, tgetD g.toNat r.phase = (c, n) :: rest →
      let l := (c, n) :: rest
      let first := (l.take n).map (·.1)
      (l.length < n → exec (.phbarComplete load g) s = .next s) ∧
      (n ≤ l.length → n ≠ 0 → first.Nodup → (∀ d ∈ first, (s.coreOf d).ops = []) →
        runsTo s (.phbarComplete load g) fun t => sameBytes s t ∧
          (∃ p, t.regionOf load = some { r with phase := p } ∧ tgetD g.toNat p = l.drop n) ∧
          (∀ d ∈ first, t.coreOf d = { s.coreOf d with
            phArrived := (s.coreOf d).phArrived.erase g, phDone := (s.coreOf d).phDone ++ [g] }) ∧
          ∀ d, d ∉ first → t.dist d = s.dist d)) ∧
    (∀ slot root, r.districts.head? = some root → (s.coreOf root).spargeWait = some slot →
      (s.coreOf root).spargeDone = false →
      ((∃ d ∈ r.districts, (s.dist d).drained = false) → exec (.spargeRelease load) s = .next s) ∧
      ((∀ d ∈ r.districts, (s.dist d).drained = true) → runsTo s (.spargeRelease load) fun t => sameBytes s t ∧
        t.regionOf load = some { r with plane := slot } ∧ (t.coreOf root).spargeDone = true ∧
        ∀ d ∈ r.districts, keeps t d ∧ (t.coreOf d).pc = (s.coreOf d).pc ∧ (t.dist d).cfg.await = false))

/-- 09 R205, 04 R83, 01 R18, R19 and R29, 15 R295, 17 R342. -/
def Obligations.RoutersForwardTokens : Prop :=
  ∀ (s : State) (e link ch : Nat) (h : Held) (rest : List Held), atHead s e link ch h rest → h.tok.code ≠ 1 →
    s.accepts (e / 520) = true →
    let r := s.routeOf e link ch
    let tile := idxKind (e % 520) = .mt
    let moves (i : Instr) :=
      (∀ n, 1 ≤ r → r ≤ 4 → neighbour e (r - 1) = some n → s.accepts (n / 520) = true →
        let places := (s.dist (n / 520)).queuePlaces (n % 520) ((r + 1) % 4) ch
        (places = 0 ∨ (places = 8 ∧ idxKind (n % 520) = .pe ∧ 24 ≤ ch)) ∧
        ((bufAt s n ((r + 1) % 4) ch).length < 2 + places → runsTo s i fun t => fabricOnly s t ∧ bufAt t e link ch = rest ∧
          bufAt t n ((r + 1) % 4) ch = bufAt s n ((r + 1) % 4) ch ++ [{ arr := s.tick, ns := s.timebase, tok := h.tok }] ∧
          t.husks = s.husks) ∧
        (2 + places ≤ (bufAt s n ((r + 1) % 4) ch).length → exec i s = .next s)) ∧
      (r = 5 → s.isSealed e = false → exec i s = .next s) ∧
      (r = 5 → s.isSealed e = true → s.carried e ch = false → runsTo s i fun t => fabricOnly s t ∧
        bufAt t e link ch = rest ∧ t.husks = s.husks) ∧
      (r = 0 ∨ 5 < r → runsTo s i fun t => fabricOnly s t ∧ bufAt t e link ch = rest ∧ recorded s t 0x03 e ch)
    let leaves (i : Instr) := ∀ l k, s.outOf e = [(l, k)] → l < 4 → runsTo s i fun t => fabricOnly s t ∧
      (∀ n, neighbour e l = some n → s.room e l k.channel.toNat = true → t.outOf e = [] ∧
        bufAt t n ((l + 2) % 4) k.channel.toNat =
          bufAt s n ((l + 2) % 4) k.channel.toNat ++ [{ arr := s.tick, ns := s.timebase, tok := k }]) ∧
      (s.room e l k.channel.toNat = false → t.outOf e = [(l, k)])
    (¬ tile → moves (.routerForward e link ch) ∧ leaves (.routerForward e 4 ch)) ∧
    (tile → moves (.mtRouterForward e link ch) ∧ leaves (.mtRouterForward e 4 ch))

/-- 01 R14 and R27, 16 R323. -/
def Obligations.UnacceptableAndUnboundTokensFault : Prop :=
  ∀ (s : State) (e link ch : Nat) (h : Held) (rest : List Held), atHead s e link ch h rest → s.routeOf e link ch = 5 →
    s.isSealed e = false →
    let kind := idxKind (e % 520)
    let discards (i : Instr) (code : BitVec 8) := runsTo s i fun t => fabricOnly s t ∧ bufAt t e link ch = rest ∧
      recorded s t code e ch ∧ s.timebase ≤ t.timebase
    (h.tok.code ≠ 1 → s.accepts (e / 520) = true →
      (kind = .pe → h.tok.kind ≠ 0 → h.tok.kind ≠ 2 → discards (.tokenKindFault e link ch) 0x01) ∧
      (kind ∈ [.ro, .sel, .mon, .dec] → h.tok.kind ≠ 0 → discards (.tokenKindFault e link ch) 0x01) ∧
      (kind = .seq → h.tok.kind ≠ 2 → h.tok.code ≠ 3 → discards (.tokenKindFault e link ch) 0x01) ∧
      (kind = .mn →
        let at_ (f reset : Nat) := ch = s.chanField e ch 0 f reset
        (at_ 0 0 ∧ h.tok.kind ≠ 4) ∨ (¬ at_ 0 0 ∧ at_ 1 1 ∧ h.tok.kind ≠ 0) ∨
          (¬ at_ 0 0 ∧ ¬ at_ 1 1 ∧ (¬ at_ 2 2 ∨ h.tok.kind ≠ 0 ∨ s.chanField e ch 0 3 0 ≠ 1)) →
        discards (.tokenKindFault e link ch) 0x01) ∧
      (kind = .mt → s.partialAt e link ch = none → s.partialAt e 4 (32 * link + ch) = none →
        (h.tok.kind = 1 → s.portField e link 0 0 = 0 ∧ h.tok.data.extractLsb' 28 4 ≠ 15) →
        (h.tok.kind = 0 → s.portField e link 0 0 ≠ 1 ∨ s.portField e link 1 0 ≠ 1) →
        discards (.tokenKindFault e link ch) 0x01) ∧
      (kind = .port → (s.chanField e ch 1 ch 0).testBit 15 = false → 3 ≤ h.tok.kind.toNat →
        discards (.tokenKindFault e link ch) 0x01)) ∧
    (kind = .pe → h.tok.kind = 0 → exec (.tokenKindFault e link ch) s = .next s) ∧
    (∀ r, kind = .pe → (h.tok.kind = 0 ∨ h.tok.kind = 2) → s.regionAt (e / 520) = some r → r.level ≠ 0 →
      (tgetD r.part.toNat s.parts).bindto ≠ 0 → s.unbound e ch = true →
      discards (.bindTimeout e link ch) 0x04 ∧
      runsTo s (.bindTimeout e link ch) fun t =>
        h.ns + 1000 * (tgetD r.part.toNat s.parts).bindto.toNat ≤ t.timebase) ∧
    (s.unbound e ch = false → exec (.bindTimeout e link ch) s = .next s)

/-- 01 R32 to R34; 15 R299. A first use loads marked registers and starts read streams (01 R33); which channels are awaited
is read as log 48 says, and a token in transit as log 49. -/
def Obligations.ReconfigSwitchesPlanes : Prop :=
  ∀ (s : State) (e link ch : Nat) (h : Held) (rest : List Held), atHead s e link ch h rest → h.tok.code = 1 →
    s.accepts (e / 520) = true → s.isSealed e = false → s.carried e ch = false →
    let x := s.dist (e / 520)
    let i := e % 520
    let slot : BitVec 2 := h.tok.data.setWidth 2
    let r := s.routeOf e link ch
    let resident := (x.image i slot.toNat).resident = true
    let fetchable := (tget (4 * i + slot.toNat) x.stored).isSome = true ∧ tget i x.fetching = none
    let owed := tgetD i x.owed
    let took (c : Nat) := (tget c (tgetD i x.recon)).getD 0
    let after (c : Nat) := took c + if c = ch then 1 else 0
    let names := ∃ q, owed[took ch]? = some q ∧ q.2 = slot
    let settled := tget i x.treeHold = none ∧ ∀ c q, c < 32 → owed[after c]? = some q → c ∉ x.inert i q.1.toNat
    let taken (t : State) := fabricOnly s t ∧ bufAt t e link ch = rest ∧ (t.dist (e / 520)).slotOf i ch = slot ∧
      ∀ c, c < 32 → c ≠ ch → (t.dist (e / 520)).slotOf i c = x.slotOf i c
    let counted (t : State) := tget i (t.dist (e / 520)).owed = some owed ∧
      ∃ l, tget i (t.dist (e / 520)).recon = some l ∧ ∀ c, (tget c l).getD 0 = after c
    let waits := ∃ q more, owed = q :: more ∧ ∃ c ∈ x.awaited i q.1.toNat, after c = 0
    (1 ≤ r → r ≤ 5 → ¬ resident → ¬ fetchable → exec (.reconfig e link ch) s = .next s) ∧
    (1 ≤ r → r ≤ 5 → ¬ resident → fetchable → runsTo s (.reconfig e link ch) fun t => fabricOnly s t ∧
      bufAt t e link ch = h :: rest ∧ tget i (t.dist (e / 520)).fetching = some slot) ∧
    (∀ n, 1 ≤ r → r ≤ 4 → resident → neighbour e (r - 1) = some n → s.room e (r - 1) ch = true →
      let moved (t : State) := taken t ∧ t.outOf e = s.outOf e ∧
        bufAt t n ((r + 1) % 4) ch = bufAt s n ((r + 1) % 4) ch ++ [{ arr := s.tick, ns := s.timebase, tok := h.tok }]
      (¬ names → runsTo s (.reconfig e link ch) moved) ∧
      (names → settled → waits → runsTo s (.reconfig e link ch) fun t => moved t ∧ counted t)) ∧
    (r = 5 → resident → s.holdsReconfig e ch = true → exec (.reconfig e link ch) s = .next s) ∧
    (r = 5 → resident → s.holdsReconfig e ch = false →
      (¬ names → runsTo s (.reconfig e link ch) fun t => taken t ∧ t.outOf e = s.outOf e ∧
        tget i (t.dist (e / 520)).owed = tget i x.owed ∧ tget i (t.dist (e / 520)).recon = tget i x.recon) ∧
      (names → settled → waits → runsTo s (.reconfig e link ch) fun t => taken t ∧ t.outOf e = s.outOf e ∧ counted t) ∧
      (∀ old, owed = [(old, slot)] → took ch = 0 → settled → (∀ c ∈ x.awaited i old.toNat, after c ≠ 0) →
        runsTo s (.reconfig e link ch) fun t => taken t ∧ tget i (t.dist (e / 520)).owed = none ∧
          tget i (t.dist (e / 520)).recon = none ∧
          ∀ l c, (∀ p ∈ x.outputs i old.toNat, p.2 < 32) → s.edgesOut e old.toNat = [(l, c)] →
            emits s t e l { kind := 3, channel := BitVec.ofNat 5 c, data := 1#8 ++ slot.setWidth 24 })) ∧
    (r = 0 ∨ 5 < r → runsTo s (.reconfig e link ch) fun t => fabricOnly s t ∧ bufAt t e link ch = rest ∧
      recorded s t 0x03 e ch) ∧
    (∀ p, tget i x.fetching = some p → tget i x.treeHold = none → runsTo s (.configFetch e) fun t => fabricOnly s t ∧
      tget i (t.dist (e / 520)).fetching = none ∧
      (t.dist (e / 520)).image i p.toNat = { (tgetD (4 * i + p.toNat) x.stored) with resident := true })

/-- 07 R166, 17 R335, 01 R384, 15 R290 and 10 R234: DONE_TOKEN, RESUME, SEAL_TOKEN and CUT_EDGE_TRANSFER complete, each in a
next state with the effect that its clauses say. The model's own reading here: a DONE of a containment takes its place among
the DONE tokens that have reached the SEQ, and waits beside a full queue (log 82). -/
def Obligations.ControlTokensReachTheirUnits : Prop :=
  (∀ (s : State) (d link ch : Nat) (h : Held) (rest : List Held), atHead s (520 * d + 493) link ch h rest →
    s.routeOf (520 * d + 493) link ch = 5 → h.tok.kind = 3 → h.tok.data.extractLsb' 24 8 = 3 → 493 ∉ (s.dist d).sealed →
    s.accepts d = true →
    let x := s.coreOf d
    let arrived (k : Held) := ∃ l c more, l < 4 ∧ c < 32 ∧ bufAt s (520 * d + 493) l c = k :: more ∧
      s.routeOf (520 * d + 493) l c = 5 ∧ k.tok.code = 3
    let enters (t : State) := exec (.doneToken d link ch) s = .next t ∧ sameBytes s t ∧ bufAt t (520 * d + 493) link ch = rest
    (16 ≤ x.doneQ.length ∨ (∃ k, arrived k ∧ k.arr < h.arr) ∨ (∃ w ∈ x.doneWait, w.1 < h.arr) →
      exec (.doneToken d link ch) s = .next s) ∧
    (x.doneQ.length < 16 → (∀ k, arrived k → h.arr ≤ k.arr) →
      (x.doneWait = [] → ∃ t, enters t ∧ t.coreOf d = { x with doneQ := x.doneQ ++ [h.tok.data.setWidth 24] }) ∧
      ((∀ w ∈ x.doneWait, h.arr ≤ w.1) → ∃ t, enters t ∧
        (t.coreOf d).doneQ ++ (t.coreOf d).doneWait.map (·.2) =
          x.doneQ ++ h.tok.data.setWidth 24 :: x.doneWait.map (·.2)))) ∧
  (∀ (s : State) (d : Nat) (fsn : BitVec 24) (rest : List (BitVec 24)), (s.dist d).port.resumeQ = fsn :: rest →
    ∃ t, exec (.resume d) s = .next t ∧ fabricOnly s t ∧ (t.dist d).port.resumeQ = rest ∧
      let under (h : HeldRead) := decide (h.fsn = fsn) && h.acc.issuer.dataClass
      let p := (s.dist d).port
      (t.dist d).port.heldReads = p.heldReads.filter (fun h => !under h) ∧
      (t.dist d).port.accessQ = p.accessQ.filter (·.again) ++
        (p.heldReads.filter under).map (fun h => { h.acc with again := true }) ++ p.accessQ.filter (!·.again) ∧
      { t with districts := s.districts } = s ∧ otherDists d s t) ∧
  (∀ (s : State) (d c : Nat) (lvc : BitVec 10) (die : BitVec 4) (k : Token) (rest : List (BitVec 10 × BitVec 4 × Token)),
    (s.dist d).port.seals = (lvc, die, k) :: rest →
    let e := 520 * d + 519
    let r := s.chanField e c 3 (c / 4) 0 / 16 ^ (c % 4) % 16
    (k.data.setWidth 16 ≠ (s.distReg d).incarnation ∨ s.endsAtSeq d lvc die = true → ∃ t, exec (.sealToken d) s = .next t ∧
      fabricOnly s t ∧ (t.dist d).port.seals = rest ∧ t.outOf e = s.outOf e) ∧
    (k.data.setWidth 16 = (s.distReg d).incarnation → s.endsAtSeq d lvc die = false → c < 32 →
      s.cutIn d lvc.toNat die.toNat = some c → 1 ≤ r → r ≤ 4 → ∃ t, exec (.sealToken d) s = .next t ∧
        fabricOnly s t ∧ (t.dist d).port.seals = rest ∧
        emits s t e (r - 1) { marker := 3, channel := BitVec.ofNat 5 c, data := (k.data.extractLsb' 16 8).setWidth 32 })) ∧
  (∀ (s : State) (d link ch d2 c : Nat) (h : Held) (rest : List Held) (r : Region),
    atHead s (520 * d + 519) link ch h rest → s.routeOf (520 * d + 519) link ch = 5 → s.regionAt d = some r → r.level ≠ 0 →
    (s.chanField (520 * d + 519) ch 1 ch 0).testBit 15 = true → h.tok.code ≠ 1 → h.tok.code ≠ 4 →
    s.farPort r (d / 40) (s.chanField (520 * d + 519) ch 1 ch 0 % 2 ^ 10) = some (d2, c) → c < 32 → d2 ≠ d →
    let e2 := 520 * d2 + 519
    let q := s.chanField e2 c 3 (c / 4) 0 / 16 ^ (c % 4) % 16
    ((∃ p ∈ s.outOf e2, p.2.channel.toNat = c) → exec (.cutEdgeTransfer d link ch) s = .next s) ∧
    (s.outOf e2 = [] → 1 ≤ q → q ≤ 4 → ∃ t, exec (.cutEdgeTransfer d link ch) s = .next t ∧ fabricOnly s t ∧
      bufAt t (520 * d + 519) link ch = rest ∧ emits s t e2 (q - 1) { h.tok with channel := BitVec.ofNat 5 c }))

/-- 01 R24 to R26; 09 R207 and R208. `State.ready` is the list of the handlers that could fire but for a power token, each
with its firing as the stages before E leave it and its operands: channel, link, token. -/
def Obligations.FiringsConsumeSpendAndEmit : Prop :=
  ∀ (s : State) (e : Nat) (r : Region), idxKind (e % 520) = .pe → s.regionAt (e / 520) = some r → r.fires = true →
    s.isSealed e = false → (peAt s e).donePend = none → s.fleet.cpst ≠ 1 →
    (s.ready e = [] → exec (.firing e) s = .next s) ∧
    (r.pool = 0 → exec (.firing e) s = .next s) ∧
    (∀ k f ops, s.ready e = [(k, f, ops)] → f.rot = true → exec (.firing e) s = .next s) ∧
    (∀ k f ops, s.ready e = [(k, f, ops)] → f.rot = false → (ops.map (·.1)).Nodup → (∀ o ∈ ops, o.1 < 32 ∧ o.2.1 < 4) → 0 < r.pool →
      runsTo s (.firing e) fun t => fabricOnly s t ∧
        t.regionAt (e / 520) = some { r with pool := r.pool - 1, firedNow := true } ∧
        (∀ o ∈ ops, bufAt t e o.2.1 o.1 = (bufAt s e o.2.1 o.1).drop 1) ∧
        (peAt t e).h = f.pe.h ∧ (peAt t e).acc = f.pe.acc ∧ (peAt t e).scl = f.pe.scl ∧
        (∀ l q, f.leaves.toks = [(l, q)] → f.leaves.done = none → s.request e f = none → emits s t e l q))

/-- 09 Tables K-106 to K-112, R209 to R211 and R214 to R231. `rnd32`, `rndInt32`, `rndOffset` and `rndTo` are the model's one
rounding (03 R60 to R66). A number that digits form is `w` units of 16^wexp. Of the functions of Table K-111 on an ordinary
operand only those with an exact value that is a ratio or a root are said here. The DATA of the error token for a malformed
digit, and for a T that texp refuses, is the trigger's: the model's reading (log 50). -/
def Obligations.StagesComputeTheirTables : Prop :=
  ∀ (f : Firing),
    let wide (v : Int) : W32 := BitVec.ofInt 32 v
    let sat (on : Bool) (v : Int) : W32 × Conds := if on = false then (wide v, 0)
      else if v < -2147483648 then (0x80000000, condO) else if 2147483647 < v then (0x7FFFFFFF, condO) else (wide v, 0)
    let flags (g : Firing) (c : Conds) := g.conds = f.conds ||| c ∧
      ∀ i : Fin 8, g.pe.cflags[i] = if f.h = i.val then f.pe.cflags[i] ||| c else f.pe.cflags[i]
    let held (g : Firing) := g.pe.h = f.pe.h ∧ g.pe.scl = f.pe.scl
    let sums (g : Firing) (n : Nat) (v : W32) := ∀ i : Fin 4, g.pe.acc[i] = if n = 32 + i.val then v else f.pe.acc[i]
    let gives (g : Firing) (n : Nat) (r : W32 × Conds) := g.p = r.1 ∧ flags g r.2 ∧ g.state = f.state ∧
      (∀ i : Fin 32, g.pe.h[i] = if swDst (f.word n) = i.val then r.1 else f.pe.h[i]) ∧
      sums g (swDst (f.word n)) r.1 ∧ g.pe.scl = f.pe.scl
    let x (n : Nat) := f.sel (f.word n) (swSa (f.word n))
    let y (n : Nat) := f.sel (f.word n) (swSb (f.word n))
    let mode (n : Nat) := RM.ofBits (BitVec.ofNat 2 (swMod (f.word n) / 64))
    let c (op : Nat) (r : W32 × Conds) := swOp (f.word 1) = op → gives (stageC f) 1 r
    let m (op : Nat) (r : Nat → W32 → W32 → W32 × Conds) :=
      swOp (f.word 2) = op → gives (stageM f) 2 (r (swMod (f.word 2)) (x 2) (y 2))
    let a (op : Nat) (r : Nat → W32 → W32 → W32 × Conds) :=
      swOp (f.word 3) = op → gives (stageA f) 3 (r (swMod (f.word 3)) (x 3) (y 3))
    let ff (op : Nat) (r : Nat → W32 → W32 → W32 × Conds) :=
      swOp (f.word 4) = op → gives (stageF f) 4 (r (swMod (f.word 4)) (x 4) (y 4))
    let pure (g : W32 → W32 → W32) : Nat → W32 → W32 → W32 × Conds := fun _ u v => (g u v, 0)
    let bit (b : Bool) : W32 := if b then 1 else 0
    let ends := f.mrk = 1 ∨ f.mrk = 2
    let nan (v : W32) := (val32 v).isNaN
    let snan (u v : W32) : Conds := if val32 u = .nan true ∨ val32 v = .nan true then condV else 0
    let less (u v : W32) := (val32 u).lt (val32 v) || (!(val32 v).lt (val32 u) && u.msb && !v.msb)
    let least (u v : W32) : W32 := if nan u && nan v then nan32 else if nan u then v else if nan v then u else if less u v then u else v
    let most (u v : W32) : W32 := if nan u && nan v then nan32 else if nan u then v else if nan v then u else if less u v then v else u
    let smin (u v : W32) : W32 := if v.toInt < u.toInt then v else u
    let smax (u v : W32) : W32 := if u.toInt < v.toInt then v else u
    -- G
    (let g (op : Nat) (r : W32) := swOp (f.word 0) = op → (stageG f).p = r ∧ flags (stageG f) 0 ∧ (stageG f).state = f.state ∧
       held (stageG f) ∧ (stageG f).pe.acc = f.pe.acc
     g 0 f.t ∧ g 1 (x 0) ∧ g 2 (x 0) ∧ g 3 (x 0) ∧ g 4 (vget f.pe.h ((x 0).toNat % 32)) ∧
     g 5 (vget f.pe.h ((f.ph.toNat + swMod (f.word 0) % 32) % 32)) ∧ g 6 f.t) ∧
    -- C
    (let k := swMod (f.word 1)
     let ch := if swSa (f.word 1) = 37 then nth 0 f.joins else if swSa (f.word 1) = 38 then nth 1 f.joins else f.tch
     let fmt := vceFormat (f.entry ch)
     let n : Nat := if fmt = 1 ∨ fmt = 2 then 16 else if fmt = 3 ∨ fmt = 4 ∨ fmt = 8 then 8 else if fmt = 9 then 4 else 32
     let sc := vget f.pe.scl (vceScale (f.entry ch))
     let lane := (x 1).toNat / 2 ^ (n * (k / 8 % 8)) % 2 ^ n
     let v := if fmt = 8 ∨ fmt = 9 then Val.ofInt ((lane : Int) - (sc.toNat % 2 ^ n : Nat)) else valOf (BitVec.ofNat 4 fmt) lane
     let u := if k.testBit 2 then v.mul (val32 sc) else v
     let sig : Conds := if v = .nan true then condV else 0
     let tight := k.testBit 5 || (f.im.field 1 (32 + f.tch / 16) 0).testBit (f.tch % 16)
     (fmt ∈ [0, 1, 2, 3, 4, 8, 9, 10] → c 1 ((rnd32 (mode 1) u).1, sig ||| (rnd32 (mode 1) u).2) ∧
       c 2 ((rndInt32 (mode 1) u).1, sig ||| (rndInt32 (mode 1) u).2)) ∧
     c 3 (wide (if k.testBit 0 then ((x 1).toNat % 16 : Nat) - ((y 1).toNat % 16 : Nat)
       else ((x 1).toNat % 256 : Nat) - ((y 1).toNat % 256 : Nat)), 0) ∧
     (f.tch < 32 → k % 16 ∈ [1, 2, 3, 4, 10] →
       c 4 (rndTo (BitVec.ofNat 4 (k % 16)) (mode 1) ((k % 16 == 3 || k % 16 == 4) && tight) (val32 (x 1)))) ∧
     (k % 16 = 8 → c 4 (BitVec.ofNat 32 (rndOffset 8 ((y 1).toNat % 256) (mode 1) (val32 (x 1))).1,
       (rndOffset 8 ((y 1).toNat % 256) (mode 1) (val32 (x 1))).2)) ∧
     (k % 16 = 9 → c 4 (BitVec.ofNat 32 (rndOffset 4 ((y 1).toNat % 16) (mode 1) (val32 (x 1))).1,
       (rndOffset 4 ((y 1).toNat % 16) (mode 1) (val32 (x 1))).2)) ∧
     c 5 (x 1, 0)) ∧
    -- digits, in C and M
    (let D := vget f.pe.digits f.h
     let d : Int := (f.t.setWidth 5).toInt
     let k : Int := ((f.t >>> 8).setWidth 8).toInt
     let bad := f.t &&& 0xFFFF00E0 ≠ 0 ∨ d < -10 ∨ 10 < d ∨ (D.isOpen = true ∧ k ≠ D.k)
     let takes (g : Firing) (n : Nat) (toFp : Bool) (times : Int) :=
       let w := (if D.isOpen then D.w * 16 else 0) + d * times
       let out := if toFp then rnd32 (mode n) (Val.scale2 (4 * k) (.ofInt w)) else rndInt32 (mode n) (Val.scale2 (4 * k) (.ofInt w))
       f.h < 8 →
       (bad → g.state = .error f.t ∧ flags g condV ∧ held g ∧ vget g.pe.digits f.h = {} ∧ vget g.pe.oneHot f.h = false) ∧
       (¬ bad → ends → gives g n out ∧ vget g.pe.digits f.h = {}) ∧
       (¬ bad → ¬ ends → g.state = .retired ∧ flags g 0 ∧ held g ∧ g.pe.acc = f.pe.acc ∧
         vget g.pe.digits f.h = { isOpen := true, w := w, wexp := k, k := k - 1 })
     (swOp (f.word 1) = 6 → takes (stageC f) 1 false 1) ∧ (swOp (f.word 1) = 7 → takes (stageC f) 1 true 1) ∧
     (swOp (f.word 2) = 7 → takes (stageM f) 2 false (y 2).toInt)) ∧
    -- M
    m 1 (fun _ u v => rnd32 (mode 2) ((val32 u).mul (val32 v))) ∧
    m 2 (fun _ u v => rnd32 (mode 2) (((val32 u).mul (val32 v)).add (mode 2) (val32 f.p))) ∧
    m 3 (fun _ u v => rnd32 (mode 2) (Val.scale2 v.toInt (val32 u))) ∧
    m 4 (fun k u v => sat (k.testBit 0) (u.toInt * v.toInt)) ∧ m 5 (pure fun u v => (u.signExtend 64 * v.signExtend 64).extractLsb' 32 32) ∧
    m 6 (fun k u v => sat (k.testBit 0) (u.toInt * v.toInt + f.p.toInt)) ∧
    -- A
    a 1 (fun _ u v => rnd32 (mode 3) ((val32 u).add (mode 3) (val32 v))) ∧
    a 2 (fun _ u v => rnd32 (mode 3) ((val32 u).add (mode 3) (val32 v).negate)) ∧
    a 3 (fun k u v => sat (k.testBit 5) (u.toInt + v.toInt)) ∧ a 4 (fun k u v => sat (k.testBit 5) (u.toInt - v.toInt)) ∧
    a 8 (fun _ u v => (least u v, snan u v)) ∧ a 9 (fun _ u v => (most u v, snan u v)) ∧
    a 10 (pure smin) ∧ a 11 (pure smax) ∧
    a 12 (pure fun u v => if v.toNat < u.toNat then v else u) ∧ a 13 (pure fun u v => if u.toNat < v.toNat then v else u) ∧
    a 14 (fun _ u v => (least (most f.p u) v, snan f.p u ||| snan (most f.p u) v)) ∧ a 15 (pure fun u v => smin (smax f.p u) v) ∧
    (swMod (f.word 3) % 8 ≤ 4 → a 16 (fun k u v => (bit (match k % 8 with
      | 0 => (val32 u).eqv (val32 v) | 1 => (val32 u).lt (val32 v) | 2 => (val32 u).lt (val32 v) || (val32 u).eqv (val32 v)
      | 3 => nan u || nan v | _ => !(val32 u).eqv (val32 v)),
      if k % 8 = 1 ∨ k % 8 = 2 then (if nan u || nan v then condV else 0) else snan u v))) ∧
    a 17 (fun k u v => (bit (match k % 8 with
      | 0 => u == v | 1 => u != v | 2 => decide (u.toInt < v.toInt) | 3 => decide (u.toInt ≤ v.toInt)
      | 4 => decide (u.toNat < v.toNat) | _ => decide (u.toNat ≤ v.toNat)), 0)) ∧
    a 18 (pure fun u v => if f.p = 0 then v else u) ∧
    (let n := swDst (f.word 3)
     let g := stageA f
     let acc := f.sel (f.word 3) n
     let e := swMod (f.word 3) % 4
     let last := (e = 1 ∧ ends) ∨ (e = 2 ∧ f.mrk = 2)
     let adds (op : Nat) (r : W32 × Conds) := swOp (f.word 3) = op → flags g r.2 ∧ held g ∧ sums g n (if last then 0 else r.1) ∧
       (e = 0 ∨ last → g.p = r.1 ∧ g.state = f.state) ∧ (e ≠ 0 → ¬ last → g.state = .retired)
     32 ≤ n → n < 36 →
     (e ≠ 3 → adds 5 (rnd32 (mode 3) ((val32 acc).add (mode 3) (val32 (x 3)))) ∧
       adds 6 (sat ((swMod (f.word 3)).testBit 5) (acc.toInt + (x 3).toInt)) ∧
       adds 19 (if nan acc || nan (x 3) then nan32
         else if (acc &&& 0x7FFFFFFF).toNat < (x 3 &&& 0x7FFFFFFF).toNat then x 3 &&& 0x7FFFFFFF else acc &&& 0x7FFFFFFF,
         snan acc (x 3))) ∧
     (swOp (f.word 3) = 7 →
       let st := vget f.pe.redStack (n - 32)
       (32 ≤ st.length → g.state = .error 0x10 ∧ flags g condV ∧ held g ∧ vget g.pe.redStack (n - 32) = [] ∧
         (f.h < 8 → vget g.pe.digits f.h = {} ∧ vget g.pe.oneHot f.h = false)) ∧
       (st.length < 32 → ∃ top rest k j, passes (mode 3) j ((x 3, swMod (f.word 3) % 32) :: st, 0) (top :: rest, k) ∧
         (∀ z, ¬ combines (mode 3) (top :: rest, k) z) ∧ held g ∧
         (ends → let out := collapse (mode 3) (top.1, k) rest
           g.p = out.1 ∧ flags g out.2 ∧ g.state = f.state ∧ sums g n 0 ∧ vget g.pe.redStack (n - 32) = []) ∧
         (¬ ends → g.state = .retired ∧ flags g k ∧ g.pe.acc = f.pe.acc ∧ vget g.pe.redStack (n - 32) = top :: rest)))) ∧
    -- F
    ff 1 (pure fun u v => u &&& v) ∧ ff 2 (pure fun u v => u ||| v) ∧ ff 3 (pure fun u v => u ^^^ v) ∧
    ff 4 (pure fun u v => u &&& ~~~v) ∧ ff 5 (pure fun u _ => ~~~u) ∧ ff 6 (pure fun u v => u <<< (v.toNat % 32)) ∧
    ff 7 (pure fun u v => u >>> (v.toNat % 32)) ∧ ff 8 (pure fun u v => u.sshiftRight (v.toNat % 32)) ∧
    ff 9 (pure fun u v => u.rotateLeft (v.toNat % 32)) ∧
    (∀ n : W32, n.toNat ≤ 32 → (x 4).toNat < 2 ^ (32 - n.toNat) → (n.toNat < 32 → 2 ^ (31 - n.toNat) ≤ (x 4).toNat) →
      ff 10 (pure fun _ _ => n)) ∧
    ff 11 (pure fun u _ => BitVec.ofNat 32 ((List.range 32).filter u.getLsbD).length) ∧
    (∀ r : W32, let pos := (y 4).toNat % 32
      let top := pos + (y 4).toNat / 2 ^ 8 % 32
      ((∀ i, r.getLsbD i = (decide (pos + i ≤ top) && (x 4).getLsbD (pos + i))) → ff 12 (pure fun _ _ => r)) ∧
      ((∀ i, i < 32 → r.getLsbD i = (x 4).getLsbD (min (pos + i) top)) → ff 13 (pure fun _ _ => r))) ∧
    ff 25 (pure fun u _ => u &&& 0x7FFFFFFF) ∧ ff 26 (pure fun u _ => u ^^^ 0x80000000) ∧
    ff 28 (fun _ u v => ((rnd32 (mode 4) ((val32 u).div (val32 v)).1).1,
      ((val32 u).div (val32 v)).2 ||| (rnd32 (mode 4) ((val32 u).div (val32 v)).1).2)) ∧
    (let is (ops : List Nat) (P : Val → Prop) (r : W32 × Conds) := ∀ op ∈ ops, P (val32 (x 4)) → ff op (fun _ _ _ => r)
     let zero (b : Bool) (v : Val) := ∃ d, v = .fin b 0 d
     let below (v : Val) := ∃ n d, v = .fin true n d ∧ n ≠ 0
     is [16, 17, 18, 19, 20, 21, 22, 23, 27, 29, 30] (· = .nan true) (nan32, condV) ∧
     is [16, 17, 18, 19, 20, 21, 22, 23, 27, 29, 30] (· = .nan false) (nan32, 0) ∧
     is [16, 17] (fun v => v = .inf false ∨ v = .inf true) (nan32, condV) ∧
     is [19, 21, 27, 30] (fun v => v = .inf true ∨ below v) (nan32, condV) ∧
     is [18, 19, 27, 29, 30] (· = .inf false) (0x7F800000, 0) ∧ is [18, 23, 29] (· = .inf true) (0, 0) ∧
     is [20, 21] (· = .inf false) (0, 0) ∧ is [20] (· = .inf true) (0x80000000, 0) ∧
     is [22, 23] (· = .inf false) (0x3F800000, 0) ∧ is [22] (· = .inf true) (0xBF800000, 0) ∧
     is [16, 22, 27] (zero false) (0, 0) ∧ is [16, 22, 27] (zero true) (0x80000000, 0) ∧
     (∀ b, is [17, 18, 29] (zero b) (0x3F800000, 0) ∧ is [19, 30] (zero b) (0xFF800000, condZ) ∧ is [23] (zero b) (0x3F000000, 0)) ∧
     is [20, 21] (zero false) (0x7F800000, condZ) ∧ is [20, 21] (zero true) (0xFF800000, condZ) ∧
     is [19, 30] (· = .fin false (2 ^ 23) (2 ^ 23)) (0, 0) ∧
     (∀ b n d, n ≠ 0 → is [20] (· = .fin b n d) (rnd32 (mode 4) (.fin b d n))) ∧
     (∀ n d, n ≠ 0 → is [21] (· = .fin false n d) (rnd32 (mode 4) (Val.sqrt (.fin false d n))) ∧
       is [27] (· = .fin false n d) (rnd32 (mode 4) (Val.sqrt (.fin false n d))))) ∧
    (swOp (f.word 4) = 24 → f.h < 8 →
      let g := stageF f
      let small := y 4 &&& 0x7F800000 = 0
      let hot (b : Bool) := vget g.pe.oneHot f.h = b
      (small → val32 (x 4) = .nan true ∨ val32 (x 4) = .nan false → gives g 4 (0, condV) ∧ hot (vget f.pe.oneHot f.h)) ∧
      (small → x 4 &&& 0x7FFFFFFF = 0 → vget f.pe.oneHot f.h = false → gives g 4 (0x3F800000, 0) ∧ hot true) ∧
      (small → nan (x 4) = false → (x 4 &&& 0x7FFFFFFF = 0 → vget f.pe.oneHot f.h = true) →
        gives g 4 (0, 0) ∧ hot (vget f.pe.oneHot f.h)) ∧
      (nan (y 4) = true ∨ (¬ small ∧ (y 4).msb = true) → g.state = .error f.t ∧ flags g condV ∧ held g ∧ hot false) ∧
      (val32 (y 4) = .inf false → nan (x 4) = false → gives g 4 (0x3F800000, 0) ∧ hot (vget f.pe.oneHot f.h)) ∧
      (¬ small → (y 4).msb = false → nan (y 4) = false → nan (x 4) = true → gives g 4 (nan32, condV)) ∧
      (¬ small → (y 4).msb = false → nan (y 4) = false → val32 (y 4) ≠ .inf false → val32 (x 4) = .inf true → gives g 4 (0, 0))) ∧
    -- E
    (let k := swMod (f.word 5)
     let mk : BitVec 2 := match k / 16 % 8 with | 0 => f.mrk | 1 => 0 | 2 => 1 | 3 => 2 | _ => 3
     let edges := (List.range 4).filter fun e => k.testBit e && (swOp (f.word 5) != 10 || decide (e < 2))
     let on (e : Nat) (kind : BitVec 3) (v : W32) (mk : BitVec 2) : Nat × Token :=
       let o := f.im.field 4 (4 * f.h + e) 0
       (o / 2 ^ 12 % 8, { kind := kind, phase := f.ph, marker := mk, channel := BitVec.ofNat 5 (o / 2 ^ 7 % 32), data := v })
     let all (v : W32) (mk : BitVec 2) := edges.map fun e => on e 0 v mk
     let fatal := f.conds &&& BitVec.ofNat 5 (f.im.field 0 (48 + f.h) 0)
     let t := f.leaves
     let own (op : Nat) (l : List (Nat × Token)) := swOp (f.word 5) = op → t.toks = l ∧ t.done = none ∧ t.clear = (op == 9)
     (swOp (f.word 5) ≠ 0 → (fatal ≠ 0 → t.toks = all (fatal.setWidth 32) 3 ∧ t.done = none) ∧
       (∀ v, fatal = 0 → f.state = .error v → t.toks = all v 3 ∧ t.done = none)) ∧
     (fatal = 0 → f.state = .retired → t.toks = [] ∧ t.done = none ∧ t.clear = false) ∧
     (fatal = 0 → f.state = .running →
       own 0 [] ∧ own 1 (all (x 5) mk) ∧ (edges = [0, 1] → own 2 [on 0 0 (x 5) mk, on 1 0 (y 5) mk]) ∧
       own 3 (all ((y 5).setWidth 16 ++ (x 5).setWidth 16) mk) ∧ own 6 (edges.map fun e => on e 4 (x 5) 0) ∧
       own 9 (all ((vget f.pe.cflags f.h).setWidth 32) mk) ∧ own 10 (all (x 5) mk) ∧
       own 11 (if y 5 = 0 then [] else all (x 5) mk) ∧
       (swOp (f.word 5) = 8 → ∃ ds : List Int, 1 ≤ ds.length ∧ ds.length ≤ 9 ∧ (∀ d ∈ ds, -8 ≤ d ∧ d ≤ 7) ∧
         (1 < ds.length → ds.head? ≠ some 0) ∧ (ds.foldl (fun v d => v * 16 + d) 0) = (x 5).toInt ∧ own 8
           (edges.flatMap fun e => ds.zipIdx.map fun (d, i) => let last := i + 1 = ds.length
             on e 0 (wide d &&& 0x1F ||| BitVec.ofNat 32 (ds.length - 1 - i) <<< 8) (if last then (if f.mrk = 2 then 2 else 1) else 0))) ∧
       ∀ e, edges = [e] →
         own 4 (on e 1 (x 5) 0 :: ([y 5, f.p].take (k / 16 % 4)).map fun v => on e 0 v 0) ∧
         own 5 (on e 1 (x 5) 0 :: on e 1 (y 5) 0 :: if k.testBit 4 then [on e 0 f.p 0] else []) ∧
         own 12 (on e 1 (x 5) 0 :: on e 0 (y 5) 0 :: on e 1 f.p 0 ::
           if k.testBit 4 then [on e 0 (f.sel (f.word 5) (swDst (f.word 5))) 0] else []) ∧
         (swOp (f.word 5) = 7 → t.toks = [] ∧ t.clear = false ∧
           t.done = if f.mrk = 2 then some (on e 3 (0x03000000 ||| (x 5 &&& 0xFFFFFF)) 2) else none)))

/-- 02 R43 to R48; 09 R210 and R232. The model's own choices here: the delay line moves on one place at each visit (log 103),
and of two error tokens the loop-return's DATA goes on (log 132). -/
def Obligations.RotationHeadsVisitTheirSlots : Prop :=
  ∀ (s : State) (e : Nat) (r : Region) (c : HeadCfg), s.headCfg e = some c → s.regionAt (e / 520) = some r →
    r.fires = true → c.admitCh < 32 → c.opnd < 32 → c.loopCh < 32 →
    let hd (t : State) := (peAt t e).head
    let h := hd s
    let p := h.phc
    let last := h.curs ≤ p + 1
    let quiet := h.ann = [] ∧ s.room e (c.edge 2).1 (c.edge 2).2.toNat = false ∧ (peAt s e).donePend = none ∧
      s.lineFree e c = true
    let visited (t : State) (slot : Slot) (tok : Option Token) (ann : List Token) :=
      fabricOnly s t ∧ (∀ q, (hd t).slot q = if q = p then slot else h.slot q) ∧ (hd t).ann = ann ∧
      (hd t).phc = (if last then 0 else p + 1) ∧ (hd t).rev = (if last then h.rev + 1 else h.rev) ∧
      (hd t).delay = (if h.curd < h.delay.length + 1 then (h.delay ++ [tok]).drop 1 else h.delay ++ [tok]) ∧
      (peAt t e).h = (peAt s e).h ∧ (hd t).mode = .running
    let told (ev : BitVec 2) (tag : BitVec 24) : List Token :=
      [{ phase := BitVec.ofNat 6 p, data := (ev ++ BitVec.ofNat 6 p : BitVec 8) ++ tag }]
    let takes (t : State) (l ch : Nat) := bufAt t e l ch = (bufAt s e l ch).drop 1
    let arrives (ch l : Nat) (k : Held) := (s.dist (e / 520)).slotOf (e % 520) ch = c.plane ∧
      s.deliveredAt e ch Token.isOperand = some (l, k)
    let stray := if h.stray = 0xFFFF then h.stray else h.stray + 1
    let parked (v : W32) : Slot := { h.slot p with state := .parked, park := v }
    h.mode = .running →
    (∀ l k, arrives c.opnd l k →
      let q := k.tok.phase.toNat
      let runs := q < h.curs ∧ ((h.slot q).state = .live ∨ (h.slot q).state = .parked)
      (runs → (h.slot q).opv = true → exec (.operandStage e) s = .next s) ∧
      (runs → (h.slot q).opv = false → runsTo s (.operandStage e) fun t => fabricOnly s t ∧ takes t l c.opnd ∧
        (hd t).stray = h.stray ∧ ∀ i, (hd t).slot i =
          if i = q then { h.slot q with opnd := k.tok.data, opmk := k.tok.marker, opv := true, src := k }
          else h.slot i) ∧
      (¬ runs → runsTo s (.operandStage e) fun t => fabricOnly s t ∧ takes t l c.opnd ∧ (hd t).stray = stray ∧
        (hd t).slots = h.slots)) ∧
    (∀ l k, arrives c.admitCh l k → k.tok.marker ≠ 0 → runsTo s (.admitStray e) fun t => fabricOnly s t ∧
      takes t l c.admitCh ∧ (hd t).stray = stray ∧ (hd t).slots = h.slots) ∧
    (quiet → h.job = none →
      ((h.slot p) = {} → s.deliveredAt e c.admitCh Token.isOperand = none → runsTo s (.headVisit e) fun t =>
        visited t {} none []) ∧
      (∀ l k, (h.slot p).state = .empty → arrives c.admitCh l k → k.tok.marker = 0 → runsTo s (.headVisit e) fun t =>
        takes t l c.admitCh ∧ ∀ _ : c.initReg < 32,
          visited t { state := .parked, tag := k.tok.data.setWidth 24, park := (peAt s e).h[c.initReg] } none
            (told 0 (k.tok.data.setWidth 24))) ∧
      ((h.slot p).state = .live → s.loopReturn e c p = none → exec (.headVisit e) s = .next s) ∧
      ((h.slot p).state = .parked → (h.slot p).opv = false → c.lockstep = false → runsTo s (.headVisit e) fun t =>
        visited t (h.slot p) none []) ∧
      (∀ l k, (h.slot p).state = .live → s.loopReturn e c p = some (l, k) → k.tok.marker ≠ 3 → (h.slot p).opv = false →
        (c.lockstep = true → exec (.headVisit e) s = .next s) ∧
        (c.lockstep = false → runsTo s (.headVisit e) fun t => takes t l c.loopCh ∧ visited t (parked k.tok.data) none [])) ∧
      (∀ l k, (h.slot p).state = .live → s.loopReturn e c p = some (l, k) → k.tok.marker = 3 →
        let f0 := c.firing (peAt s e) p (h.slot p) k.tok.data
        let f := { f0 with pe := (peAt s e).clearRow c.h (f0.word 3), conds := 0, state := .error k.tok.data }
        (s.edgeRoom e f = false ∨ s.clear e (c.edge 3) = false → exec (.headVisit e) s = .next s) ∧
        (s.edgeRoom e f = true → s.clear e (c.edge 3) = true → runsTo s (.headVisit e) fun t =>
          takes t l c.loopCh ∧ (peAt t e).acc = f.pe.acc ∧ (peAt t e).oneHot = f.pe.oneHot ∧
          (∀ g ch, (g, ch) ∈ f.edges.map f.edge → ∃ u, (g, u) ∈ f.leaves.toks ∧ u.channel = ch ∧ u.marker = 3 ∧
            u.data = k.tok.data) ∧
          visited t { h.slot p with state := .faulted, opv := false }
            (some { phase := BitVec.ofNat 6 p, marker := 3, data := k.tok.data }) (told 2 (h.slot p).tag))) ∧
      (∀ k f ops, (h.slot p).state = .parked → (h.slot p).opv = true → (h.slot p).opmk ≠ 3 → s.fleet.cpst ≠ 1 →
        s.chosen e = some (k, f, ops) → f.rot = true → 0 < r.pool → f.broken = false → runsTo s (.headVisit e) fun t =>
          fabricOnly s t ∧ t.regionAt (e / 520) = some { r with pool := r.pool - 1, firedNow := true } ∧
          (hd t).slot p = { h.slot p with state := if (h.slot p).opmk = 2 then .draining else .live, opv := false } ∧
          (hd t).phc = (if last then 0 else p + 1) ∧ (peAt t e).h = f.pe.h ∧ (peAt t e).acc = f.pe.acc) ∧
      (∀ l k, (h.slot p).state = .draining → s.loopReturn e c p = some (l, k) → k.tok.marker ≠ 3 →
        runsTo s (.headVisit e) fun t => takes t l c.loopCh ∧ visited t {} none (told 1 (h.slot p).tag)))

/-- 02 R50 to R54, 08 R192 and R385: ROTATION_SAVE and ROTATION_LOAD complete where their own effect is to begin a capture,
to write the record, and to begin the loading revolution. The model's own choices here: the zero bits of the TAG words are
tested with the record's (log 52), and the save is accepted and SAVING entered in one act, before the head's next visit (log
104). -/
def Obligations.RotationsSaveAndLoad : Prop :=
  ∀ (s : State) (e : Nat) (j : RackJob) (rest : List RackJob),
    let hd (t : State) := (peAt t e).head
    let h := hd s
    let isHead := s.planeField (e / 520) (e % 520) 6 0 0 = 1
    let capturing := h.mode = .saving ∧ ∃ k, h.job = some k ∧ k.count < h.curs
    let refuses (i : Instr) (sub : BitVec 8) := runsTo s i fun t => sameBytes s t ∧ hd t = { h with queue := rest } ∧
      (t.coreOf j.core).inbox = (s.coreOf j.core).inbox ++
        [{ counter := .toc, cause := some { cause := 0x13, sub := sub, epc := j.pc, eecsn := j.ecsn } }]
    let place (a n : Nat) (w : Nat × Nat × Nat) := s.tileAddr j.core a = some w ∧ s.tileFits w.1 w.2.1 w.2.2 n = true
    let word (t : State) (w : Nat × Nat × Nat) (o n : Nat) := mgetN (w.2.1 * 2 ^ 19 + w.2.2 + o) n (t.dist w.1).tileMem
    let free (a n : Nat) := s.recordWaits j.core a n = false
    (h.queue = j :: rest → s.isSealed e = true → capturing ∨ h.job = none →
      runsTo s (if j.load then .rotationLoad e else .rotationSave e) fun t => sameBytes s t ∧ hd t = { h with queue := rest } ∧
        (t.coreOf j.core).inbox = (s.coreOf j.core).inbox ++ [{ counter := .toc }]) ∧
    (h.queue = j :: rest → s.isSealed e = false → h.job.isSome = true → isHead → j.badBits = false →
      (capturing ∨ h.mode = .loading) → refuses (if j.load then .rotationLoad e else .rotationSave e) 1) ∧
    (h.queue = j :: rest → s.isSealed e = false → h.job = none →
      let i : Instr := if j.load then .rotationLoad e else .rotationSave e
      (¬ (isHead ∧ j.badBits = false) → refuses i 5) ∧
      (isHead → j.badBits = false → h.mode ≠ (if j.load then .saved else .running) → refuses i 1) ∧
      (j.load = false → isHead → j.badBits = false → h.mode = .running →
        ((∀ w, ¬ place j.addr.toNat (32 + 12 * h.curs) w) → refuses (.rotationSave e) 6) ∧
        (∀ w, place j.addr.toNat (32 + 12 * h.curs) w → ∃ t, exec (.rotationSave e) s = .next t ∧ fabricOnly s t ∧
          hd t = { h with mode := .saving, queue := rest, job := some { j with
            count := 0, rev := h.rev, live := 0, parked := 0, faulted := 0, vals := [], tags := [] } })) ∧
      (j.load = true → j.remap = none → isHead → j.badBits = false → h.mode = .saved → free j.addr.toNat 32 →
        ((∀ w, ¬ place j.addr.toNat 32 w) → refuses (.rotationLoad e) 6) ∧
        (∀ w, place j.addr.toNat 32 w →
          let n := word s w 0 4 % 128
          let live := word s w 8 8
          let parked := word s w 16 8
          let faulted := word s w 24 8
          let lat := s.planeField (e / 520) (e % 520) 6 2 1
          let form := word s w 0 4 / 2 ^ 7 = 0xA7C30100 / 2 ^ 7 ∧ 2 ≤ n ∧ n ≤ 64 ∧ live < 2 ^ n ∧ parked < 2 ^ n ∧
            faulted < 2 ^ n ∧ live &&& parked = 0 ∧ live &&& faulted = 0 ∧ parked &&& faulted = 0
          let tags := ∀ q, q < n → word s w (32 + 8 * n + 4 * q) 4 < 2 ^ 24
          (¬ form → refuses (.rotationLoad e) 2) ∧
          (form → (∀ v, ¬ place j.addr.toNat (32 + 12 * n) v) → refuses (.rotationLoad e) 6) ∧
          (form → free j.addr.toNat (32 + 12 * n) → place j.addr.toNat (32 + 12 * n) w → ¬ tags → refuses (.rotationLoad e) 2) ∧
          (form → free j.addr.toNat (32 + 12 * n) → place j.addr.toNat (32 + 12 * n) w → tags → (j.slots < 2 ∨ 64 < j.slots ∨ j.slots < lat) →
            refuses (.rotationLoad e) 3) ∧
          (form → free j.addr.toNat (32 + 12 * n) → place j.addr.toNat (32 + 12 * n) w → tags → 2 ≤ j.slots → j.slots ≤ 64 → lat ≤ j.slots →
            ((2 ^ j.slots ≤ live ∨ 2 ^ j.slots ≤ parked) → refuses (.rotationLoad e) 4) ∧
            (live < 2 ^ j.slots → parked < 2 ^ j.slots → ∃ t, exec (.rotationLoad e) s = .next t ∧ fabricOnly s t ∧
              (hd t).mode = .loading ∧ (hd t).queue = rest ∧ (hd t).curs = j.slots ∧ (hd t).curd = j.slots - lat ∧
              (hd t).phc = 0 ∧ (hd t).slots = [] ∧ (hd t).rev.toNat = word s w 4 4 ∧
              ∃ k, (hd t).job = some k ∧ k.live.toNat = live ∧ k.parked.toNat = parked)))))  ∧
    (h.job = some j → h.mode = .saving → h.curs ≤ j.count → h.curs ≤ 64 →
      (∀ q ∈ h.slots, q.2.state ≠ .draining ∧ q.2.state ≠ .faulted) →
      ∀ w, place j.addr.toNat (32 + 12 * h.curs) w → free j.addr.toNat (32 + 12 * h.curs) →
        ∃ t, exec (.rotationSave e) s = .next t ∧ (hd t).mode = .saved ∧ (hd t).job = none ∧
        sameBytesBut s t w.1 (w.2.1 * 2 ^ 19 + w.2.2) (32 + 12 * h.curs) ∧
        word t w 0 4 = 0xA7C30100 + h.curs ∧ word t w 4 4 = j.rev.toNat ∧ word t w 8 8 = j.live.toNat ∧
        word t w 16 8 = j.parked.toNat ∧ word t w 24 8 = j.faulted.toNat ∧
        (t.coreOf j.core).inbox = (s.coreOf j.core).inbox ++ [{ counter := .toc }])

/-- 04 R86, R88, R89 and R98; 05 R108; 08 R174. The model's own choices here: the order among the codes of Table K-30
(log 133), and a streaming port serves a request token (log 54). -/
def Obligations.TileRequestsAreAccepted : Prop :=
  ∀ (s : State) (e : Nat), idxKind (e % 520) = .mt → s.isSealed e = false → s.accepts (e / 520) = true → calm s e →
    let comp (t : State) (p : Fin 5) := (tileAt t e).ports[p].comparator
    let bytes (w : BitVec 2) : Nat := if w = 0 then 2 else if w = 1 then 4 else 16
    let allowed (r : TileReq) : Bool := match r.op.toNat with
      | 0 => r.width != 3 && r.feq != 3
      | 1 => r.width != 3 && (r.feq == 0 || r.feq == 2)
      | 7 => (r.width == 0 || r.width == 1) && (r.feq == 0 || r.feq == 1)
      | n => decide (n < 12) && r.width == 1 && (r.feq == 0 || r.feq == 1)
    let placed (r : TileReq) (lo hi : Nat) : Bool :=
      decide (r.offset.toNat % bytes r.width = 0 ∧ r.offset.toNat < 0x60000 ∧ lo ≤ r.offset.toNat / 16 ∧ r.offset.toNat / 16 ≤ hi)
    let low (r : TileReq) : Prop := r.offset.toNat / 16 < s.planeField (e / 520) (e % 520) 0 62 0x6000
    (∀ r rest op, (tileAt s e).seqQ = r :: rest → r.origin = .seq op → r.error = 0 →
      (8 ≤ (comp s 4).length → exec (.tileRequest e 4 0) s = .next s) ∧
      ((comp s 4).length < 8 →
        (allowed r = true → placed r 0 24575 = true → low r → runsTo s (.tileRequest e 4 0) fun t => fabricOnly s t ∧
          (tileAt t e).seqQ = rest ∧ comp t 4 = comp s 4 ++ [{ r with id := (tileAt s e).nextId }] ∧
          (tileAt t e).nextId = (tileAt s e).nextId + 1) ∧
        ((tileAt s e).ports[(4 : Fin 5)].replies = [] →
          let fails (code : BitVec 8) := runsTo s (.tileRequest e 4 0) fun t => sameBytes s t ∧ comp t 4 = comp s 4 ∧
            answersTo s t (e / 520) { op := some op, esub := code }
          (allowed r = false → fails 1) ∧ (allowed r = true → placed r 0 24575 = false → fails 2) ∧
          (allowed r = true → placed r 0 24575 = true → ¬ low r → fails 3)))) ∧
    (∀ (p : Fin 5) ch h rest, p.val < 4 → atHead s e p.val ch h rest → s.routeOf e p.val ch = 5 → h.tok.kind = 1 →
      s.partialAt e 4 (32 * p.val + ch) = none → s.partialAt e p.val ch = none →
      let w := h.tok.data
      let r : TileReq := { op := w.extractLsb' 28 4, feq := w.extractLsb' 26 2, width := w.extractLsb' 24 2, rep := w.getLsbD 23
                           offset := w.setWidth 19, origin := .port h.tok.tag, channel := BitVec.ofNat 5 ch }
      (r.op = 15 → runsTo s (.tileRequest e p.val ch) fun t => fabricOnly s t ∧ bufAt t e p.val ch = rest ∧
        t.partialAt e 4 (32 * p.val + ch) = some { route := some w }) ∧
      ((r.op = 0 ∨ r.op = 6) → w.extractLsb' 19 4 = 0 → (comp s p).length < 8 → s.portField e p.val 0 0 ≠ 0 →
        allowed r = true → placed r (s.portField e p.val 9 0) (s.portField e p.val 10 0x5FFF) = true → low r →
        let earlier := s.requestBehind h.tok.tag (some (e, r.offset.toNat / 16)) ((comp s p).map (·.tag))
        (earlier = false → runsTo s (.tileRequest e p.val ch) fun t => fabricOnly s t ∧ bufAt t e p.val ch = rest ∧
          comp t p = comp s p ++ [{ r with id := (tileAt s e).nextId }]) ∧
        (earlier = true → exec (.tileRequest e p.val ch) s = .next s)) ∧
      (r.op ≠ 15 → s.portField e p.val 0 0 = 0 → exec (.tileRequest e p.val ch) s = .next s))

/-- 04 R87 and R90 to R94, with Table K-29. -/
def Obligations.TileOperationsFollowTableK29 : Prop :=
  ∀ (s : State) (e op : Nat) (r : TileReq), idxKind (e % 520) = .mt → s.isSealed e = false → s.accepts (e / 520) = true →
    r.origin = .seq op → r.error = 0 → r.offset.toNat < 0x60000 →
    (r.op = 1 → r.operands.length = if r.width = 2 then 4 else 1) →
    let n := if r.width = 0 then 2 else if r.width = 1 then 4 else 16
    r.offset.toNat % n = 0 →
    let d := e / 520
    let here := tileByte e r.offset.toNat
    let gran := granKey (tileOrd (e % 520)) (r.offset.toNat / 16)
    let v4 (t : State) := (tileAt t e).ports[(4 : Fin 5)]
    let full (t : State) := gran ∈ (t.dist d).full
    let word (t : State) (k : Nat) : W32 := BitVec.ofNat 32 (mgetN (here + 4 * k) 4 (t.dist d).tileMem)
    let i0 : W32 := nth 0 r.operands
    let half (t : State) : Nat := mgetN here 2 (t.dist d).tileMem
    let rm := RM.ofBits (BitVec.ofNat 2 (s.planeField d (e % 520) 0 60 0))
    let mag (v : W32) : W32 := v &&& 0x7FFFFFFF
    let nan (v : W32) : Prop := 0x7F800000 < (mag v).toNat
    let answers (t : State) (ws : List W32) := answersTo s t d { op := some op, words := ws }
    let writes (t : State) := sameBytesBut s t d here n ∧ full t
    let effect (t : State) :=
      (r.op = 0 → sameBytes s t ∧ (full t ↔ full s ∧ r.feq ≠ 2) ∧
        (r.width = 0 → answers t [BitVec.ofNat 32 (half s)]) ∧ (r.width = 1 → answers t [word s 0]) ∧
        (r.width = 2 → answers t [word s 0, word s 1, word s 2, word s 3])) ∧
      (r.op = 1 → writes t ∧ (r.rep = true → answers t [0]) ∧ (r.width = 0 → half t = i0.toNat % 2 ^ 16) ∧
        (r.width = 1 → word t 0 = i0) ∧
        (r.width = 2 → r.operands.length = 4 → ∀ k, k < 4 → word t k = nth k r.operands)) ∧
      (r.op = 7 → r.width = 0 → writes t ∧ (r.rep = true → answers t [BitVec.ofNat 32 (half s)]) ∧
        half t = (bf16.rnd rm false (Val.add rm (bf16.val (half s)) (bf16.val (i0.toNat % 2 ^ 16)))).1) ∧
      (r.width = 1 →
        (r.op ∈ [2#4, 3, 4, 5, 6, 7, 8, 9, 10] → writes t ∧ (r.rep = true → answers t [word s 0])) ∧
        (r.op = 2 → word t 0 = word s 0 + i0) ∧ (r.op = 3 → word t 0 = if i0.toInt < (word s 0).toInt then i0 else word s 0) ∧
        (r.op = 4 → word t 0 = if (word s 0).toInt < i0.toInt then i0 else word s 0) ∧ (r.op = 6 → word t 0 = 0) ∧
        (r.op = 5 → word t 0 = if nan (word s 0) ∨ nan i0 then 0x7FC00000
          else if (mag (word s 0)).toNat < (mag i0).toNat then mag i0 else mag (word s 0)) ∧
        (r.op = 7 → word t 0 = (rnd32 rm (Val.add rm (val32 (word s 0)) (val32 i0))).1) ∧
        (r.op = 8 → word t 0 = word s 0 &&& i0) ∧ (r.op = 9 → word t 0 = word s 0 ||| i0) ∧ (r.op = 10 → word t 0 = i0) ∧
        (r.op = 11 → (word s 0 = i0 → writes t ∧ word t 0 = nth 1 r.operands) ∧ (word s 0 ≠ i0 → sameBytes s t) ∧
          answers t [word s 0]))
    let must := if r.op = 1 then r.feq = 2 ∧ full s else r.feq ≠ 0 ∧ ¬ full s
    let feto := s.planeField d (e % 520) 0 61 1000
    let pendingReply := (v4 s).replies = (if r.rep = true ∨ r.op = 0 ∨ r.op = 6 ∨ r.op = 10 ∨ r.op = 11 ∨
      (r.feq ≠ 0 ∧ feto ≠ 0) then [(r, none)] else [])
    (calm s e → (∀ p : Fin 5, s.streamWants e p.val = none) → (∀ p : Fin 5, (tileAt s e).ports[p].comparator = if p = 4 then [r] else []) →
      (must → runsTo s (.requestApply e (r.offset.toNat / 16 % 8)) fun t => fabricOnly s t ∧ (v4 t).comparator = [] ∧
        (v4 t).waiters = [{ r with since := s.timebase }] ∧ (full t ↔ full s)) ∧
      (¬ must → pendingReply → runsTo s (.requestApply e (r.offset.toNat / 16 % 8)) fun t =>
        effect t ∧ (v4 t).comparator = [] ∧ (v4 t).waiters = []) ∧
      (∀ b, b ≠ r.offset.toNat / 16 % 8 → exec (.requestApply e b) s = .next s)) ∧
    ((∀ p : Fin 5, (tileAt s e).ports[p].stream.since = none ∧
        (tileAt s e).ports[p].waiters = if p = 4 then [r] else []) → r.feq ≠ 0 → r.op ≠ 1 ∨ r.feq = 2 →
      (must → exec (.waiterServe e) s = .next s) ∧
      (¬ must → pendingReply → runsTo s (.waiterServe e) fun t => effect t ∧ (v4 t).waiters = []) ∧
      (¬ must → exec (.feTimeout e 4) s = .next s) ∧
      (must → feto ≠ 0 → (v4 s).replies = [(r, none)] → runsTo s (.feTimeout e 4) fun t => sameBytes s t ∧
        (v4 t).waiters = [] ∧ r.since + 1000 * feto ≤ t.timebase ∧ (full t ↔ full s) ∧
        answersTo s t d { op := some op, esub := 4 }))

/-- 04 R84, R85, R91 and R95; 08 R186 and R187. The model's own choice here: a command starts only once the port's configured
run is no longer under way (log 149). -/
def Obligations.TileStreamsMoveGranules : Prop :=
  ∀ (s : State) (e : Nat) (p : Fin 5), s.isSealed e = false → s.accepts (e / 520) = true →
    let port (t : State) := (tileAt t e).ports[p]
    let run := (port s).stream
    let q := s.pattern e p.val
    let d := e / 520
    let ch := s.streamChan e p.val
    let g := q.gran run.pos
    let inWindow := (s.portField e p.val 9 0 : Int) ≤ g ∧ g ≤ s.portField e p.val 10 0x5FFF ∧
      g < s.planeField d (e % 520) 0 62 0x6000
    let last := run.pos + 1 = (q.cnt0 + 1) * (q.cnt1 + 1)
    let alone := ∀ o : Fin 5, (tileAt s e).ports[o].comparator = [] ∧
      (o ≠ p → (tileAt s e).ports[o].stream.active = false ∧ (tileAt s e).ports[o].stream.whole = false)
    (idxKind (e % 520) = .mt → calm s e → p.val < 4 → s.outOf e = [] → s.room e p.val ch.toNat = false → q.fe = 0 →
      run.active = true → run.ended = false → s.isWriteStream e p.val = false →
      (inWindow → alone → runsTo s (.mtReadStream e p.val) fun t => fabricOnly s t ∧ (port t).stream.pos = run.pos + 1 ∧
        t.outOf e = (List.range 4).map fun k => (p.val, {
          channel := ch
          data := BitVec.ofNat 32 (mgetN (tileByte e (16 * g.toNat) + 4 * k) 4 (s.dist d).tileMem)
          marker := if k < 3 then 0 else if last then 2 else if run.pos % (q.cnt0 + 1) = q.cnt0 then 1 else 0 })) ∧
      (¬ inWindow → runsTo s (.mtReadStream e p.val) fun t => fabricOnly s t ∧
        t.outOf e = [(p.val, { channel := ch, marker := 3, data := 2 })])) ∧
    (∀ c k, idxKind (e % 520) = .mt → calm s e → p.val < 4 → s.isWriteStream e p.val = true → q.fe = 0 →
      run.whole = false → run.buf.length ≤ 3 → run.owner = none → s.streamInput e p.val = some (c, k) →
      let whole := run.buf.length = 3 ∨ k.marker ≠ 0
      let taken (t : State) := bufAt t e p.val c = (bufAt s e p.val c).drop 1
      (k.marker ≠ 3 → ¬ whole → runsTo s (.mtWriteStream e p.val) fun t => fabricOnly s t ∧ taken t ∧
        (port t).stream.buf = run.buf ++ [k.data] ∧ (port t).stream.pos = run.pos) ∧
      (k.marker ≠ 3 → whole → inWindow → alone → runsTo s (.mtWriteStream e p.val) fun t => taken t ∧
        sameBytesBut s t d (tileByte e (16 * g.toNat)) (4 * (run.buf.length + 1)) ∧
        (∀ i, i ≤ run.buf.length →
          BitVec.ofNat 32 (mgetN (tileByte e (16 * g.toNat) + 4 * i) 4 (t.dist d).tileMem) = nth i (run.buf ++ [k.data])) ∧
        granKey (tileOrd (e % 520)) g.toNat ∈ (t.dist d).full ∧ (port t).stream.buf = [] ∧
        (port t).stream.pos = if k.marker = 2 ∨ last then 0 else run.pos + 1) ∧
      (k.marker = 3 → runsTo s (.mtWriteStream e p.val) fun t => fabricOnly s t ∧ taken t ∧
        (port t).stream.buf = [] ∧ (port t).stream.pos = 0)) ∧
    (∀ c rest, idxKind (e % 520) = .mt → (port s).score = c :: rest → run.owner = none →
      (run.active = true → exec (.streamCommandStart e p.val) s = .next s) ∧
      (run.active = false → c.bar = true → runsTo s (.streamCommandStart e p.val) fun t => fabricOnly s t ∧
        (port t).score = rest ∧ (port t).stream = run) ∧
      (run.active = false → c.bar = false → runsTo s (.streamCommandStart e p.val) fun t => fabricOnly s t ∧
        (port t).score = c :: rest ∧
        (port t).stream = { active := true, desc := some c.desc, chan := c.chan, owner := some (c.core, c.pc, c.ecsn) })) ∧
    (∀ c rest, idxKind (e % 520) = .port → (s.dist d).port.score.drop (s.dist d).port.closing.length = c :: rest →
      (s.dist d).port.stream.active = false →
      (c.bar = false → runsTo s (.streamCommandStart e 5) fun t => fabricOnly s t ∧
        (t.dist d).port.score = (s.dist d).port.score ∧ (t.dist d).port.stream =
          { active := true, desc := some c.desc, chan := c.chan, owner := some (c.core, c.pc, c.ecsn) }) ∧
      (c.bar = true → (s.dist d).port.closing ≠ [] → exec (.streamCommandStart e 5) s = .next s) ∧
      (c.bar = true → (s.dist d).port.closing = [] → runsTo s (.streamCommandStart e 5) fun t => fabricOnly s t ∧
        (t.dist d).port.score = rest ∧ (t.dist d).port.stream = (s.dist d).port.stream))

/-- 10 R235 to R241 with Table K-117, 12 R259. The rounding mode and the output fields are those of the plane of CTLCH. -/
def Obligations.MatrixNodesExecuteControlTokens : Prop :=
  ∀ (s : State) (e : Nat) (r : Region), idxKind (e % 520) = .mn → acting s e r →
    let m := s.mn e
    let op (n : Nat) : Instr := match n with
      | 1 => .mnMul e | 2 => .mnMulacc e | 3 => .mnSwap e | 4 => .mnRead e | 5 => .mnClear e | 6 => .mnDrain e | _ => .mnSetzp e
    let code (h : Held) : Nat := (h.tok.data.extractLsb' 27 5).toNat
    let uses (n : Nat) : W32 := match n with
      | 1 => 0xFFFFFFF0 | 2 => 0xF81FF0F0 | 4 => 0xF81FB000 | 5 => 0xF81FB000 | 6 => 0xF81FF000 | _ => 0xF8000000
    let fits (n : Nat) (w : W32) : Prop := w &&& ~~~uses n = 0 ∧
      (n = 1 → pairElems (w.extractLsb' 8 4).toNat (w.extractLsb' 4 4).toNat ((w.extractLsb' 21 6).toNat + 1) ≠ none) ∧
      (n = 2 → ∃ row a, m.row = some (row, a) ∧ pairElems a.toNat (w.extractLsb' 4 4).toNat row.length ≠ none)
    let pool (t : State) (n : Nat) := t.regionAt (e / 520) = some { r with pool := r.pool - n, firedNow := true }
    (m.cur = none → (s.drain e).outOf e ≠ [] → ∀ n, 1 ≤ n → n ≤ 7 → exec (op n) s = .next (s.drain e)) ∧
    (m.cur = none → s.outOf e = [] → m.mtokQ = [] → ∀ c l h n, s.inputHead e 0 0 (fun t => t.kind == 4) = some (c, l, h) →
      1 ≤ n → n ≤ 7 →
      (code h = 0 ∨ 7 < code h → runsTo s (op n) fun t => fabricOnly s t ∧ t.mn e = m ∧
        bufAt t e l c = (bufAt s e l c).drop 1 ∧ t.regions = s.regions ∧ recorded s t 0x02 e h.tok.channel.toNat) ∧
      (1 ≤ code h → code h ≤ 7 → n ≠ code h → exec (op n) s = .next s) ∧
      (n = code h → ¬ fits n h.tok.data → runsTo s (op n) fun t => fabricOnly s t ∧
        bufAt t e l c = (bufAt s e l c).drop 1 ∧ t.regions = s.regions ∧ recorded s t 0x02 e h.tok.channel.toNat) ∧
      (n = code h → fits n h.tok.data → r.pool = 0 → exec (op n) s = .next s) ∧
      (n = code h → fits n h.tok.data → 0 < r.pool → ∃ u, exec (op n) s = exec (op n) u ∧ fabricOnly s u ∧
        bufAt u e l c = (bufAt s e l c).drop 1 ∧ pool u 1 ∧ u.mn e = { m with cur := some h })) ∧
    (m.cur = none → s.outOf e = [] → s.inputHead e 0 0 (fun t => t.kind == 4) = none → ∀ k rest, m.mtokQ = k :: rest →
      let w : W32 := k.cmd.setWidth 32
      let n := (w.extractLsb' 27 5).toNat
      1 ≤ n → n ≤ 7 → fits n w →
      (r.pool = 0 → exec (op n) s = .next s) ∧
      (0 < r.pool → ∃ u h, exec (op n) s = exec (op n) u ∧ sameBytes s u ∧ answersTo s u k.core { counter := .toc } ∧ pool u 1 ∧
        h.tok.data = w ∧ h.tok.kind = 4 ∧ u.mn e = { m with mtokQ := rest, cur := some h })) ∧
    (∀ h, m.cur = some h →
      let w := h.tok.data
      let bank := (w.extractLsb' 12 2).toNat
      let top := (w.extractLsb' 15 6).toNat
      let adds : Bool := w.getLsbD 14
      let af := (w.extractLsb' 8 4).toNat
      let wf := (w.extractLsb' 4 4).toNat
      let len := (w.extractLsb' 21 6).toNat + 1
      let accAt (t : State) (b n : Nat) : W32 := (tget (64 * b + n) (t.mn e).acc).getD 0
      let done (x : Mn) : Mn := { x with cur := none, rowbuf := [] }
      let becomes (t : State) (x : Mn) := fabricOnly s t ∧ t.mn e = done x
      let rest (t : State) (row : Option (List Byte × BitVec 4)) := fabricOnly s t ∧ t.regions = s.regions ∧
        { t.mn e with acc := m.acc, flags := m.flags, poison := m.poison } = done { m with row := row }
      let ints (row : List Byte) (n : Nat) : W32 × Bool := sat32 (total (((List.range row.length).map fun i =>
        ((nth i row).toNat - (vget m.za (i / 16)).toNat : Int) * ((mget (64 * n + i) m.active).toNat - (vget m.zw (i / 16)).toNat)) ++
        if adds then [(accAt s bank n).toInt] else []))
      let floats (row : List Byte) (a el n : Nat) : W32 :=
        let products := Val.sum (s.mnRm e)
          (((rowVals a el row).zip (rowVals wf el (mgets (64 * n) (rowBytes wf el) m.active))).map fun p => Val.mul p.1 p.2)
        (rnd32 (s.mnRm e) (if adds then Val.add (s.mnRm e) products (val32 (accAt s bank n)) else products)).1
      let product (i : Instr) (row : List Byte) (a : Nat) (row' : Option (List Byte × BitVec 4)) :=
        (m.actPoison = none → m.zpPoison = none → a = 8 → wf = 8 → runsTo s i fun t => rest t row' ∧
          (t.mn e).poison = m.poison ∧
          (∀ b n, n < 64 → accAt t b n = if b = bank ∧ n ≤ top then (ints row n).1 else accAt s b n) ∧
          ∀ b, b < 4 → vget (t.mn e).flags b = if b = bank ∧ ((List.range (top + 1)).any fun n => (ints row n).2) = true then
            vget m.flags b ||| condO else vget m.flags b) ∧
        (∀ el, m.actPoison = none → 1 ≤ a → a ≤ 7 → 1 ≤ wf → wf ≤ 7 → pairElems a wf row.length = some el →
          runsTo s i fun t => rest t row' ∧ (t.mn e).poison = m.poison ∧
            ∀ b n, n < 64 → accAt t b n = if b = bank ∧ n ≤ top then floats row a el n else accAt s b n) ∧
        (∀ c, a = 8 → wf = 8 → m.actPoison = some c ∨ (m.actPoison = none ∧ m.zpPoison = some c) → runsTo s i fun t =>
          rest t row' ∧ (t.mn e).acc = m.acc ∧ (t.mn e).flags = m.flags ∧
            ∀ b, b < 4 → vget (t.mn e).poison b = if b = bank then some c else vget m.poison b)
      let words := m.rowbuf.map fun k => k.tok.data
      let row := (bytesOfWords words).take len
      let clean := ∀ k ∈ m.rowbuf, k.tok.marker ≠ 3
      let zeroed (t : State) := ∀ b n, n < 64 → accAt t b n = if b = bank ∧ n ≤ top then 0 else accAt s b n
      let calmed (t : State) := ∀ b, b < 4 → vget (t.mn e).flags b = (if b = bank then 0 else vget m.flags b) ∧
        vget (t.mn e).poison b = (if b = bank then none else vget m.poison b)
      let fl := vget m.flags bank
      let fatal : Conds := BitVec.ofNat 5 (s.inField e 0 0 7 0)
      let token (mk : BitVec 2) (v : W32) : Token := { phase := h.tok.phase, marker := mk, data := v, fire := s.firingNumber e
                                                       channel := BitVec.ofNat 5 (s.inField e 0 0 5 0) }
      let out (last : Bool) (v : W32) : Token := match vget m.poison bank with
        | some c => token 3 c
        | none => if fl &&& fatal ≠ 0 then token 3 (fl.setWidth 32) else token (if last then 1 else 0) v
      let link := s.inField e 0 0 4 0
      (code h = 1 → m.rowbuf.length = (len + 3) / 4 → clean → product (.mnMul e) row af (some (row, BitVec.ofNat 4 af))) ∧
      (code h = 1 → m.rowbuf.length = (len + 3) / 4 → ∀ k, m.rowbuf.find? (fun k => k.tok.marker == 3) = some k →
        runsTo s (.mnMul e) fun t => rest t m.row ∧ (t.mn e).acc = m.acc ∧ (t.mn e).flags = m.flags ∧
          ∀ b, b < 4 → vget (t.mn e).poison b = if b = bank then some k.tok.data else vget m.poison b) ∧
      (∀ latched (a : BitVec 4), code h = 2 → m.row = some (latched, a) → 1 ≤ latched.length → latched.length ≤ 64 →
        product (.mnMulacc e) latched a.toNat m.row) ∧
      (code h = 3 → s.outOf e = [] → m.shState = .filling ∨ (m.shState = .empty ∧ (s.shadowHead e).isSome = true) →
        exec (.mnSwap e) s = .next s) ∧
      (code h = 3 → m.shState ≠ .filling → s.shadowHead e = none → runsTo s (.mnSwap e) fun t => becomes t { m with
        active := m.shadow, shState := .empty, shPoison := none
        actPoison := if m.shState = .full then m.shPoison else none }) ∧
      (code h = 4 → runsTo s (.mnRead e) fun t => becomes t m ∧ emits s t e link (out true (accAt s bank top))) ∧
      (code h = 5 → runsTo s (.mnClear e) fun t => rest t m.row ∧ zeroed t ∧ calmed t) ∧
      (code h = 6 → runsTo s (.mnDrain e) fun t => rest t m.row ∧ calmed t ∧
        (if adds then ∀ b n, n < 64 → accAt t b n = accAt s b n else zeroed t) ∧
        (top = 0 → emits s t e link (out true (accAt s bank 0))) ∧
        keeps s t e link ((List.range (top + 1)).map fun n => out (n == top) (accAt s bank n))) ∧
      (code h = 7 → m.rowbuf.length = 4 → clean → runsTo s (.mnSetzp e) fun t => fabricOnly s t ∧
        { t.mn e with za := m.za, zw := m.zw } = done { m with zpPoison := none } ∧
        ∀ i, i < 8 → vget (t.mn e).za i = nth i (bytesOfWords words) ∧ vget (t.mn e).zw i = nth (8 + i) (bytesOfWords words)) ∧
      (code h = 7 → m.rowbuf.length = 4 → ∀ k, m.rowbuf.find? (fun k => k.tok.marker == 3) = some k →
        runsTo s (.mnSetzp e) fun t => becomes t { m with zpPoison := some k.tok.data }))

/-- 10 R240, 12 R259, 08 R189. The model's own choice here: a steep makes the plane FILLING in one act and writes all its bytes
and completes in another (log 115). -/
def Obligations.ShadowPlanesFillByTokenOrSteep : Prop :=
  ∀ (s : State) (e : Nat) (r : Region), idxKind (e % 520) = .mn → acting s e r →
    let m := s.mn e
    (∀ c l h, s.inputHead e 2 2 Token.isData = some (c, l, h) → s.chanField e c 0 3 0 = 1 →
      let i := if m.shState = .filling then m.shCount else 0
      let writes (t : State) := { t.mn e with shadow := m.shadow, shState := m.shState, shCount := m.shCount, shByToken := m.shByToken
                                              shPoison := m.shPoison } = m ∧ fabricOnly s t ∧
        bufAt t e l c = (bufAt s e l c).drop 1 ∧
        ∀ a, mget a (t.mn e).shadow = if 4 * i ≤ a ∧ a < 4 * i + 4 ∧ h.tok.marker ≠ 3 then
          (h.tok.data.extractLsb' (8 * (a - 4 * i)) 8) else mget a m.shadow
      let may := (m.shState = .filling ∧ m.shByToken = true) ∨ (m.shState = .empty ∧ m.shCount = 0 ∧ m.steepQ = [])
      (may → h.tok.marker ≠ 3 → h.tok.marker ≠ 2 → i + 1 < 1024 → runsTo s (.shadowFillToken e) fun t => writes t ∧
        (t.mn e).shState = .filling ∧ (t.mn e).shCount = i + 1 ∧ (t.mn e).shByToken = true) ∧
      (may → h.tok.marker ≠ 3 → (h.tok.marker = 2 ∨ i + 1 = 1024) → runsTo s (.shadowFillToken e) fun t => writes t ∧
        (t.mn e).shState = .full ∧ (t.mn e).shPoison = none ∧ (t.mn e).shCount = 0) ∧
      (may → h.tok.marker = 3 → runsTo s (.shadowFillToken e) fun t => writes t ∧
        (t.mn e).shState = .full ∧ (t.mn e).shPoison = some h.tok.data) ∧
      (m.shState = .full ∨ (m.shState = .filling ∧ m.shByToken = false) → exec (.shadowFillToken e) s = .next s)) ∧
    (s.shadowHead e = none → exec (.shadowFillToken e) s = .next s) ∧
    (∀ k rest, m.steepQ = k :: rest →
      (m.shState = .full ∨ (m.shState = .filling ∧ m.shByToken = true) → exec (.steep e) s = .next s) ∧
      (m.shState = .empty → s.shadowHead e = none → runsTo s (.steep e) fun t => fabricOnly s t ∧
        t.mn e = { m with shState := .filling, shByToken := false, shPoison := none }) ∧
      (m.shState = .filling → m.shByToken = false → runsTo s (.steep e) fun t => sameBytes s t ∧
        t.mn e = { m with shState := .full, steepQ := rest, shadow := (t.mn e).shadow } ∧
        (∀ a, mget a (t.mn e).shadow = if a < 4096 then mget (e / 520 / 40 * 2 ^ 34 + k.cmd.toNat + a) s.ws
          else mget a m.shadow) ∧
        answersTo s t k.core { counter := .cpc }))

/-- 10 R242, R243 and R253. That SHAPE lasts while its plane does, the PHASE of an error token, and that SHAPE completes once
no tensor is being received, are the model's readings (logs 64, 65 and 116). -/
def Obligations.ReorderElementsPermuteTensors : Prop :=
  ∀ (s : State) (e : Nat) (r : Region), idxKind (e % 520) = .ro → acting s e r →
    let b := s.ro e
    let becomes (t : State) (x : Ro) := fabricOnly s t ∧ t.ro e = x
    let idx (q : RoShape) (n : Nat) : Nat :=
      let cn := q.cnt.map fun v => v.toNat + 1
      (q.off.toNat + n % cn[0] * q.str[0].toNat + n / cn[0] % cn[1] * q.str[1].toNat + n / cn[0] / cn[1] * q.str[2].toNat) % 1024
    let count (q : RoShape) : Nat := (q.cnt[0].toNat + 1) * (q.cnt[1].toNat + 1) * (q.cnt[2].toNat + 1)
    let isOpen (x : RoTensor) := x.err = none ∧ x.entries.length < count x.shape
    let valid (q : RoShape) := count q ≤ (if q.dbl then 512 else 1024) ∧ (∀ n, n < count q → idx q n < count q) ∧
      ∀ j, j < count q → ∃ n, n < count q ∧ idx q n = j
    let fits : Bool := s.room e (s.inField e 0 0 1 0) (s.inField e 0 0 2 0 % 32)
    let out (tok : BitVec 5 → Token) (t : State) :=
      emits s t e (s.inField e 0 0 1 0) (tok (BitVec.ofNat 5 (s.inField e 0 0 2 0))) ∧
      t.regionAt (e / 520) = some { r with firedNow := r.firedNow || fits }
    (∀ c l h, s.inputHead e 0 0 Token.isData = some (c, l, h) →
      let taken (x : Ro) := runsTo s (.roInput e) fun t => becomes t x ∧ bufAt t e l c = (bufAt s e l c).drop 1
      let after (x : RoTensor) : RoTensor :=
        if h.tok.marker = 3 then { x with err := some (h.tok.data, h.tok.phase), ended := h }
        else if h.tok.marker = 2 ∧ x.entries.length + 1 < count x.shape then { x with err := some (1, h.tok.phase), ended := h }
        else { x with entries := x.entries ++ [h.tok], times := x.times ++ [h.ns] }
      (∀ x, b.tensors = [x] → ¬ isOpen x → x.formed = true → b.queue = [] →
        (s.outOf e ≠ [] → x.shape.dbl = false → exec (.roInput e) s = .next s) ∧
        (s.outOf e = [] → taken { b with tensors := [after { shape := s.roShape e }] })) ∧
      ((∀ x ∈ b.tensors, x.formed = false) →
      (∀ x, b.tensors = [x] → isOpen x → taken { b with tensors := [after x] }) ∧
      (∀ x y, b.tensors = [x, y] → ¬ isOpen x → isOpen y → taken { b with tensors := [x, after y] }) ∧
      (b.tensors = [] → b.queue = [] → taken { b with tensors := [after { shape := s.roShape e }] }) ∧
      (∀ x, b.tensors = [x] → ¬ isOpen x → b.queue = [] →
        (x.shape.dbl = true → (s.roShape e).dbl = true →
          taken { b with tensors := [x, after { shape := s.roShape e }] }) ∧
        (x.shape.dbl = false ∨ (s.roShape e).dbl = false → exec (.roInput e) s = .next s)))) ∧
    ((s.drain e).outOf e ≠ [] → exec (.roOutput e) s = .next (s.drain e)) ∧
    (s.outOf e = [] → (∀ x ∈ b.tensors, x.formed = false) → ∀ x rest, b.tensors = x :: rest →
      let n := x.sent
      let last := n + 1 = count x.shape
      let leaves (y : RoTensor) : Ro := { b with tensors := if y.formed ∧ fits then rest else y :: rest }
      (x.err = none → idx x.shape n < x.entries.length → runsTo s (.roOutput e) fun t =>
        let k := nth (idx x.shape n) x.entries
        becomes t (leaves { x with sent := n + 1, formed := decide last }) ∧
        out (fun ch => { phase := k.phase, channel := ch, data := k.data, marker :=
          if last then 2 else if n % (x.shape.cnt[0].toNat + 1) = x.shape.cnt[0].toNat then 1 else 0 }) t) ∧
      (x.err = none → x.entries.length ≤ idx x.shape n → runsTo s (.roOutput e) fun t => becomes t b ∧
        t.regions = s.regions) ∧
      (∀ code ph, x.err = some (code, ph) → runsTo s (.roOutput e) fun t => becomes t (leaves { x with formed := true }) ∧
        out (fun ch => { phase := ph, marker := 3, channel := ch, data := code }) t)) ∧
    (∀ k rest, b.queue = k :: rest →
      let f (v : Word) (lo : Nat) : BitVec 10 := v.extractLsb' lo 10
      let q : RoShape := { off := f k.arg 0, cnt := #v[f k.arg 10, f k.arg 20, f k.arg 30]
                           str := #v[f k.arg 40, f k.arg 50, f k.cmd 4], dbl := k.cmd.getLsbD 14 }
      (k.cmd.extractLsb' 0 4 = 1 →
        ((∃ x ∈ b.tensors, isOpen x) → exec (.roShape e) s = .next s) ∧
        ((∀ x ∈ b.tensors, ¬ isOpen x) → valid q → runsTo s (.roShape e) fun t => sameBytes s t ∧
          t.ro e = { b with queue := rest, shape := some (s.roSlot e, q) } ∧ answersTo s t k.core { counter := .toc }) ∧
        ((∀ x ∈ b.tensors, ¬ isOpen x) → ¬ valid q → runsTo s (.roShape e) fun t => sameBytes s t ∧
          t.ro e = { b with queue := rest } ∧ endsIn s t e k .toc 0x10)) ∧
      (k.cmd.extractLsb' 0 4 = 2 → s.outOf e = [] → (∀ x ∈ b.tensors, x.formed = false) →
        ((∀ x ∈ b.tensors, x.sent = 0) → runsTo s (.roFlush e) fun t => sameBytes s t ∧
          t.ro e = { b with queue := rest, tensors := [] } ∧ answersTo s t k.core { counter := .toc }) ∧
        ((∃ x ∈ b.tensors, x.sent ≠ 0) → s.room e (s.inField e 0 0 1 0) (s.inField e 0 0 2 0) = true →
          runsTo s (.roFlush e) fun t => sameBytes s t ∧ t.ro e = { b with queue := rest, tensors := [] } ∧
            answersTo s t k.core { counter := .toc } ∧ out (fun ch => { marker := 3, channel := ch, data := 2 }) t) ∧
        ((∃ x ∈ b.tensors, x.sent ≠ 0) → s.room e (s.inField e 0 0 1 0) (s.inField e 0 0 2 0) = false →
          runsTo s (.roFlush e) fun t => fabricOnly s t ∧ t.ro e = b)))

/-- 10 R244 to R247 and R253. Which of several STATUS codes is written is open (log 63), so one alone applies here. The model's
own choice here: after SEL_FULL or SEL_PAIR the set is complete and empty, so that the next token waits (log 62). -/
def Obligations.SelectionEnginesAnswerQueries : Prop :=
  ∀ (s : State) (e : Nat) (r : Region), idxKind (e % 520) = .sel → acting s e r →
    let q := s.sel e
    let wen : Bool := s.selField e 3 == 1
    let kf := s.selField e 2
    let becomes (t : State) (x : Sel) := sameBytes s t ∧ t.sel e = x
    (∀ w c l h, s.inputHead e (if w then 1 else 0) (if w then 1 else 0) Token.isData = some (c, l, h) →
      let ended := h.tok.marker = 2
      let went (t : State) := bufAt t e l c = (bufAt s e l c).drop 1
      let gone : Sel := { q with keys := [], weights := [], absorb := true }
      let raised (t : State) (code : BitVec 8) := let n := r.eventName ((s.dist (e / 520)).slotOf (e % 520) c)
        (t.coreOf (e / 520)).pending = (s.coreOf (e / 520)).pending ++
          [{ cause := 0x12, sub := code, unit := BitVec.ofNat 8 (e % 520 / 26), epc := n.2.1, eecsn := n.2.2 }]
      let key : W32 × Bool := if kf = 10 then (h.tok.data, false) else (h.tok.data, (val32 h.tok.data).isNaN)
      (w = false → q.keyEnd = true → exec (.selKeyToken e w) s = .next s) ∧
      (w = true → wen = false ∨ q.wEnd = true → exec (.selKeyToken e w) s = .next s) ∧
      (w = false → q.keyEnd = false → q.absorb = false → h.tok.marker ≠ 3 →
        (q.keys.length < 4096 → kf = 0 ∨ kf = 10 →
          ¬ (ended ∧ wen = true ∧ q.wEnd = true ∧ q.keys.length + 1 ≠ q.weights.length) → runsTo s (.selKeyToken e w) fun t =>
            went t ∧ becomes t { q with keys := q.keys ++ [key], keyEnd := ended } ∧ fabricOnly s t) ∧
        (q.keys.length < 4096 → ended → wen = true → q.wEnd = true → q.keys.length + 1 ≠ q.weights.length →
          runsTo s (.selKeyToken e w) fun t => went t ∧ becomes t { gone with keyEnd := true } ∧ raised t 0x22) ∧
        (q.keys.length = 4096 → runsTo s (.selKeyToken e w) fun t => went t ∧ becomes t { gone with keyEnd := ended } ∧
          raised t 0x20)) ∧
      (w = false → q.keyEnd = false → h.tok.marker = 3 → runsTo s (.selKeyToken e w) fun t =>
        went t ∧ becomes t { gone with keyEnd := true, errored := true } ∧ fabricOnly s t) ∧
      (w = true → wen = true → q.wEnd = false → h.tok.marker = 3 → runsTo s (.selKeyToken e w) fun t =>
        went t ∧ becomes t { gone with wEnd := true, errored := true } ∧ fabricOnly s t) ∧
      (w = true → wen = true → q.wEnd = false → q.absorb = false → h.tok.marker ≠ 3 →
        ¬ (ended ∧ q.keyEnd = true ∧ q.keys.length ≠ q.weights.length + 1) → runsTo s (.selKeyToken e w) fun t =>
          went t ∧ becomes t { q with weights := q.weights ++ [h.tok.data], wEnd := ended } ∧ fabricOnly s t) ∧
      (w = true → wen = true → q.wEnd = false → q.absorb = true → h.tok.marker ≠ 3 → runsTo s (.selKeyToken e w) fun t =>
        went t ∧ becomes t { q with wEnd := ended } ∧ fabricOnly s t)) ∧
    (∀ k rest, q.queue = k :: rest → q.keys.length ≤ 4096 →
      let code := (k.cmd.extractLsb' 0 4).toNat
      let mask : Bool := k.cmd.getLsbD 4
      let gran := s.selField e 5
      let len := if mask then 33 else 1
      let ask : Instr := if code = 1 then .selKth e else if code = 2 then .selQuant e else .selWquant e
      let img (i : Nat) : Nat := let x := (nth i q.keys).1
        (if kf = 10 ∨ x.toNat < 2 ^ 31 then x ^^^ 0x80000000 else ~~~x).toNat
      let kept := (List.range q.keys.length).filter fun i => (nth i q.keys).2 = false
      let n := kept.length
      let below (v : Nat) := (kept.filter fun i => img i < v).length
      let upTo (v : Nat) := kept.filter fun i => img i ≤ v
      let weight (l : List Nat) : Int := total (l.map fun i => weightUnits (nth i q.weights))
      (code = 4 → runsTo s (.selClear e) fun t => becomes t { queue := rest } ∧ answersTo s t k.core { counter := .toc }) ∧
      (1 ≤ code → code ≤ 3 → ¬ (q.keyEnd = true ∧ (wen = true → q.wEnd = true)) → exec ask s = .next s) ∧
      (1 ≤ code → code ≤ 3 → q.keyEnd = true → (wen = true → q.wEnd = true) →
        s.resultArea (e / 520) (s.selField e 4) gran len = none →
        runsTo s ask fun t => becomes t { q with queue := rest } ∧ endsIn s t e k .toc 0x21) ∧
      (∀ dd ord, q.keyEnd = true → (wen = true → q.wEnd = true) →
        s.resultArea (e / 520) (s.selField e 4) gran len = some (dd, ord) → s.areaWaking dd ord gran len = false →
        let at_ := ord * 2 ^ 19 + 16 * gran
        let word (t : State) (o n : Nat) := mgetN (at_ + o) n (t.dist dd).tileMem
        let written (t : State) := t.sel e = { q with queue := rest } ∧ answersTo s t k.core { counter := .toc } ∧
          sameBytesBut s t dd at_ (16 * len) ∧ granKey ord gran ∈ (t.dist dd).full ∧ word t 8 4 = n ∧
          word t 12 2 = q.keys.length - n
        let answers (P : Nat → Prop) := runsTo s ask fun t => written t ∧ word t 14 2 = 0 ∧ ∃ a ∈ kept, P a ∧
          word t 0 4 = (nth a q.keys).1.toNat ∧ word t 4 4 = below (img a) ∧
          (mask = true → ∀ i, (word t 16 512).testBit i = true ↔ i ∈ kept ∧ img i = img a)
        let fails (st : Nat) := runsTo s ask fun t => written t ∧ word t 14 2 = st ∧
          word t 0 4 = (if kf = 10 then 0 else 0x7FC00000) ∧ word t 4 4 = 0xFFFFFFFF ∧ (mask = true → word t 16 512 = 0)
        let rank (p : Nat) (a : Nat) : Prop := below (img a) ≤ p ∧ p < (upTo (img a)).length
        let p := k.arg.toNat % 4096
        (1 ≤ code → code ≤ 3 → q.errored = true → fails 1) ∧
        (code = 1 → q.errored = false → p < n → answers (rank p)) ∧ (code = 1 → n ≤ p → fails 1) ∧
        (q.errored = false → ∀ neg num den, val32 (k.arg.setWidth 32) = .fin neg num den → (neg = false ∨ num = 0) → num ≤ den →
          (code = 2 → 0 < n → answers (rank ((num * n + den - 1) / den - 1))) ∧
          (code = 2 → n = 0 → fails 1) ∧
          (code = 3 → wen = false → 0 < n → fails 4) ∧
          (code = 3 → wen = true → 0 < n → (∀ i ∈ kept, badWeight (nth i q.weights) = false) → answers fun a =>
            num * weight kept ≤ den * weight (upTo (img a)) ∧
            ∀ i ∈ kept, img i < img a → den * weight (upTo (img i)) < num * weight kept)) ∧
        (code = 2 → q.errored = false → 0 < n → (∀ neg num den, val32 (k.arg.setWidth 32) = .fin neg num den →
          (neg = true ∧ num ≠ 0) ∨ den < num) → fails 2)))

/-- 10 R249 and R253 with Table K-127. -/
def Obligations.MonitorCommandsTakeEffect : Prop :=
  ∀ (s : State) (e : Nat) (r : Region) (k : EngCmd) (rest : List EngCmd), idxKind (e % 520) = .mon → acting s e r →
    (s.mon e).queue = k :: rest →
    let m := s.mon e
    let code := (k.cmd.extractLsb' 0 4).toNat
    let f := (k.cmd.extractLsb' 4 3).toNat
    let v : W32 := k.arg.setWidth 32
    let does (i : Instr) (x : Mon) := runsTo s i fun t => sameBytes s t ∧ t.mon e = { x with queue := rest } ∧
      answersTo s t k.core { counter := .toc }
    let changed (g : MonField → MonField) : Vector MonField 8 :=
      Vector.ofFn fun i => if i.val = f then g m.fields[i] else m.fields[i]
    let field (g : MonField → MonField) : Mon := { m with fields := changed g }
    let zero (x : MonField) : MonField := { x with total := 0, invalid := false, overflow := false }
    (code = 1 → does (.monArm e) { m with armed := m.armed ||| k.arg.setWidth 8, armer := some k }) ∧
    (code = 2 → does (.monDisarm e) { m with armed := 0, armer := none }) ∧
    (code = 3 → does (.monSetref e) (field fun x => { x with ref := v })) ∧
    (code = 4 → does (.monSetabs e) (field fun x => { x with abs := v })) ∧
    (code = 5 → does (.monSetrel e) (field fun x => { x with rel := v })) ∧
    (code = 6 → k.cmd.getLsbD 7 = false → does (.monClear e) (field zero)) ∧
    (code = 6 → k.cmd.getLsbD 7 = true → does (.monClear e) { m with fields := m.fields.map zero }) ∧
    (code = 7 → s.resultArea (e / 520) (s.monField e 3) (s.monField e 4) 3 = none → runsTo s (.monRead e) fun t =>
      sameBytes s t ∧ t.mon e = { m with queue := rest } ∧ endsIn s t e k .toc 0x38) ∧
    (∀ dd ord, code = 7 → s.resultArea (e / 520) (s.monField e 3) (s.monField e 4) 3 = some (dd, ord) →
      let at_ := ord * 2 ^ 19 + 16 * s.monField e 4
      (s.areaWaking dd ord (s.monField e 4) 3 = true → exec (.monRead e) s = .next s) ∧
      (s.areaWaking dd ord (s.monField e 4) 3 = false → runsTo s (.monRead e) fun t => t.mon e = { m with queue := rest } ∧
        sameBytesBut s t dd at_ 48 ∧ answersTo s t k.core { counter := .toc } ∧
        BitVec.ofNat 320 (mgetN at_ 40 (t.dist dd).tileMem) = BitVec.ofInt 320 (vget m.fields f).total ∧
        mgetN (at_ + 40) 8 (t.dist dd).tileMem =
          (if (vget m.fields f).invalid then 1 else 0) + (if (vget m.fields f).overflow then 2 else 0) ∧
        ∀ i, i < 3 → granKey ord (s.monField e 4 + i) ∈ (t.dist dd).full)) ∧
    (code ≠ 1 → exec (.monArm e) s = .next s) ∧ (code ≠ 7 → exec (.monRead e) s = .next s)

/-- 10 R250 to R253, 12 R258. `parseBlock` and `BlockHdr.raw` are the header and table checks and the decoding of Tables
K-125 and K-126, tested on the block of R252's example; a STORED block is spelled out, and that its padding bytes may be
nonzero is the model's own choice (log 117). -/
def Obligations.DecompressionRunsReleaseWholeBlocks : Prop :=
  ∀ (s : State) (e : Nat) (r : Region), idxKind (e % 520) = .dec → acting s e r →
    let x := s.dec e
    let d := e / 520
    let link := s.planeField d (e % 520) 0 0 0
    let ch : BitVec 5 := BitVec.ofNat 5 (s.planeField d (e % 520) 0 1 0)
    (∀ k rest, x.job = none → x.queue = k :: rest → runsTo s (.decRun e) fun t => fabricOnly s t ∧
      t.dec e = { x with job := some { cmd := k } }) ∧
    (x.job ≠ none → exec (.decRun e) s = .next s) ∧
    (∀ j, x.job = some j →
      let toch := j.cmd.cmd.getLsbD 12
      let mark := some (1024 + e, 1 + j.cmd.arr)
      let keepsJob (t : State) (j' : DecJob) := fabricOnly s t ∧ t.dec e = { x with job := some j' }
      let clear := s.outOf e = [] ∧ j.raw = []
      let faults (code : BitVec 8) := runsTo s (.decBlock e) fun t => keepsJob t { j with ready := none, buf := [], fault := some code } ∧
        (toch = true → emits s t e link { marker := 3, channel := ch, data := code.setWidth 32, tag := mark })
      let releases (last : Bool) (bs : List Byte) (left : List Byte) :=
        (toch = true → runsTo s (.decBlock e) fun t => keepsJob t { j with ready := none, buf := left, last := last } ∧
          let ws := wordsOf ((bs.length + 3) / 4) bs
          keeps s t e link (ws.mapIdx fun i w => {
            channel := ch, data := w, marker := if i + 1 < ws.length then 0 else if last then 2 else 1, tag := mark })) ∧
        (toch = false → ∀ p, j.cmd.dst = some p →
          (j.dstPos + bs.length ≤ p.elements * p.size → runsTo s (.decBlock e) fun t =>
            keepsJob t { j with ready := none, buf := left, last := last, raw := bs }) ∧
          (p.elements * p.size < j.dstPos + bs.length → faults 0x45))
      let ends := runsTo s (.decBlock e) fun t =>
        sameBytes s t ∧ t.dec e = { job := none, queue := x.queue.drop 1 } ∧
        (j.fault = none → answersTo s t j.cmd.core { counter := .cpc }) ∧
        ∀ c, j.fault = some c → endsIn s t e j.cmd .cpc c
      let abroad := toch = true ∧ s.decAbroad e j j.fault.isNone = true
      (∀ c, clear → j.ready = some (.inl c) → faults c) ∧
      (∀ last bs, clear → j.ready = some (.inr (last, bs)) → releases last bs j.buf) ∧
      (clear → j.ready = none → (j.fault ≠ none ∨ j.last = true) →
        (s.engineLogged d (.dec e) = true ∨ abroad → exec (.decBlock e) s = .next s) ∧
        (s.engineLogged d (.dec e) = false → ¬ abroad → ends)) ∧
      (∀ q, j.cmd.src = some q → j.ready = none → j.last = false → j.fault = none →
        let field (o n : Nat) := leNat ((j.buf.drop o).take n)
        let whole (b : BlockHdr) := 32 + (b.codedLen + 15) / 16 * 16
        (clear → j.buf = [] → q.elements * q.size ≤ j.srcPos →
          (s.engineLogged d (.dec e) = true ∨ abroad → runsTo s (.decBlock e) fun t => keepsJob t { j with last := true }) ∧
          (s.engineLogged d (.dec e) = false → ¬ abroad → ends)) ∧
        (clear → 0 < j.buf.length → j.buf.length < 32 → q.elements * q.size ≤ j.srcPos → faults 0x44) ∧
        (∀ c, clear → 32 ≤ j.buf.length → parseBlock (j.buf.take 32) = .error c → faults c) ∧
        (clear → 32 ≤ j.buf.length → field 0 2 ≠ 0xD3C5 → faults 0x40) ∧
        (∀ b, parseBlock (j.buf.take 32) = .ok b → 32 ≤ j.buf.length → whole b ≤ j.buf.length →
          let payload := (j.buf.take (whole b)).drop 32
          (∀ bs, clear → b.raw payload = .ok bs → releases b.last bs (j.buf.drop (whole b))) ∧
          (∀ c, clear → b.raw payload = .error c → faults c) ∧
          (∀ bs, j.raw = [] → (s.drain e).outOf e ≠ [] → b.raw payload = .ok bs → runsTo s (.decBlock e) fun t =>
            keepsJob t { j with ready := some (.inr (b.last, bs)), buf := j.buf.drop (whole b) } ∧
            t.outOf e = (s.drain e).outOf e)) ∧
        (clear → field 0 2 = 0xD3C5 → field 2 1 = 1 → field 3 1 % 16 ≤ 4 → field 3 1 / 16 ∈ [2, 4] → 1 ≤ field 4 4 →
          field 4 4 ≤ 65536 → field 8 4 = field 4 4 → field 12 8 = 0 → field 20 4 ∈ [1, 3] → field 28 4 = 0 →
          j.buf.length = 32 + (field 4 4 + 15) / 16 * 16 →
          let bs := (j.buf.drop 32).take (field 4 4)
          (crc32c bs = field 24 4 → releases (field 20 4 == 3) bs []) ∧ (crc32c bs ≠ field 24 4 → faults 0x43))) ∧
      (∀ p dd ord off, s.outOf e = [] → j.raw ≠ [] → j.ready = none → j.last = true → j.fault = none → j.cmd.dst = some p →
        plain p → p.esz = 0 → p.fmt.toNat ≤ 4 → tilePlace s d (p.addr j.dstPos) dd ord off → off % 16 + j.raw.length ≤ 16 →
        j.dstPos + j.raw.length ≤ p.elements → (∀ i, i < j.raw.length → p.addr (j.dstPos + i) = p.addr j.dstPos + i) →
        s.engineLogged d (.dec e) = false → ¬ abroad → runsTo s (.decBlock e) fun t =>
          sameBytesBut s t dd (ord * 2 ^ 19 + off) j.raw.length ∧ t.dec e = { job := none, queue := x.queue.drop 1 } ∧
          (∀ i, i < j.raw.length → tileByteAt t dd ord (off + i) = nth i j.raw) ∧
          granKey ord (off / 16) ∈ (t.dist dd).full ∧ answersTo s t j.cmd.core { counter := .cpc }))

/-- 08 R190, 05 R109 and R115. `Descriptor.run` lists the bytes of a walk from a place on that lie in one granule. The
model's own choices here: the code of a fault in tile space (log 61), the granules performed in the walk's order (log 142),
and the bits of a wider element above its value, which are 0 (log 66). -/
def Obligations.CopiesMoveElements : Prop :=
  ∀ (s : State) (d : Nat) (r : Region) (k : EngCmd) (rest : List EngCmd) (a b : Descriptor),
    s.regionAt d = some r → r.fires = true → seqIdx ∉ (s.dist d).sealed → 520 ∉ (s.dist d).sealed →
    let c := (s.dist d).copier
    c.queue = k :: rest → k.src = some a → k.dst = some b → namesTiles a.cap → namesTiles b.cap →
    let ends (t : State) := (t.dist d).copier = { queue := rest } ∧ answersTo s t k.core { counter := .cpc }
    let room := (b.run c.dstPos 16).length
    (c.inb = [] → c.outb = [] → a.bytes ≤ c.srcPos → s.engineLogged d (.copier d) = false →
      runsTo s (.copyRun d) fun t => sameBytes s t ∧ ends t) ∧
    (c.inb = [] → c.outb = [] → c.srcPos < a.bytes → s.tileAddr d (a.byteAt c.srcPos) = none →
      runsTo s (.copyRun d) fun t => sameBytes s t ∧
        (t.dist d).copier = { queue := rest } ∧ endsIn s t (520 * d + 493) k .cpc 2) ∧
    (∀ dd ord off, c.inb = [] → c.outb = [] → c.srcPos < a.bytes → tilePlace s d (a.byteAt c.srcPos) dd ord off → a.fe ≠ 0 →
      granKey ord (off / 16) ∉ (s.dist dd).full → exec (.copyRun d) s = .next s) ∧
    (∀ bs pos, (a.size ≤ c.inb.length ∧ bs = c.inb ∧ pos = c.srcPos) ∨
        (c.inb = [] ∧ a.fe = 0 ∧ a.size ≤ (a.run c.srcPos 16).length ∧ pos = c.srcPos + (a.run c.srcPos 16).length ∧
          ∃ dd ord off, tilePlace s d (a.byteAt c.srcPos) dd ord off ∧
            bs = (a.run c.srcPos 16).map fun v => tileByteAt s dd ord (v % 2 ^ 19)) →
      a.fmt = b.fmt → a.esz = b.esz →
      let out := c.outb ++ bs.take a.size
      let holds (t : State) (rest' : List Byte) (p : Nat) := t.coreOf d = s.coreOf d ∧
        (t.dist d).copier = { c with inb := bs.drop a.size, outb := rest', srcPos := pos, dstPos := p }
      (out.length < room → runsTo s (.copyRun d) fun t => sameBytes s t ∧ holds t out c.dstPos) ∧
      (∀ ee ore offe, c.outb.length < room → out.length = room → tilePlace s d (b.byteAt c.dstPos) ee ore offe →
        (b.fe = 2 → granKey ore (offe / 16) ∈ (s.dist ee).full → runsTo s (.copyRun d) fun t => sameBytes s t ∧ holds t out c.dstPos) ∧
        (b.fe = 0 → (∀ i, i < room → nth i (b.run c.dstPos 16) = b.byteAt c.dstPos + i) → runsTo s (.copyRun d) fun t =>
          sameBytesBut s t ee (ore * 2 ^ 19 + offe) room ∧ granKey ore (offe / 16) ∈ (t.dist ee).full ∧
          (∀ i, i < room → tileByteAt t ee ore (offe + i) = nth i out) ∧
          ((bs.length ≠ a.size ∨ pos < a.bytes) → holds t [] (c.dstPos + room)) ∧
          (bs.length = a.size → a.bytes ≤ pos → s.engineLogged d (.copier d) = false → ends t)))) ∧
    (∀ dd ord off ee ore offe, c.inb = [] → c.outb = [] → c.srcPos = 0 → c.dstPos = 0 → a.elements = 1 → b.elements = 1 → a.fe = 0 →
      b.fe = 0 → tilePlace s d (a.addr 0) dd ord off → tilePlace s d (b.addr 0) ee ore offe → off % 16 + a.size ≤ 16 →
      offe % 16 + b.size ≤ 16 → a.fmt ≠ b.fmt → a.fmt.toNat ≤ 4 → b.fmt.toNat ≤ 4 → s.engineLogged d (.copier d) = false →
      runsTo s (.copyRun d) fun t => sameBytesBut s t ee (ore * 2 ^ 19 + offe) b.size ∧ ends t ∧
        granKey ore (offe / 16) ∈ (t.dist ee).full ∧
        mgetN (ore * 2 ^ 19 + offe) b.size (t.dist ee).tileMem =
          (rndTo b.fmt (RM.ofBits (k.cmd.extractLsb' 8 2)) ((b.fmt == 3 || b.fmt == 4) && k.cmd.getLsbD 10)
            (valOf a.fmt (mgetN (ord * 2 ^ 19 + off) a.size (s.dist dd).tileMem))).1.toNat % 256 ^ b.size)

/-- 06 R131 to R138 with Tables K-48 and K-50; 01 R30 and R31. What a commit checks of whole images is `State.imagesOk`. The
model's own choices here: which slot is busy (log 69), and that a square of another district is ADDR_OUTSIDE (log 70). -/
def Obligations.ConfigurationWordsBuildAPlane : Prop :=
  ∀ (s : State) (d : Nat), (s.dist d).cfg.await = false →
    let x := s.dist d
    let c := x.cfg
    let gives (i : Instr) (c' : CfgStream) := exec i s = .next (s.setDist d { x with cfg := c' })
    let took (w : W32) : CfgStream := { c with words := w :: c.words }
    let isOpen := c.words ≠ []
    let control (code : BitVec 6) (z : BitVec 24) : W32 := 3#2 ++ code ++ z
    (∀ (z : BitVec 21) (copy : BitVec 1) (slot : BitVec 2),
      let w : W32 := control 1 (z ++ copy ++ slot)
      (c.words = [] → gives (.cfgBegin d w)
        { words := [w], copy := if copy = 1 then some slot else none, errors := if z = 0 then [] else [1] }) ∧
      (isOpen → exec (.cfgBegin d w) s = .next (s.setDist d { x with cfgHeld := x.cfgHeld ++ [[w]] }))) ∧
    (∀ (die : BitVec 4) (row : BitVec 7) (col : BitVec 8) (slot : BitVec 2) (z : BitVec 9),
      let w : W32 := 1#2 ++ die ++ row ++ col ++ slot ++ z
      isOpen → c.high = none → (s.regionAt d).isSome = true →
      let names (p : Nat) : CfgStream := { took w with slot := some slot, home := some p }
      (∀ e, elemOf die.toNat row.toNat col.toNat = some e →
        (z = 0 → e / 520 = d → c.slot = none ∨ c.slot = some slot → c.home = none ∨ c.home = some d →
          gives (.cfgAddr d w) { names d with cursor := some (e % 520) }) ∧
        (z = 0 → e / 520 = d → ∀ t, c.slot = some t → t ≠ slot → c.home = none ∨ c.home = some d →
          gives (.cfgAddr d w) { names d with slot := some t, errors := c.errors ++ [3], cursor := some (e % 520) }) ∧
        (z ≠ 0 → e / 520 = d → c.slot = none → c.home = none →
          gives (.cfgAddr d w) { names d with cursor := some (e % 520), errors := c.errors ++ [1] }) ∧
        (z = 0 → e / 520 ≠ d → c.slot = none ∨ c.slot = some slot → c.home = none →
          gives (.cfgAddr d w) { names (e / 520) with cursor := some (e % 520), errors := c.errors ++ [4] }) ∧
        (z = 0 → e / 520 ≠ d → c.slot = none ∨ c.slot = some slot → c.home = some d →
          gives (.cfgAddr d w) { names d with cursor := some (e % 520), errors := c.errors ++ [3, 4] })) ∧
      (z = 0 → elemOf die.toNat row.toNat col.toNat = none → c.slot = none ∨ c.slot = some slot →
        gives (.cfgAddr d w) { took w with slot := some slot, errors := c.errors ++ [4], cursor := none })) ∧
    (∀ w : W32, w.extractLsb' 30 2 = 0 → isOpen → c.cursor = none →
      gives (.cfgField d w) { took w with high := none, errors := if c.slot = none then c.errors ++ [2] else c.errors }) ∧
    (∀ (off : BitVec 8) (f : BitVec 6) (low : BitVec 16) (i : Nat),
      let w : W32 := 0#2 ++ off ++ f ++ low
      let v : W32 := (c.high.getD 0) ++ low
      let j := i + off.toNat
      let page := (tget j c.pages).getD 0
      let at_ : CfgStream := { took w with high := none, cursor := some j }
      isOpen → c.cursor = some i →
      (519 < j → gives (.cfgField d w) { at_ with errors := c.errors ++ [4] }) ∧
      (j ≤ 519 → f ≠ 63 → (idxKind j).fieldWidth page f.toNat = none →
        gives (.cfgField d w) { at_ with errors := c.errors ++ [6] }) ∧
      (∀ n, j ≤ 519 → f ≠ 63 → (idxKind j).fieldWidth page f.toNat = some n →
        let put : CfgStream := { at_ with writes := (j, 64 * page + f.toNat, v) :: c.writes }
        (v.toNat < 2 ^ n → fieldAssigned (520 * d + j) page f.toNat v.toNat = true → gives (.cfgField d w) put) ∧
        (2 ^ n ≤ v.toNat ∨ fieldAssigned (520 * d + j) page f.toNat v.toNat = false →
          gives (.cfgField d w) { put with errors := c.errors ++ [7] })) ∧
      (∀ n, j ≤ 519 → f = 63 → (idxKind j).lastPage = some n →
        (v.toNat ≤ n → gives (.cfgField d w) { at_ with pages := tset j v.toNat c.pages }) ∧
        (n < v.toNat → gives (.cfgField d w) { at_ with errors := c.errors ++ [7] }))) ∧
    (∀ (z : BitVec 14) (hi : BitVec 16), isOpen → c.high = none →
      let w : W32 := 2#2 ++ z ++ hi
      gives (.cfgExtend d w) { took w with high := some hi, errors := if z = 0 then c.errors else c.errors ++ [1] }) ∧
    (∀ hi, isOpen → c.high = some hi → gives (.cfgSpargeawait d (control 3 0))
      { took (control 3 0) with high := none, errors := c.errors ++ [5], await := true }) ∧
    (isOpen → c.high = none → gives (.cfgSpargeawait d (control 3 0)) { took (control 3 0) with await := true }) ∧
    (∀ code, isOpen → c.high = none → code ∉ [1#6, 2#6, 3#6] →
      gives (.cfgSpargeawait d (control code 0)) { took (control code 0) with errors := c.errors ++ [1] }) ∧
    (c = {} → ∀ hi : BitVec 16, gives (.cfgExtend d (2#2 ++ 0#14 ++ hi))
      { words := [2#2 ++ 0#14 ++ hi], high := some hi, errors := [2] }) ∧
    (isOpen → c.high = none → x.cfgHeld = [] →
      let w := control 2 0
      let closed (y : District) (code : BitVec 4) : District := { y with cfg := {}, cfgError := some code }
      (∀ er l, c.errors = er :: l → (∀ a ∈ c.errors, a ≠ 0) → c.words.length < 49152 → c.slot = none →
        ∃ code ∈ c.errors, (∀ a ∈ c.errors, code.toNat ≤ a.toNat) ∧
          exec (.cfgCommit d w) s = .next (s.setDist d (closed x code))) ∧
      (∀ slot, c.errors = [] → c.slot = some slot → x.treeHold = [] →
        s.imagesOk d slot (c.images x) = true → s.slotBusy d slot = false →
        (49152 ≤ c.words.length → exec (.cfgCommit d w) s = .next (s.setDist d (closed x 8))) ∧
        (c.words.length < 49152 → runsTo s (.cfgCommit d w) fun t => onlyDist d s t ∧ fabricOnly s t ∧
          (t.dist d).cfg = {} ∧ (t.dist d).cfgError = some 0 ∧
          (∀ i k, i < 520 → k < 4 → k ≠ slot.toNat → (t.dist d).image i k = x.image i k) ∧
          ∀ i, i < 520 → ((t.dist d).image i slot.toNat).resident = true ∧
            ∀ key, tget key ((t.dist d).image i slot.toNat).fields =
              match c.writes.find? fun v => v.1 == i && v.2.1 == key with
              | some v => some v.2.2
              | none => match c.copy with
                | some from_ => tget key (x.image i from_.toNat).fields
                | none => none)) ∧
      (∀ slot, c.errors = [] → c.slot = some slot → s.imagesOk d slot (c.images x) = true → c.words.length < 49152 →
        s.slotBusy d slot = true → exec (.cfgCommit d w) s = .next (s.setDist d (closed x 9))))

/-- 19 R354 to R359, 04 R101, 01 R25 and R29. The boost clause is for one resident region, so that no two claims meet. The
model's own choices here: the registers show a chosen row at once, and what limits is the row of the interval (log 93), and a
MEDIUM that Table D-29 does not assign is taken as 0 (log 159). -/
def Obligations.KilnFollowsItsSchedule : Prop :=
  ∀ (s : State), s.regions.Pairwise (fun a b => a.loadId ≠ b.loadId) →
    let k := s.kiln
    let row : Nat := 8 * k.mode.toNat + k.row.toNat
    let throtIn (t : State) (r : Region) : Nat :=
      (r.districts.map fun d => max (t.distReg d).step (t.distReg d).fwstep.toNat).foldl max k.modStep
    let throt := throtIn s
    let allot (r : Region) : Nat := (r.districts.map fun d => (s.distReg d).allot.toNat).foldl (· + ·) 0
    (let chosen := { k with limKey := row, limNow := tgetD row k.limtab }
     let past (d : Nat) : Bool := decide (chosen.limits.tcrit < (s.distReg d).temp.toInt)
     runsTo s .powerInterval fun t => sameBytes s t ∧ t.timebase = max s.timebase s.nextPower ∧
      t.nextPower = s.nextPower + 1000 ∧ { t.kiln with alertst := k.alertst, alertDist := k.alertDist } = chosen ∧
      (∀ d, d < 640 → (t.distReg d).crit = past d ∧
        (t.distReg d).step = if past d = true ∧ (s.distReg d).crit = false then 7 else (s.distReg d).step) ∧
      ((∀ d, d < 640 → past d = (s.distReg d).crit) → fabricOnly s t ∧ t.kiln = chosen ∧ t.regs = s.regs) ∧
      t.regions = s.regions.map fun r => if r.saved then r else { r with pool := allot r * (8 - throtIn t r) / 8 }) ∧
    (∀ (inlet flow : BitVec 16) (reported : BitVec 4),
      let medium : BitVec 4 := if reported.toNat < 3 then reported else 0
      let fits (n : Nat) : Prop := let v := tgetD (8 * medium.toNat + n) k.limtab
        v.getLsbD 63 = true ∧ inlet.toInt ≤ 8 * (v.toNat % 2 ^ 8 : Nat) ∧ v.toNat / 2 ^ 12 % 2 ^ 12 ≤ flow.toNat
      let becomes (m n : Nat) := runsTo s (.boardReport inlet flow reported) fun t => sameBytes s t ∧ t.kiln = { k with
        inlet := inlet, flow := flow, medium := medium, stale := false, lastReport := some s.timebase
        mode := BitVec.ofNat 2 m, row := BitVec.ofNat 3 n, alertst := if 8 * m + n = row then k.alertst else k.alertst ||| 8 } ∧
        (8 * m + n ≠ row → tellsOfAlert s t 3)
      (∀ n, n < 8 → fits n → (∀ j, j < n → ¬ fits j) → becomes medium.toNat n) ∧
      ((∀ n, n < 8 → ¬ fits n) → becomes 0 0)) ∧
    (∀ a, k.lastReport = some a → k.stale = false → runsTo s .coolantStale fun t => sameBytes s t ∧
      t.timebase = max s.timebase (a + 100000000) ∧ tellsOfAlert s t 3 ∧
      t.kiln = { k with stale := true, mode := 0, row := 0, alertst := k.alertst ||| 8 }) ∧
    (k.lastReport = none ∨ k.stale = true → exec .coolantStale s = .next s) ∧
    (∀ d (v : BitVec 64) (watts : BitVec 16),
      let now := max s.timebase s.nextSense
      let temp (c : Nat) : Int := if c = d then (v.setWidth 16 : BitVec 16).toInt else (s.distReg c).temp.toInt
      let lim := k.limits
      let ago (cond : Bool) (since : Option Nat) (n : Nat) : Bool := cond && decide (since.getD now + n ≤ now)
      let moved (above below : Bool) (step : Nat) (hot cool : Option Nat) : Nat :=
        if step < 7 ∧ ago above hot 100000 = true then step + 1
        else if 0 < step ∧ ago below cool 1000000 = true then step - 1 else step
      runsTo s (.sensorRefresh [(d, v)] watts) fun t => sameBytes s t ∧ t.timebase = now ∧ t.nextSense = s.nextSense + 10000 ∧
        (∀ c, c < 640 → let g := s.distReg c
          (t.distReg c).temp.toInt = temp c ∧ (t.distReg c).crit = decide (lim.tcrit < temp c) ∧
          (t.distReg c).step = if lim.tcrit < temp c then 7
            else moved (decide (lim.tthrot < temp c)) (decide (temp c < lim.tthrot - 24)) g.step g.hotSince g.coolSince) ∧
        t.kiln.modpwr = watts ∧ t.kiln.modStep = moved (decide (lim.pceil < watts.toNat))
          (decide (100 * watts.toNat < 95 * lim.pceil)) k.modStep k.modHot k.modCool) ∧
    (∀ r w0 w1 w2 w3, s.regions = [r] → r.saved = false →
      let watts : Vector (BitVec 16) 4 := #v[w0, w1, w2, w3]
      let p := if r.firedNow = false then min (r.permits + 1) 64
        else if r.level = 3 then r.permits - 1 else if r.level = 4 then r.permits - 2 else r.permits
      let w := if 4 ≤ throt r ∧ 2 < r.want then 2 else r.want
      let target := min w (if 2 ≤ p then 4 else if p = 1 then 3 else 2)
      let lim := (if s.nextPower ≤ s.nextBoost then { k with limKey := row, limNow := tgetD row k.limtab } else k).limits
      let crit := ∃ d ∈ r.districts, lim.tcrit < (s.distReg d).temp.toInt
      let pceil := lim.pceil
      let head (g : Fin 4) : Nat := if pceil < 4 * watts[g].toNat then 0
        else if k.boostw = 0 then 0xFFFF else min 0xFFFF ((pceil - 4 * watts[g].toNat) / (4 * k.boostw.toNat))
      let share (g : Fin 4) : Nat := (r.districts.filter fun d => d / 160 = g.val).length
      let loses := ∃ g, 0 < share g ∧ head g < share g
      runsTo s (.boostBoundary w0 w1 w2 w3) fun t => fabricOnly s t ∧ t.timebase = max s.timebase s.nextBoost ∧
        t.nextBoost = s.nextBoost + 4000 ∧ (∀ g, t.kiln.head[g] = BitVec.ofNat 16 (head g) ∧ t.kiln.gwatts[g] = watts[g]) ∧
        ∃ n, t.regions = [{ r with permits := p, firedNow := false, level := n
                                   ramp := if n = r.level then r.ramp else some (min n r.level) }] ∧
          (crit → n = 1) ∧ (¬ crit → loses → 2 < target → n = 2) ∧
          (¬ crit → ¬ (loses ∧ 2 < target) → n = if r.level ≤ w ∧ target < r.level then r.level - 1 else target)) ∧
    (∀ load, exec (.supplyRampEnd load) s = .next { s with
      regions := s.regions.map fun r => if r.loadId = load then { r with ramp := none } else r }) ∧
    (runsTo s .wsRefreshPeriod fun t => fabricOnly s t ∧ t.timebase = max s.timebase s.nextHot ∧
      t.nextHot = s.nextHot + 64000 ∧ ∀ die : Fin 16,
        let temp (i : Nat) : Int := (s.distReg (40 * die.val + i)).temp.toInt
        ((∃ i, i < 40 ∧ 680 < temp i) → t.hot[die] = true) ∧ ((∀ i, i < 40 → temp i < 656) → t.hot[die] = false) ∧
        ((∀ i, i < 40 → temp i ≤ 680) → (∃ i, i < 40 ∧ 656 ≤ temp i) → t.hot[die] = s.hot[die]))

/-- 19 R352, R356, R357, R361 to R366; 21 R371; 22 R376 and R377. The model's own choices here: where the ROM keeps the image
(log 73), how the report of a request comes to be delivered (log 45), one interrupt for an ALERTEN write that sets several
such bits (log 37), PC that takes bits [17:2] of an image's ENTRY (log 156), and HBM that reads 0 after a cold reset (log 5);
signatures are opaque (log 23). -/
def Obligations.ManagementRegistersAndBoot : Prop :=
  ∀ (s : State),
    let k := s.kiln
    let up := s.boot.state ≠ 1
    (∀ v, exec (.alertstWrite v) s = .next { s with kiln := { k with alertst := k.alertst &&& ~~~(v.setWidth 5) } }) ∧
    (∀ v : Word, let en : BitVec 5 := v.setWidth 5
      runsTo s (.alertenWrite v) fun t => sameBytes s t ∧ t.kiln = { k with alerten := en } ∧
        (t.coreOf 1023).pending = (s.coreOf 1023).pending ++
          if en &&& ~~~k.alerten &&& k.alertst = 0 then [] else [{ cause := 0x15, sub := 3 }]) ∧
    (∀ v : Word, (v.getLsbD 63 = false ∨ s.boot.goready = true → exec (.goready v) s = .next s) ∧
      (v.getLsbD 63 = true → s.boot.goready = false → exec (.goready v) s = .next { s with boot := { s.boot with
        goready := true, state := if s.boot.state = 2 then 3 else s.boot.state } })) ∧
    (∀ n v, (24 ≤ n → exec (.limtabWrite n v) s = .next s) ∧
      (n < 24 → runsTo s (.limtabWrite n v) fun t => { t with kiln := k } = s ∧
        { t.kiln with limtab := k.limtab } = k ∧
        ∀ m, tgetD m t.kiln.limtab = if m = n then v &&& 0x80FFFFFFFFFFF0FF else tgetD m k.limtab)) ∧
    (∀ v : Word, let d := v.toNat % 1024
      (d = 0 ∨ 640 ≤ d → exec (.retire v) s = .next s) ∧
      (0 < d → d < 640 → (s.distReg d).retired = false → runsTo s (.retire v) fun t => { t with regs := s.regs } = s ∧
        t.distReg d = { s.distReg d with retiring := true } ∧ ∀ c, c ≠ d → t.distReg c = s.distReg c)) ∧
    (∀ d, (s.distReg d).retiring = false ∨ (∃ r ∈ s.regions, d ∈ r.districts) → exec (.districtRetired d) s = .next s) ∧
    (∀ d, (s.distReg d).retiring = true → (s.distReg d).retired = false → (∀ r ∈ s.regions, d ∉ r.districts) →
      runsTo s (.districtRetired d) fun t => (∀ c, t.coreOf c = s.coreOf c) ∧
        t.distReg d = { s.distReg d with retired := true } ∧ (∀ c, c ≠ d → t.distReg c = s.distReg c) ∧
        t.fleet.replace = (s.fleet.replace || decide (639 - (t.regs.filter fun g => g.2.retired).length < s.fleet.replth.toNat))) ∧
    (exec .sysfault s = .next { s with fleet := { s.fleet with sysfault := true, replace := true } }) ∧
    (let rd (n o l : Nat) : List Byte := mgets (n * 2 ^ 32 + o) l s.flash
     let num (n o l : Nat) : Nat := mgetN (n * 2 ^ 32 + o) l s.flash
     let ok (n : Nat) : Prop := num n 0 4 = 0x45574B47 ∧ num n 4 4 = 1 ∧ num n 12 4 % 4 = 0 ∧ num n 12 4 ≤ 262144 ∧
       shakeWord (rd n 32 64) = Config.keyHash ∧ Config.svnMin.toNat ≤ num n 8 4 ∧
       Config.slhVerify (rd n 32 64) (rd n 0 96 ++ rd n (96 + 29792) (num n 12 4)) (rd n 96 29792) = true
     let cleared (t : State) : Prop := t.flash = s.flash ∧ t.host = s.host ∧ t.hbm = [] ∧ t.regions = [] ∧ t.regs = []
     let starts (n : Nat) (t : State) : Prop := cleared t ∧ t.boot.state = 2 ∧ t.boot.slot = (n == 1) ∧
       t.boot.svn.toNat = num n 8 4 ∧ (t.coreOf 1023).pc.toNat = num n 16 4 &&& 0x3FFFC ∧ (t.coreOf 1023).running = true ∧
       (t.coreOf 1023).k[0] = 0#16 ++ 0x200000#40 ++ 0#40 ++ 0x3F#8 ++ 0xFFFFFF#24 ∧
       (∀ a, a < num n 12 4 → mget a (t.dist 1023).istore = mget (n * 2 ^ 32 + 96 + 29792 + a) s.flash) ∧
       t.boot.meas[0] = shakeWord (List.replicate 32 0 ++ shake256 (rd n 0 96 ++ rd n (96 + 29792) (num n 12 4)))
     (ok 0 → runsTo s .coldReset (starts 0)) ∧
     (¬ ok 0 → ok 1 → runsTo s .coldReset fun t => starts 1 t ∧ t.boot.errA ≠ 0 ∧ t.boot.errB = 0) ∧
     (¬ ok 0 → ¬ ok 1 → runsTo s .coldReset fun t => cleared t ∧ t.boot.state = 4 ∧ t.boot.errA ≠ 0 ∧ t.boot.errB ≠ 0 ∧
       (t.coreOf 1023).halted = true ∧ (t.coreOf 1023).running = false)) ∧
    (∀ b, s.boot.cbusy = some b →
      let f (o n : Nat) : Nat := leNat ((b.drop o).take n)
      let store (a : Nat) : Nat := a / 2 ^ 19 * 2 ^ 19 + a % 2 ^ 19
      let rd (a n : Nat) : List Byte := mgets (store a) n (s.dist 1023).tileMem
      let src := rd (f 8 8) (f 4 4)
      let fine (x : Boot) : Boot := { x with cbusy := none, cerr := 0 }
      let writes (t : State) (bs : List Byte) : Prop := t.boot = fine s.boot ∧
        sameBytesBut s t 1023 (store (f 16 8)) bs.length ∧ mgets (store (f 16 8)) bs.length (t.dist 1023).tileMem = bs
      (f 0 1 = 1 → runsTo s .cryptoHash fun t => writes t (shake256 src)) ∧
      (f 0 1 = 2 → exec .cryptoVerify s = .next { s with boot := fine { s.boot with
        cresult := Config.slhVerify (rd (f 24 8) 64) src (rd (f 32 8) 29792) } }) ∧
      (f 0 1 = 3 → s.boot.attSt ≠ 1 ∨ f 4 4 ≠ 384 → runsTo s .cryptoSign fun t => ∃ sig, writes t sig ∧ sig.length = 29792 ∧
        ((Config.slhSign s.tick src).length = 29792 → sig = Config.slhSign s.tick src)) ∧
      (f 0 1 = 3 → s.boot.attSt = 1 → f 4 4 = 384 → runsTo s .cryptoSign fun t =>
        let a := s.boot.attReq.toNat + 64
        let at_ (o n : Nat) := mgetN (a + o) n t.host
        t.boot = fine { s.boot with attSt := 2 } ∧ at_ 0 4 = 0x53524B41 ∧ at_ 4 4 = 1 ∧ at_ 8 8 = Config.serial.toNat ∧
        at_ 16 4 = s.boot.svn.toNat ∧ at_ 20 1 = (if s.boot.slot then 1 else 0) ∧ at_ 21 11 = 0 ∧
        at_ 32 32 = mgetN s.boot.attReq.toNat 32 s.host ∧ (∀ i : Fin 8, at_ (64 + 32 * i.val) 32 = s.boot.signMeas[i].toNat) ∧
        (Config.identityKey.length = 64 → mgets (a + 320) 64 t.host = Config.identityKey) ∧
        (let sig := Config.slhSign s.tick (mgets a 384 t.host)
         sig.length = 29792 → mgets (a + 384) 29792 t.host = sig) ∧
        ∀ b, (b < a ∨ a + 30176 ≤ b) → mget b t.host = mget b s.host) ∧
      (let m := shakeWord (leBytes 32 (vget s.boot.meas (f 40 1)).toNat ++ rd (f 8 8) 32)
       f 0 1 = 4 → exec .cryptoExtend s = .next { s with boot := fine { s.boot with meas := vset s.boot.meas (f 40 1) m } }) ∧
      (let key := BitVec.ofNat 256 (leNat (rd (f 24 8) 32))
       f 0 1 = 5 → exec .cryptoIdekey s = .next { s with boot := fine { s.boot with
         ideKeys := vset s.boot.ideKeys (f 40 1) key } }) ∧
      (f 0 1 ≠ 1 → exec .cryptoHash s = .next s)) ∧
    (s.boot.cbusy = none → exec .cryptoHash s = .next s ∧ exec .cryptoVerify s = .next s ∧ exec .cryptoSign s = .next s ∧
      exec .cryptoExtend s = .next s ∧ exec .cryptoIdekey s = .next s) ∧
    (∀ v, (s.boot.state = 1 → exec (.attestreq v) s = .next s) ∧
      (s.boot.state = 4 → exec (.attestreq v) s = .next { s with boot := { s.boot with attSt := 3 } }) ∧
      (up → s.boot.state ≠ 4 → s.boot.attSt = 1 → exec (.attestreq v) s = .next s) ∧
      (up → s.boot.state ≠ 4 → s.boot.attSt ≠ 1 → runsTo s (.attestreq v) fun t => sameBytes s t ∧
        t.boot = { s.boot with attReq := v &&& ~~~0x3F, attSt := 1 } ∧
        (t.coreOf 1023).pending = (s.coreOf 1023).pending ++ [{ cause := 0x15, sub := 4 }]))

/-- 16 R305, R308, R311, R315, R317, R322, R324 and R325; 22 R377; 05 R119; 19 R362. The model's own choices here: a one in a
reserved bit stores nothing (log 92); a host read of a register other than BOOTST while the ROM runs, or of an unassigned
offset, returns 0 (log 85); a BINDCMD step that finds none pending is the write's arrival and its execution in one (log 120);
and the triggers pending at an entry that becomes VALID complete as failed (log 128). -/
def Obligations.HostWritesTakeEffect : Prop :=
  ∀ (s : State),
    let h := s.hostif
    let bank (t : State) (b : Nat) := tgetD b t.banks
    let part (t : State) (p : Nat) := tgetD p t.parts
    (s.boot.state = 1 → ∀ i b v w o (x : List Byte), i ∈ ([.bankcfgWrite b v, .partwsWrite b v, .gangstatWrite v, .doorbell v, .dbstWrite v,
      .replthWrite v, .batchCommit b v, .dependenceValidSet b v, .dependenceValidClear b v,
      .registerWrite b o x, .trigger b true w, .perfsel v, .ctrq v, .cpcap v, .tlbinv v, .pgresolve v, .fppush v,
      .migrationStart v, .attestreq v] : List Instr) → exec i s = .next s) ∧
    (s.boot.state = 1 → (∀ v, h.bind = none → exec (.bindcmd v) s = .next s) ∧
      (∀ v, h.unload = none → exec (.unload v) s = .next s) ∧
      ∀ bar off n, (bar, off) ≠ (0, 0x6000) → s.barRead bar off n = 0) ∧
    (∀ bar off n, n ≠ 8 ∨ off % 8 ≠ 0 → s.barRead bar off n = 0) ∧
    (s.boot.state ≠ 1 →
      (∀ b v, runsTo s (.bankcfgWrite b v) fun t => { t with banks := s.banks } = s ∧ (∀ c, c ≠ b → bank t c = bank s c) ∧
        bank t b = { bank s b with cfg := (bank t b).cfg, suspended := (bank t b).suspended, frozen :=
          if (bank t b).suspended = true ∧ (bank s b).suspended = false then (bank s b).progress else (bank s b).frozen } ∧
        (bank t b).cfg &&& 0xC07F = v &&& 0xC07F ∧ (bank t b).cfg &&& ~~~0xFF7F = 0 ∧
        ((bank t b).cfg.extractLsb' 8 6 =
          if (bank s b).cfg.getLsbD 15 = true then (bank s b).cfg.extractLsb' 8 6 else v.extractLsb' 8 6)) ∧
      (∀ p v, ((∃ r ∈ s.regions, r.part.toNat = p) → exec (.partwsWrite p v) s = .next s) ∧
        ((∀ r ∈ s.regions, r.part.toNat ≠ p) → runsTo s (.partwsWrite p v) fun t => { t with parts := s.parts } = s ∧
          part t p = { part s p with ws := v &&& 0x8003FFFF0003FFFF } ∧ ∀ q, q ≠ p → part t q = part s q)) ∧
      (∀ v : BitVec 64, exec (.gangstatWrite v) s = .next { s with gang := { s.gang with
        skipped := s.gang.skipped && !v.getLsbD 2, raised := s.gang.raised && !v.getLsbD 1 } }) ∧
      (∀ v : BitVec 64, exec (.dbstWrite v) s = .next (if v.getLsbD 0 then { s with hostif := { h with dbErr := false } } else s)) ∧
      (∀ v : BitVec 64, let least : BitVec 10 := v.extractLsb' 32 10
        let short : Bool := decide (639 - (s.regs.filter fun g => g.2.retired).length < least.toNat)
        exec (.replthWrite v) s = .next { s with fleet := { s.fleet with
          replth := least, replace := s.fleet.replace || short } }) ∧
      (∀ v u, h.bind = some u → u ≠ v → exec (.bindcmd v) s = .next { s with hostif := { h with bindst := 3 } }) ∧
      (∀ v, h.bind = none →
        exec (.registerWrite 0 0x4090 (leBytes 8 v.toNat)) s = .next { s with hostif := { h with bind := some v, bindst := 0 } }) ∧
      (∀ v, h.unload = none →
        exec (.registerWrite 0 0x40B0 (leBytes 8 v.toNat)) s = .next { s with hostif := { h with unload := some v, unloadSt := 0 } }) ∧
      (∀ v, h.bind = none ∨ h.bind = some v →
        (s.bindTarget v = none → exec (.bindcmd v) s = .next { s with hostif := { h with bind := none, bindst := 2 } }) ∧
        (∀ e, s.bindTarget v = some e → runsTo s (.bindcmd v) fun t => fabricOnly s t ∧ t.hostif = { h with bind := none, bindst := 1 } ∧
          idxKind (e % 520) = .pe ∧ let c := (v.extractLsb' 32 5).toNat
            t.chanField e c 1 c 0 = (v.extractLsb' 0 16).toNat ∧
            ∀ c', c' < 32 → c' ≠ c → t.chanField e c 1 c' 0 = s.chanField e c 1 c' 0)) ∧
      (∀ v : BitVec 64, let d := (v.extractLsb' 0 10).toNat
        let p : BitVec 6 := v.extractLsb' 58 6
        let err := exec (.doorbell v) s = .next { s with hostif := { h with dbErr := true } }
        ((v.extractLsb' 10 48 ≠ 0 ∨ d = 0 ∨ 640 ≤ d) → err) ∧
        (v.extractLsb' 10 48 = 0 → 0 < d → d < 640 →
          (∀ r, s.regionAt d = some r → r.part = p → (∀ k ∈ (s.coreOf d).pending, k.cause ≠ 0x15 ∨ k.sub ≠ 2) →
            runsTo s (.doorbell v) fun t => onlyCore d s t ∧ t.coreOf d =
              { s.coreOf d with pending := (s.coreOf d).pending ++ [{ cause := 0x15, sub := 2 }] }) ∧
          ((∀ r ∈ s.regions, d ∈ r.districts → r.part ≠ p) → err) ∧
          (∀ r ∈ s.regions, s.regionAt d = none → r.saved = true → r.part = p → d ∈ r.districts → (d, p) ∉ h.bellHeld →
            exec (.doorbell v) s = .next { s with hostif := { h with bellHeld := h.bellHeld ++ [(d, p)] } }))) ∧
      (∀ n v, let a := 0x80000 + 256 * n
        (v ≠ BitVec.ofNat 64 (mgetN a 8 s.sched) + 1 → exec (.batchCommit n v) s = .next s) ∧
        (v = BitVec.ofNat 64 (mgetN a 8 s.sched) + 1 → runsTo s (.batchCommit n v) fun t => { t with sched := s.sched } = s ∧
          ∀ o, mget o t.sched = if a ≤ o ∧ o < a + 8 then v.extractLsb' (8 * (o - a)) 8
            else if a + 136 ≤ o ∧ o < a + 256 then mget (o - 120) s.sched else mget o s.sched)) ∧
      (∀ e v, let ctrl := mgetN (128 * e) 4 s.sched
        let low : Nat := v.toNat % 2 ^ 31
        let pred : Nat := v.toNat / 2 ^ 32 % 2 ^ 16
        (ctrl.testBit 31 = true → v.getLsbD 31 = true → exec (.dependenceValidSet e v) s = .next s) ∧
        (ctrl.testBit 31 = true → v.getLsbD 31 = false → runsTo s (.dependenceValidClear e v) fun t =>
          { t with sched := s.sched } = s ∧ mgetN (128 * e) 4 t.sched = ctrl - 2 ^ 31 ∧
            ∀ o, o < 128 * e ∨ 128 * e + 4 ≤ o → mget o t.sched = mget o s.sched) ∧
        (ctrl.testBit 31 = false → v.getLsbD 31 = true →
          let s1 := { s with sched := mputN (128 * e) 6 (v &&& ~~~0x80000000).toNat s.sched }
          (s1.depCheck e = none → runsTo s (.dependenceValidSet e v) fun t => t.hostif = { h with deperr := BitVec.ofNat 12 e } ∧
            t.depValid e = false ∧ fabricOnly { s with sched := [] } { t with sched := [] }) ∧
          (∀ r, s1.depCheck e = some r → v.getLsbD 26 = false → runsTo s (.dependenceValidSet e v) fun t =>
            t.hostif.waiting = h.waiting.filter (fun a => !(a.entry == e && a.pending)) ∧
              ((∀ a ∈ h.waiting, ¬ (a.entry = e ∧ a.pending = true)) → t.hostif = h) ∧ t.depValid e = true ∧
              mgetN (128 * e) 4 t.sched = low + 2 ^ 31 ∧
              mgetN (128 * e + 4) 2 t.sched = pred ∧ mgetN (128 * e + 6) 2 t.sched = pred ∧
              mgetN (128 * e + 19) 1 t.sched = 0))) ∧
      (∀ v : BitVec 64, let write (bar off : Nat) := exec (.registerWrite bar off (leBytes 8 v.toNat)) s
        write 0 0x40A0 = exec (.doorbell v) s ∧ write 0 0x40A8 = exec (.dbstWrite v) s ∧
        write 0 0x6008 = exec (.attestreq v) s ∧ write 0 0x8400 = exec (.replthWrite v) s ∧
        write 0 0x8480 = exec (.perfsel v) s ∧ write 0 0x8488 = exec (.ctrq v) s ∧
        write 0 0x84A0 = exec (.cpcap v) s ∧ write 0 0x5218 = exec (.fppush v) s ∧
        write 0 0x5260 = exec (.tlbinv v) s ∧ write 0 0x5278 = exec (.migrationStart v) s ∧
        write 0 0x5288 = exec (.pgresolve v) s ∧ write 0 0x3010 = exec (.gangstatWrite v) s ∧
        write 0 0x4000 = .next { s with hostif := { h with drainth := v.setWidth 32 } } ∧
        (∀ b, b < 64 → write 0 (0x1000 + 8 * b) = exec (.bankcfgWrite b v) s) ∧
        (∀ p, p < 64 → write 0 (0x2000 + 16 * p) = exec (.partwsWrite p v) s) ∧
        (∀ e, e < 4096 → v.getLsbD 31 = true → write 4 (128 * e) = exec (.dependenceValidSet e v) s) ∧
        (∀ n, n < 1024 → write 4 (0x80000 + 256 * n) = exec (.batchCommit n v) s) ∧
        (∀ off, 0x9000 ≤ off → write 0 off = .next s)) ∧
      (∀ off w, off < 0x40000 → off % 4096 = 0 →
        exec (.registerWrite 2 off w) s = exec (.trigger (off / 4096) (w.length == 64) (BitVec.ofNat 512 (leNat w))) s) ∧
      (∀ bar off w, bar ≠ 2 → (bar, off) ≠ (0, 0x4040) → w.length ≠ 8 ∨ off % 8 ≠ 0 →
        exec (.registerWrite bar off w) s = .next s) ∧
      (∀ w, w.length ≠ 64 → exec (.registerWrite 0 0x4040 w) s = .next s) ∧
      (let num (bar off : Nat) := (s.barRead bar off 8).toNat
       let one (b : Bool) : Nat := if b then 1 else 0
       num 0 0x4098 = h.bindst.toNat ∧ num 0 0x40B8 = h.unloadSt.toNat ∧ num 0 0x4088 = h.deperr.toNat ∧
        num 0 0x40A8 = one h.dbErr ∧ num 0 0x4080 = one h.loadBusy + 2 * one h.cmdIgn ∧ num 0 0x6010 = s.boot.attSt.toNat ∧
        num 0 0x8490 = s.fleet.ctrres.toNat ∧ num 0 0x84B8 = s.fleet.trchead.toNat ∧ num 0 0x84C8 = s.fleet.trclost.toNat ∧
        (∀ b, b < 64 → s.barRead 0 (0x1000 + 8 * b) 8 = (bank s b).cfg ∧ num 2 (4096 * b + 0x48) = 2 ^ 32 * one (bank s b).suspended +
          if (bank s b).suspended then (bank s b).frozen.toNat else (bank s b).progress.toNat) ∧
        (∀ p, p < 64 → s.barRead 0 (0x2000 + 16 * p) 8 = (part s p).ws) ∧
        (∀ d, d < 640 → s.barRead 0 (0x7000 + 8 * d) 8 = (s.distReg d).mirror) ∧
        (∀ i j, i < 10 → j < 64 → (s.barRead 0 (0x8410 + 8 * i) 8).getLsbD j = (s.distReg (64 * i + j)).retired) ∧
        (∀ a, a < 0x18000 → num 4 (8 * a) = mgetN (8 * a) 8 s.sched) ∧
        ∀ off, 0x9000 ≤ off → s.barRead 0 off 8 = 0)) ∧
    (∀ addr n v, addr % 64 + n ≤ 64 → addr + n ≤ 2 ^ 40 → runsTo s (.hostAccess addr n (some v)) fun t =>
      { t with hbm := s.hbm } = s ∧ ∀ a, mget a t.hbm =
        if addr ≤ a ∧ a < addr + n then v.extractLsb' (8 * (a - addr)) 8 else mget a s.hbm) ∧
    (∀ addr n, exec (.hostAccess addr n none) s = .next s) ∧
    (runsTo s .priorityTokenRefill fun t => fabricOnly s t ∧ t.timebase = max s.timebase s.nextTok ∧
      t.nextTok = s.nextTok + 1000000 ∧ ∀ p, p < 64 → let k := part s p
        let n := if k.tokMax.toNat ≤ k.tokens.toNat then k.tokens.toNat else min k.tokMax.toNat (k.tokens.toNat + k.tokRate.toNat)
        part t p = { k with tokens := BitVec.ofNat 8 n })

/-- 22 R378 to R382. The model's own choices here: the ring of a LOG2N below 4 has 16 records (log 85), nothing is written
while EN is 0 (log 34), and a one written to CPCAP[5:0] is dropped (log 92). -/
def Obligations.CountersCaptureAndTracesObserve : Prop :=
  ∀ (s : State),
    let f := s.fleet
    let boundary : Nat := (s.timebase / 1000 + 1) * 1000
    let covers (v : BitVec 64) (d : Nat) : Bool := decide (d < 640 ∧ (v.extractLsb' 32 10).toNat ≤ d ∧
      d ≤ (v.extractLsb' 16 10).toNat) && !(s.distReg d).retired
    let ctr (v : BitVec 64) : Nat := (v.extractLsb' 8 2).toNat
    (s.boot.state ≠ 1 → ∀ v : BitVec 64,
      exec (.perfsel v) s = .next { s with fleet := { f with perfsel := f.perfsel ++ [(boundary, v)] } } ∧
      (f.ctrq ≠ none → exec (.ctrq v) s = .next { s with fleet := { f with ctrerr := 2 } }) ∧
      (v.getLsbD 63 = false → f.ctrq = none → exec (.ctrq v) s = .next s) ∧
      (v.getLsbD 63 = true → f.ctrq = none → v.extractLsb' 0 2 = 3#2 →
        exec (.ctrq v) s = .next { s with fleet := { f with ctrerr := 1 } }) ∧
      (v.getLsbD 63 = true → f.ctrq = none → v.extractLsb' 0 2 ≠ 3#2 →
        exec (.ctrq v) s = .next { s with fleet := { f with ctrq := some (boundary, v), ctrerr := 0 } }) ∧
      (let a := v.toNat / 64 * 64
       let w := mgetN a 4 s.host
       let ord := mgetN (a + 8) 4 s.host
       let kept := v &&& ~~~0x3F
       let place := elemOf (w / 2 ^ 24 % 16) (w / 2 ^ 16 % 128) (w % 256)
       let plainForm := mgetN (a + 4) 4 s.host = 0 ∧ mgetN (a + 12) 4 s.host = 0 ∧ ord ≠ 0 ∧ w / 2 ^ 8 % 256 = 0 ∧
         w / 2 ^ 23 % 2 = 0 ∧ w / 2 ^ 28 = 0
       let sink (e : Nat) := place = some e ∧ (idxKind (e % 520) = .pe ∨ idxKind (e % 520) = .mn) ∧
         s.regionAt (e / 520) ≠ none
       (¬ plainForm ∨ (∀ e, ¬ sink e) →
         exec (.cpcap v) s = .next { s with fleet := { f with cpcap := kept, cpn := 0, cpst := 3 } }) ∧
       (∀ e, plainForm → sink e → runsTo s (.cpcap v) fun t => fabricOnly s t ∧ { t with districts := s.districts, fleet := f } = s ∧
         t.fleet = { f with cpcap := kept, cpn := 0, cpst := 1, cpSink := e, cpOrd := ord } ∧
         ∀ d, (t.dist d).lastArr = [] ∧ (t.dist d).fired = []))) ∧
    (f.perfsel = [] → exec .perfselApply s = .next s) ∧
    (∀ at_ v, f.perfsel = [(at_, v)] → runsTo s .perfselApply fun t => fabricOnly s t ∧ t.timebase = max s.timebase at_ ∧
      t.fleet = { f with perfsel := [] } ∧
      ∀ d, (covers v d = true → vget (t.dist d).perf (ctr v) = 0 ∧
          vget (t.dist d).perfSel (ctr v) = (v.extractLsb' 0 8).setWidth 16 ∧
          ∀ j, j < 4 → j ≠ ctr v → vget (t.dist d).perfSel j = vget (s.dist d).perfSel j) ∧
        (covers v d = false → t.dist d = s.dist d)) ∧
    (f.ctrq = none → exec .ctrqLatch s = .next s) ∧
    (∀ at_ v, f.ctrq = some (at_, v) → f.perfsel = [] → runsTo s .ctrqLatch fun t => fabricOnly s t ∧
      t.timebase = max s.timebase at_ ∧ t.fleet.ctrq = none ∧
      let counts : List Nat := ((List.range 640).filter (covers v)).map fun d => (vget (t.dist d).perf (ctr v)).toNat
      let op : Nat := v.toNat % 4
      t.fleet.ctrn.toNat = counts.length ∧
      (op = 0 → t.fleet.ctrres.toNat = counts.foldl (· + ·) 0) ∧
      (op = 1 → counts ≠ [] → t.fleet.ctrres.toNat ∈ counts ∧ ∀ n ∈ counts, t.fleet.ctrres.toNat ≤ n) ∧
      (op = 2 → counts ≠ [] → t.fleet.ctrres.toNat ∈ counts ∧ ∀ n ∈ counts, n ≤ t.fleet.ctrres.toNat) ∧
      (counts = [] → t.fleet.ctrres = 0)) ∧
    (f.trcsamp = 0 → exec .tracePcSample s = .next s) ∧
    (f.trcsamp ≠ 0 → runsTo s .tracePcSample fun t => { t with timebase := s.timebase, nextTrace := s.nextTrace
                                                               host := s.host, fleet := f } = s ∧
      t.timebase = max s.timebase s.nextTrace ∧ t.nextTrace = s.nextTrace + 1000 * f.trcsamp.toNat ∧
      let run := s.districts.filter fun q => q.2.core.running
      let n := 2 ^ max 4 (f.trcctl.toNat / 4 % 16)
      (f.trcctl.getLsbD 0 = false → t.host = s.host ∧ t.fleet = f) ∧
      (f.trcctl.getLsbD 0 = true → (f.trchead - f.trctail).toNat + run.length ≤ n →
        t.fleet = { f with trchead := f.trchead + BitVec.ofNat 32 run.length } ∧
        ∀ i q, run[i]? = some q → let a := f.trcctl.toNat / 64 * 64 + 32 * ((f.trchead.toNat + i) % n)
          mgetN a 1 t.host = 4 ∧ mgetN (a + 4) 2 t.host = q.1 % 2 ^ 16 ∧
          mgetN (a + 8) 4 t.host = q.2.core.pc.toNat % 2 ^ 32 ∧ mgetN (a + 12) 4 t.host = q.2.core.ecsn.toNat ∧
          mgetN (a + 16) 8 t.host = t.timebase % 2 ^ 64))

/-- 17 R341 and R342. That SEQs join no husk, and that a DONE of step 5 waits beside a full queue, are the model's readings
(log 82). -/
def Obligations.HusksSealWhatTheyReach : Prop :=
  (∀ (r : Region) (plane : BitVec 2) (e : Nat), e ∈ r.component plane e ∧
    ∀ g ∈ r.edges, g.plane = plane → idxKind (g.src % 520) ≠ .seq → idxKind (g.dst % 520) ≠ .seq →
      (g.src ∈ r.component plane e ↔ g.dst ∈ r.component plane e)) ∧
  ∀ (s : State), (s.husks = [] → exec (.huskSeal none) s = .next s) ∧
    ∀ (soft : Option Nat) (h : Husk) (rest : List Husk) (r : Region),
      (soft = none ∧ s.husks = h :: rest ∨ ∃ e, soft = some e ∧ rest = s.husks ∧
        h = { code := 0x0A, region := idxKind (e % 520) == .seq, elem := e, plane := s.planeAt (e / 520) }) →
      s.regionAt (h.elem / 520) = some r → s.regionOf r.loadId = some r → (r.status = .running ∨ r.status = .draining) →
      let husk := r.component h.plane h.elem
      let none' := { s with husks := rest }
      (h.region = false → idxKind (h.elem % 520) ≠ .seq → s.isSealed h.elem = true →
        exec (.huskSeal soft) s = .next none') ∧
      (h.region = false → idxKind (h.elem % 520) ≠ .seq → s.isSealed h.elem = false → runsTo s (.huskSeal soft) fun t =>
        sameBytesButHost s t ∧ notified s t 5 r.part.toNat h.code.toNat ∧
        (∀ e ∈ husk, t.isSealed e = true ∧ (idxKind (e % 520) = .pe → (peAt t e).head.queue = [] ∧ (peAt t e).unanswered = 0)) ∧
        (∀ e, s.isSealed e = true → t.isSealed e = true) ∧ (∀ e, t.isSealed e = true → s.isSealed e = true ∨ e ∈ husk) ∧
        (∀ d ∈ r.districts, ∀ a ∈ (t.dist d).port.accessQ ++ (t.dist d).port.sideLog.map (·.acc), ∀ e ∈ husk, a.issuer ≠ .pe e) ∧
        (∀ e ∈ husk, (∀ g ∈ s.edgesFrom r husk, g.src ≠ e) → t.outOf e = (s.outOf e).filter fun q =>
          idxKind (e % 520) == .port && (s.chanField e q.2.channel.toNat 2 q.2.channel.toNat 0).testBit 15) ∧
        (∀ g l, s.edgesFrom r husk = [g] → g.lvc = none → s.edgeLegs g = [(l, g.ch.toNat)] → s.carriedOut g.src = [] →
          emits { s with districts := s.districts.map fun q => (q.1, { q.2 with outq := [] }) } t g.src l
            { kind := 0, marker := 3, channel := g.ch, data := h.code.setWidth 32 }) ∧
        (∀ c, (t.coreOf c).pending = (s.coreOf c).pending ++ if c = r.root then [{
            cause := 0x12, sub := 0x80 + h.code, unit := 0xFF
            epc := (h.name.getD (r.eventName h.plane)).2.1, eecsn := (h.name.getD (r.eventName h.plane)).2.2 }] else []) ∧
        (∀ c, let x := s.coreOf c
          (x.doneQ.length ≤ 16 → (t.coreOf c).doneQ.length ≤ 16) ∧
          (t.coreOf c).doneQ ++ (t.coreOf c).doneWait.map (·.2) = x.doneQ ++ x.doneWait.map (·.2) ++ (r.leaves.filter fun l => !l.elems.isEmpty &&
            l.elems.all husk.contains && (nth l.node r.nodes).dist == c).map fun l => BitVec.ofNat 24 l.id) ∧
        t.regionOf r.loadId = some { r with failed := true }) ∧
      (h.region = false → idxKind (h.elem % 520) = .seq → (s.dist (h.elem / 520)).sealed.contains 520 = false →
        runsTo s (.huskSeal soft) fun t => (t.dist (h.elem / 520)).copier.queue = [] ∧ notified s t 5 r.part.toNat h.code.toNat ∧
          (∀ e, t.isSealed e = s.isSealed e) ∧ t.regionOf r.loadId = some { r with failed := true }) ∧
      (h.region = true → runsTo s (.huskSeal soft) fun t => notified s t 5 r.part.toNat h.code.toNat ∧
        (∀ d ∈ r.districts, (t.coreOf d).halted = true ∧ (t.coreOf d).running = false ∧
          ∀ i, i < 520 → t.isSealed (520 * d + i) = true) ∧
        (∃ q, t.regionOf r.loadId = some q ∧ q.status = .idle ∧ q.entry = none ∧ q.started = false) ∧
        ∀ b n, r.entry.isSome = true → r.trigger = some (b, n) →
          (tgetD b t.banks).failed.toNat = min 0xFFFF ((tgetD b s.banks).failed.toNat + 1))

/-- 16 R306 to R309, R312 and 15 R297, R298. What a mash places is Birgil's (log 80), and the districts granted are the
scheduler's choice (log 81). The model's choices: a load with WEIGHTS waits while a kernel of its partition runs on a die of
the region (log 143), `Config.linkFails` says which reads of the file fail on the link (log 118), and a second UNLOAD is
ignored only while another value is pending (log 120). -/
def Obligations.LoadsUnloadsAndTriggers : Prop :=
  ∀ (s : State),
    let h := s.hostif
    let bank (t : State) (b : Nat) := tgetD b t.banks
    let up := s.boot.state ≠ 1
    (∀ w : BitVec 512, let stat : Nat := (w.extractLsb' 128 64).toNat
      (s.boot.state ≠ 3 → exec (.loadcmd w) s = .next s) ∧
      (s.boot.state = 3 → h.loadBusy = true ∨ stat % 64 ≠ 0 →
        exec (.loadcmd w) s = .next { s with hostif := { h with cmdIgn := true } }) ∧
      (s.boot.state = 3 → h.loadBusy = false → stat % 64 = 0 → exec (.loadcmd w) s = .next { s with hostif := { h with
        loadBusy := true, cmdIgn := false, loadcmd := some (leBytes 64 w.toNat) } })) ∧
    (h.loadcmd = none → exec .loadComplete s = .next s) ∧
    (∀ b, h.loadcmd = some b →
      let f (o n : Nat) : Nat := leNat ((b.drop o).take n)
      let stat := f 16 8
      let out (t : State) (o n : Nat) : Nat := mgetN (stat + o) n t.host
      let refused (t : State) (code : Nat) : Prop :=
        { t with host := s.host } = { s with hostif := { h with loadBusy := false, loadcmd := none } } ∧
          out t 0 2 = code % 2 ^ 16 ∧ out t 32 4 = 0 ∧ ∀ a, a < stat ∨ stat + 64 ≤ a → mget a t.host = mget a s.host
      let known (c : CachedMash) := (c :: h.mashes.filter fun x => x != c).take Config.cacheSize
      let badCmd := f 25 1 ≠ 0 ∨ f 30 34 ≠ 0 ∨ 63 < f 24 1 ∨ f 26 2 < 1 ∨ 639 < f 26 2
      (badCmd → runsTo s .loadComplete fun t => refused t 0x0A) ∧
      (¬ badCmd → f 8 8 < 64 ∨ 2 ^ 64 < f 0 8 + f 8 8 ∨ Config.linkFails s.tick = true → runsTo s .loadComplete fun t => refused t 0x09) ∧
      (∀ e, s.plan (parseLoadCmd b) = .error e → runsTo s .loadComplete fun t => refused t e.code ∧
        out t 2 2 = e.sub % 2 ^ 16 ∧ out t 4 2 = e.id1 % 2 ^ 16 ∧ out t 6 2 = e.id2 % 2 ^ 16 ∧
        (∀ e', s.placement (parseLoadCmd b) = .error e' → out t 11 1 = 0 ∧ out t 16 4 = 0 ∧ out t 20 4 = 0) ∧
        ∀ l, s.placement (parseLoadCmd b) = .ok l → out t 11 1 = (if l.cached then 1 else 0) ∧
          out t 20 4 = l.mash.pads.length % 2 ^ 32 ∧ (∀ q, l.relocate = .ok q → out t 16 4 = q.propNs % 2 ^ 32) ∧
          ∀ e', l.relocate = .error e' → out t 16 4 = l.propNs % 2 ^ 32) ∧
      (∀ l, s.plan (parseLoadCmd b) = .ok l → l.waits s = true → exec .loadComplete s = .next s) ∧
      (∀ l e, s.plan (parseLoadCmd b) = .ok l → l.waits s = false → l.commit (s.remember l.entry) = .error e →
        runsTo s .loadComplete fun t => { t with host := s.host } = { s with hostif := { h with
            loadBusy := false, loadcmd := none, mashes := known l.entry } } ∧ out t 0 2 = e.code % 2 ^ 16 ∧ out t 32 4 = 0 ∧
          out t 11 1 = (if l.cached then 1 else 0) ∧ out t 16 4 = l.propNs % 2 ^ 32 ∧ out t 20 4 = l.mash.pads.length % 2 ^ 32) ∧
      (∀ l u, s.plan (parseLoadCmd b) = .ok l → l.waits s = false → l.commit (s.remember l.entry) = .ok u →
        runsTo s .loadComplete fun t =>
        t.hostif.loadBusy = false ∧ t.hostif.loadcmd = none ∧ t.hostif.mashes = known l.entry ∧
        t.hostif.nextLoad = (if h.nextLoad + 1 = 0 then 1 else h.nextLoad + 1) ∧
        out t 0 2 = 0 ∧ out t 11 1 = (if l.cached then 1 else 0) ∧ out t 16 4 = l.propNs % 2 ^ 32 ∧
        out t 20 4 = l.mash.pads.length % 2 ^ 32 ∧ out t 32 4 = h.nextLoad.toNat ∧
        ∃ q ∈ t.regions, q.loadId = h.nextLoad ∧ q.part.toNat = f 24 1 ∧ q.districts.length = f 26 2 ∧
          q.status = .idle ∧ q.saved = false ∧ ∀ d ∈ q.districts, 0 < d ∧ d < 640 ∧ (s.distReg d).retiring = false ∧
            (s.distReg d).retired = false ∧ (f 28 2 = 0 ∨ (f 28 2).testBit (d / 40) = true))) ∧
    (up → ∀ v u, h.unload = some u → u ≠ v → exec (.unload v) s = .next { s with hostif := { h with unloadSt := 3 } }) ∧
    (up → ∀ v : BitVec 64, h.unload = none ∨ h.unload = some v →
      let load : BitVec 32 := v.setWidth 32
      let names (e : Nat) : Bool := (mgetN (128 * e) 4 s.sched).testBit 31 &&
        BitVec.ofNat 32 (mgetN (128 * e + 8) 4 s.sched) == load
      (∀ r, s.regionOf load = some r → v.toNat < 2 ^ 32 → r.status = .idle → (∀ e, e < 4096 → names e = false) →
        r.saved = false → runsTo s (.unload v) fun t => t.hostif.unloadSt = 1 ∧ t.hostif.unload = none ∧
          t.regions = s.regions.filter (fun q => q.loadId != load) ∧
          ∀ d, (d ∈ r.districts → t.coreOf d = {} ∧ (t.dist d).tileMem = [] ∧ (t.dist d).istore = []) ∧
            (d ∉ r.districts → t.dist d = s.dist d)) ∧
      ((2 ^ 32 ≤ v.toNat ∨ s.regionOf load = none ∨ (∃ e, e < 4096 ∧ names e = true) ∨
          (∃ r, s.regionOf load = some r ∧ r.status ≠ .idle)) →
        exec (.unload v) s = .next { s with hostif := { h with unload := none, unloadSt := 2 } })) ∧
    (up → ∀ b whole (w : BitVec 512),
      let k := bank s b
      let f (o n : Nat) : Nat := (w.extractLsb' (8 * o) (8 * n)).toNat
      let fine := f 0 2 < 4096 ∧ f 2 1 ≤ 6 ∧ f 3 1 = 0 ∧ f 56 8 = 0 ∧ ∀ i, i < f 2 1 →
        f (8 + 8 * i) 2 % 4 = 0 ∧ f (8 + 8 * i) 2 ≤ 60 ∧ f (10 + 8 * i) 2 = 0
      let becomes (k' : Bank) := runsTo s (.trigger b whole w) fun t =>
        { t with banks := s.banks } = s ∧ bank t b = k' ∧ ∀ c, c ≠ b → bank t c = bank s c
      let drops (code : BitVec 8) := becomes { k with dropped := BitVec.ofNat 16 (min 0xFFFF (k.dropped.toNat + 1)), lastErr := code }
      let en := k.cfg.getLsbD 15 = true
      (whole = false → drops 1) ∧ (whole = true → ¬ en → drops 2) ∧ (whole = true → en → ¬ fine → drops 3) ∧
      (whole = true → en → fine → 256 ≤ (k.tail - k.progress).toNat → drops 4) ∧
      (whole = true → en → fine → (k.tail - k.progress).toNat < 256 →
        becomes { k with fifo := k.fifo ++ [(k.tail, leBytes 64 w.toNat, false)], tail := k.tail + 1 })) ∧
    ((∀ b, b < 64 → (bank s b).taken = (bank s b).tail) → exec .scheduleTrigger s = .next s) ∧
    (∀ b rec, b < 64 → h.rr = b → s.gang.part = none → (bank s b).taken ≠ (bank s b).tail →
      (bank s b).fifo = [((bank s b).taken, rec, false)] →
      let k := bank s b
      let f (o n : Nat) : Nat := leNat ((rec.drop o).take n)
      let e := f 0 2
      let at_ (t : State) (o n : Nat) : Nat := mgetN (128 * e + o) n t.sched
      let ctrl := at_ s 0 4
      let part (v : BitVec 64) : Nat := v.toNat / 2 ^ 8 % 64
      let known := ctrl.testBit 31 = true ∧ ctrl / 2 ^ 16 % 64 = part k.cfg
      let took (t : State) : Prop := (bank t b).taken = k.taken + 1 ∧ t.hostif.rr = (b + 1) % 64 ∧
        (∀ c, c ≠ b → bank t c = bank s c) ∧ fabricOnly { s with sched := [] } { t with sched := [] }
      let completes (t : State) (failed : Bool) : Prop := bank t b = { k with
          taken := k.taken + 1, fifo := [], progress := k.progress + 1
          failed := if failed then BitVec.ofNat 16 (min 0xFFFF (k.failed.toNat + 1)) else k.failed } ∧
        t.hostif.msix = h.msix ++ if k.cfg.getLsbD 14 = true then [BitVec.ofNat 7 (k.cfg.toNat % 128)] else []
      let busy := ∃ r ∈ s.regions, r.entry = some e ∧ r.status ≠ .idle
      let patched (t : State) : Prop := f 2 1 = 1 → f 8 2 ≤ 60 → at_ t (64 + f 8 2) 4 = f 12 4
      (¬ known → runsTo s .scheduleTrigger fun t => took t ∧ completes t true ∧ t.sched = s.sched) ∧
      (known → f 2 1 ≤ 1 → 1 < at_ s 6 2 → runsTo s .scheduleTrigger fun t => took t ∧ completes t false ∧ patched t ∧
        at_ t 6 2 = at_ s 6 2 - 1 ∧ t.hostif.waiting = h.waiting) ∧
      (known → f 2 1 ≤ 1 → at_ s 6 2 = 1 →
        (¬ busy → runsTo s .scheduleTrigger fun t => took t ∧ patched t ∧ at_ t 6 2 = at_ s 4 2 ∧
          t.hostif.waiting = h.waiting ++ [{ entry := e, trigger := some (b, k.taken) }]) ∧
        (busy → at_ s 19 1 < 255 → runsTo s .scheduleTrigger fun t => took t ∧ patched t ∧ at_ t 6 2 = at_ s 4 2 ∧
          at_ t 19 1 = at_ s 19 1 + 1 ∧ t.hostif.waiting = h.waiting ++ [{ entry := e, pending := true, trigger := some (b, k.taken) }]) ∧
        (busy → at_ s 19 1 = 255 → runsTo s .scheduleTrigger fun t => took t ∧ patched t ∧ completes t true ∧
          at_ t 6 2 = at_ s 4 2)))

/-- 16 R312, R313, R318 to R322; 17 R343; 19 R358; 14 R270, R273, R284. The model's choices: a launch whose region was unloaded ends as
failed (log 83), the instant waits for every region that it saves to have halted and the halt begins for exactly those
(`gangOuts`, log 89), a restored region comes back at level 2 (log 119), and a node's ENTRY is taken without the bits that
PC has not (log 156). -/
def Obligations.LaunchesAndContextSwitches : Prop :=
  (∀ (g : Gang) (now i e : Nat), g.slice now = some (i, e) →
    let len (j : Nat) : Nat := max ((tgetD j g.ent).toNat % 2 ^ 32) 24000
    let upTo (j : Nat) : Nat := ((List.range j).map len).foldl (· + ·) 0
    i < g.n.toNat ∧ g.epoch.toNat ≤ now ∧ now < e ∧ e ≤ now + len i ∧
      (e - g.epoch.toNat) % upTo g.n.toNat = upTo (i + 1) % upTo g.n.toNat) ∧
  ∀ (s : State),
    let h := s.hostif
    let alone (r : Region) : Prop := r.districts.Nodup ∧ r.districts ≠ [] ∧ r ∈ s.regions ∧
      ∀ q ∈ s.regions, q = r ∨ q.loadId ≠ r.loadId ∧ (q.saved = true ∨ ∀ d ∈ r.districts, d ∉ q.districts)
    let same (c : Core) : Core := { c with tlb := [] }
    let holds (t : State) (r : Region) (k d : Nat) (x : District) : Prop := (k = 2 * d ∨ k = 2 * d + 1) ∧
      tget k t.caskOwner = some r.loadId ∧
      let y := tgetD k t.cask
      y.core = same x.core ∧ y.tileMem = x.tileMem ∧ y.full = x.full ∧ y.istore = x.istore ∧ y.images = x.images ∧
        y.active = x.active ∧ y.pes = x.pes ∧ y.tiles = x.tiles ∧ y.skid = x.skid ∧ y.port.sideLog = x.port.sideLog
    let savedIn (t : State) (r : Region) : Prop :=
      (∀ d ∈ r.districts, t.coreOf d = {} ∧ (t.dist d).tileMem = [] ∧
        ∃ k, tget k s.caskOwner = none ∧ holds t r k d (s.dist d)) ∧
      ∃ q, t.regionOf r.loadId = some q ∧ q.saved = true ∧ q.gangHalt = false ∧ q.entry = r.entry ∧
        (q.status = if r.status = .idle then .idle else .saved) ∧ q.drains = (r.status == .draining)
    let movable (r : Region) : Prop := (r.status = .running ∨ r.status = .draining) ∧ r.gangHalt = true ∧ r.saved = false ∧ r.recommit = false ∧
      (∀ d ∈ r.districts, (s.coreOf d).mayHalt = true) ∧ ∀ h ∈ s.husks, h.elem / 520 ∉ r.districts
    let slots (r : Region) : Prop := ∀ d ∈ r.districts, tget (2 * d) s.caskOwner = none ∨ tget (2 * d + 1) s.caskOwner = none
    (∀ e tr ws r, h.waiting = { entry := e, trigger := tr } :: ws →
      s.regionOf (BitVec.ofNat 32 (mgetN (128 * e + 8) 4 s.sched)) = some r →
      let inc := s.nextIncarnation r
      let taken (d : Nat) : Prop := let p := (s.dist d).port
        (∃ a ∈ p.accessQ ++ p.heldReads.map (·.acc) ++ p.sideLog.map (·.acc), a.inc = inc) ∨
          inc ∈ p.late ++ p.replyQ.map (·.1)
      (r.status ≠ .idle ∨ s.hasInstance e = true → exec (.launch e) s = .next s) ∧
      (alone r → s.hasInstance e = false → r.status = .idle → r.saved = false → s.gang.part = none → (∀ q ∈ s.regions, q.status ≠ .saved) →
        (∀ d ∈ r.districts, (s.distReg d).retiring = false ∧ (s.distReg d).retired = false) →
        ((∃ d ∈ r.districts, taken d) → exec (.launch e) s = .next s) ∧
        ((∀ d ∈ r.districts, ¬ taken d) → runsTo s (.launch e) fun t =>
          let par (i : Nat) : Word := BitVec.ofNat 64 (mgetN (128 * e + 64 + 8 * i) 8 s.sched)
          { t with districts := s.districts, regions := s.regions, regs := s.regs, husks := s.husks, hostif := h } = s ∧
          t.hostif = { h with waiting := ws } ∧
          (∃ q, t.regionOf r.loadId = some q ∧ q.status = .running ∧ q.entry = some e ∧ q.trigger = tr ∧ q.started = true ∧
            q.plane = 0 ∧ q.failed = false ∧ q.gangHalt = false ∧ q.recommit = false ∧ q.districts = r.districts ∧
              q.inc = inc ∧ (r.recommit = true → q.want = 2 ∧ q.permits = 64)) ∧
          (∀ d, d ∉ r.districts → t.coreOf d = s.coreOf d) ∧
          (∀ d ∈ r.districts, (t.distReg d).incarnation = inc ∧ (t.dist d).active = [] ∧ (t.dist d).skid = [] ∧
            (r.recommit = false → (t.dist d).istore = (s.dist d).istore ∧ (t.dist d).images = (s.dist d).images) ∧
            (r.recommit = true → ∀ m ∈ r.mash, m.dist = d → (∀ m' ∈ r.mash, m'.dist = d → m' = m) →
              (t.dist d).istore = m.istore ∧ (t.dist d).images = m.images) ∧
            ((∀ n ∈ r.nodes, n.dist ≠ d) → t.coreOf d = { halted := true }) ∧
            ∀ (id : Nat) (n : Node), r.nodes[id]? = some n → n.dist = d → (∀ (j : Nat) (m : Node), j < id → r.nodes[j]? = some m → m.dist ≠ d) →
              let c := t.coreOf d
              c.running = true ∧ c.halted = false ∧ c.pc = n.entry.setWidth 64 &&& 0x3FFFC ∧ c.flags = 0 ∧
              (∀ i, i < 8 → c.rdG (BitVec.ofNat 5 (i + 1)) = par i) ∧
              (∀ i : BitVec 5, i = 0 ∨ 9 ≤ i.toNat ∧ i ≠ 29 → c.rdG i = 0) ∧
              c.rdG 29 = (if n.stack = 0 then 0 else BitVec.ofNat 64
                ((250 * r.districts.idxOf d + 249) * 2 ^ 19 + 16 * t.cfgBase d 249)) ∧
              (r.caps = [] → c.rdK 0 = capMake (BitVec.ofNat 40 (2 ^ 19 * 250 * r.districts.length)) 0 0x3F 0xFFFFFF ∧
                ∀ k, k ≠ 0 → c.rdK k = 0) ∧
              (∀ k cap, r.caps = [(k, none, cap)] → k < 16 → c.rdK (BitVec.ofNat 4 k) = cap)) ∧
          (mgetN (128 * e + 16) 2 s.sched = 0xFFFF → r.data = [] → r.recommit = false → sameBytes s t ∧ ∀ d ∈ r.districts, (t.dist d).full = []) ∧
          (∀ n ord off bs, r.data = [((250 * n + ord) * 2 ^ 19 + off, bs)] → n < r.districts.length → ord < 250 →
            off + bs.length ≤ 0x60000 → (250 * n + ord) < 2 ^ 18 → ∀ j, j < bs.length →
              tileByteAt t (nth n r.districts) ord (off + j) = bs[j]?.getD 0)))) ∧
    (∀ e tr ws, h.waiting = { entry := e, trigger := tr } :: ws → s.regionOf (BitVec.ofNat 32 (mgetN (128 * e + 8) 4 s.sched)) = none →
      exec (.launch e) s = .next (completeTrigger { s with hostif := { h with waiting := ws } } tr true)) ∧
    (∀ r, s.regionOf r.loadId = some r → alone r →
      (movable r → slots r → s.gang.due = none → runsTo s (.caskSave r.loadId) fun t => savedIn t r) ∧
      (r.status = .running → r.gangHalt = false → r.haltAsked = false → exec (.caskSave r.loadId) s = .next s) ∧
      (r.status = .running → r.gangHalt = false → r.haltAsked = true → (∀ d ∈ r.districts, (s.coreOf d).mayHalt = true) →
        runsTo s (.caskSave r.loadId) fun t => fabricOnly s t ∧ t.regionOf r.loadId = some { r with gangHalt := true }) ∧
      (r.status = .saved → r.saved = true → s.gang.part = none → h.bellHeld = [] → h.waiting = [] →
        (∀ d ∈ r.districts, ∃ k x, (k = 2 * d ∨ k = 2 * d + 1) ∧ s.slotOwned r.loadId d = some k ∧ tget k s.cask = some x ∧
          x.port.sideLog = [] ∧ x.port.heldReads = [] ∧ x.skid = []) →
        (∀ q ∈ s.regions, q = r ∨ ∀ d ∈ r.districts, d ∉ q.districts) →
        runsTo s (.caskRestore r.loadId) fun t =>
          (∃ q, t.regionOf r.loadId = some q ∧ (q.status = if r.drains then .draining else .running) ∧ q.saved = false ∧
            q.entry = r.entry ∧ q.level = 2) ∧
          ∀ d ∈ r.districts, ∀ k, s.slotOwned r.loadId d = some k → tget k t.caskOwner = none ∧
            let x := tgetD k s.cask
            let y := t.dist d
            y.core = x.core ∧ y.tileMem = x.tileMem ∧ y.full = x.full ∧ y.istore = x.istore ∧ y.images = x.images ∧
              y.active = x.active ∧ y.pes = x.pes ∧ (t.distReg d).incarnation = r.inc)) ∧
    (s.gang.due = none → exec .gangHalt s = .next s ∧ exec .gangInstant s = .next s) ∧
    (∀ at_, s.gang.due = some at_ →
      let incoming := s.gang.applied.slice at_
      let nextDue := s.gang.applied.nextInstant at_
      let moved (t : State) : Prop := t.timebase = max s.timebase at_ ∧ t.gang.due = nextDue ∧
        t.gang.index = BitVec.ofNat 6 ((incoming.map (·.1)).getD 0) ∧
        t.gang.part = incoming.map fun q => s.gang.applied.partOf q.1
      (∀ r, s.gangOuts at_ = [r] → s.regionOf r.loadId = some r → alone r → (r.status = .running ∨ r.status = .draining) →
        (∀ d ∈ r.districts, (s.coreOf d).mayHalt = true) → runsTo s .gangHalt fun t => fabricOnly s t ∧
          t.timebase = max s.timebase (at_ - 1000) ∧ t.regionOf r.loadId = some { r with gangHalt := true }) ∧
      (∀ r, r ∈ s.gangOuts at_ ↔ ∃ i e, incoming = some (i, e) ∧ let p := s.gang.applied.partOf i
        s.gang.part ≠ some p ∧ r ∈ s.regions ∧ r.part ≠ p ∧ r.saved = false ∧
          (s.gang.applied.scheduled r.part = true ∨ s.gang.part = some r.part) ∧
          ∃ q ∈ s.regions, q.part = p ∧ q.saved = true ∧ ∃ d ∈ q.districts, d ∈ r.districts) ∧
      ((∃ r ∈ s.gangOuts at_, r.status ≠ .idle ∧ r.gangHalt = false) → exec .gangInstant s = .next s) ∧
      ((∀ r ∈ s.regions, r.saved = false) → runsTo s .gangInstant fun t => moved t ∧ fabricOnly s t) ∧
      (∀ r q d i e, s.regions = [r, q] → r.districts = [d] → q.districts = [d] → r.loadId ≠ q.loadId → movable r →
        q.saved = true → q.status = .saved → incoming = some (i, e) → q.part = s.gang.applied.partOf i → r.part ≠ q.part →
        s.gang.part = some r.part → h.bellHeld = [] →
        (slots r → (∃ k x, (k = 2 * d ∨ k = 2 * d + 1) ∧ s.slotOwned q.loadId d = some k ∧ tget k s.cask = some x ∧
            x.port.sideLog = [] ∧ x.port.heldReads = [] ∧ x.skid = []) →
          runsTo s .gangInstant fun t => moved t ∧ (∃ k, holds t r k d (s.dist d)) ∧
            (∃ k, s.slotOwned q.loadId d = some k ∧ t.coreOf d = (tgetD k s.cask).core ∧
              (t.dist d).tileMem = (tgetD k s.cask).tileMem) ∧
            (∃ q', t.regionOf q.loadId = some q' ∧ (q'.status = if q.drains then .draining else .running) ∧ q'.saved = false) ∧
            ∃ r', t.regionOf r.loadId = some r' ∧ r'.status = .saved ∧ r'.saved = true) ∧
        (¬ slots r → runsTo s .gangInstant fun t => moved t ∧ t.gang.skipped = true ∧
          ∃ r', t.regionOf r.loadId = some r' ∧ r'.status = r.status ∧ r'.saved = false ∧ r'.gangHalt = false)))

/-- 17 R327 to R340; 18 R345. The clauses that write memory are for caches that hold nothing and PORTs, those of saved
regions among them, that have logged nothing, unless they say so. The model's choices: the pool is a stack (log 57); PAGE_EXHAUSTED contains nothing where no
traffic waits for the fault any more, and a saved region's fault waits with it (log 84); RECLAIM_RETRY comes at any time (log
112). -/
def Obligations.PagerMapsInvalidatesAndMigrates : Prop :=
  ∀ (s : State),
    let p := s.paging
    let up := s.boot.state ≠ 1
    let pte (o : Obj) (n : Nat) : Nat := mgetN (o.ptaddr + 8 * n) 8 s.hbm
    (∀ part n o, s.objectOf part n = some o ↔
      let c := (tgetD part s.parts).otcfg.toNat
      let lo := mgetN (c / 2 ^ 4 % 2 ^ 36 * 16 + 16 * n) 8 s.hbm
      let hi := mgetN (c / 2 ^ 4 % 2 ^ 36 * 16 + 16 * n + 8) 8 s.hbm
      n < c / 2 ^ 40 ∧ hi.testBit 15 = true ∧ hi / 2 ^ 8 % 64 = part ∧ o =
        ⟨hi / 2 ^ 24, BitVec.ofNat 8 (hi / 2 ^ 16), hi.testBit 14, lo / 2 ^ 3 % 2 ^ 37 * 8⟩) ∧
    (up → ∀ v : BitVec 64,
      exec (.tlbinv v) s = .next (if p.tlbinv = none then { s with paging := { p with tlbinv := some v } } else s) ∧
      (p.fpcfg.toNat / 2 ^ 40 ≤ p.fpcount.toNat → exec (.fppush v) s = .next s) ∧
      (p.fpcount.toNat < p.fpcfg.toNat / 2 ^ 40 → runsTo s (.fppush v) fun t => { t with hbm := s.hbm, paging := p } = s ∧
        t.paging = { p with fpcount := p.fpcount + 1 } ∧
        putsN s.hbm t.hbm (p.fpcfg.toNat / 2 ^ 3 % 2 ^ 37 * 8 + 8 * p.fpcount.toNat) 8 (v.toNat % 2 ^ 36)) ∧
      ((∀ f ∈ p.faults, f.fsn ≠ v.setWidth 24) → exec (.pgresolve v) s = .next s) ∧
      (∀ f, p.faults.find? (fun g => g.fsn == v.setWidth 24) = some f →
        let isMapped := ∃ o, s.objectOf f.part.toNat f.obj.toNat = some o ∧ (pte o f.page.toNat).testBit 23 = true
        (¬ isMapped → exec (.pgresolve v) s = .next { s with paging := { p with
          faults := p.faults.map fun g => if g.fsn = v.setWidth 24 then { g with resolved := true } else g } }) ∧
        (isMapped → unlogged s → runsTo s (.pgresolve v) fun t => restarted s t f.part.toNat f.obj.toNat f.page.toNat ∧ sameBytes s t) ∧
        (∀ d c w bs o r, uncached s → (∀ b, b ≠ d → (s.dist b).port.sideLog = []) → (∀ b, (s.dist b).port.heldReads = []) →
          (s.dist d).port.sideLog = [{ acc := w, fsn := some f.fsn }] → s.regionAt d = some r → r.part = f.part → d < 640 →
          w.issuer = .seq c → w.write = some bs → bs.length = w.size → w.obj = f.obj →
          s.objectOf f.part.toNat f.obj.toNat = some o → w.offset.toNat / o.pageSize = f.page.toNat →
          w.offset.toNat + w.size ≤ o.limit → w.rights &&& ~~~o.ceil = 0 →
          let e := pte o f.page.toNat
          e.testBit 23 = true → e.testBit 22 = true → e.testBit 19 = false → e / 2 ^ 24 % 16 < 3 → pteBad o e = false →
          runsTo s (.pgresolve v) fun t => (t.dist d).port.sideLog = [] ∧
            (t.dist d).port.replyQ = (s.dist d).port.replyQ ++ [(w.inc, w, [], 0)] ∧
            putsN s.hbm t.hbm (e / 2 ^ 28 % 2 ^ 24 * 65536 + w.offset.toNat % o.pageSize) w.size (leNat bs)))) ∧
    (p.tlbinv = none → exec .tlbinvComplete s = .next s) ∧
    (∀ v : BitVec 64, p.tlbinv = some v → unlogged s → runsTo s .tlbinvComplete fun t => t.paging.tlbinv = none ∧
      let covered (x : TlbEntry) : Bool := match v.toNat % 4 with
        | 0 => x.part == v.extractLsb' 58 6 && x.obj == v.extractLsb' 34 24 && x.page == v.extractLsb' 10 24
        | 1 => x.part == v.extractLsb' 58 6 && x.obj == v.extractLsb' 34 24
        | 2 => x.part == v.extractLsb' 58 6
        | _ => true
      let left (l : List TlbEntry) : List TlbEntry := l.filter fun x => !covered x
      (∀ d, (t.dist d).port.tlb = left (s.dist d).port.tlb ∧ (t.coreOf d).tlb = left (s.coreOf d).tlb) ∧
      (∀ die, tgetD die t.paging.l2 = left (tgetD die p.l2)) ∧
      ((∀ d, ∀ x ∈ (s.dist d).port.tlb, x.count = 0) → sameBytes s t)) ∧
    (∀ fsn, (∀ f ∈ p.faults, f.fsn ≠ fsn) → exec (.pagerResolve fsn) s = .next s ∧ exec (.reclaimRetry fsn) s = .next s ∧
      exec (.pageExhausted fsn) s = .next s) ∧
    (∀ fsn f o, p.faults.find? (fun g => g.fsn == fsn) = some f → s.objectOf f.part.toNat f.obj.toNat = some o →
      uncached s → unlogged s →
      let part := f.part.toNat
      let e := pte o f.page.toNat
      let all := p.faults.filter fun g => g.part.toNat == part && g.obj.toNat == f.obj.toNat && g.page.toNat == f.page.toNat
      let told := all.any (·.notified)
      let software := all.any (·.software)
      let wants := e.testBit 23 = false ∧ software = false ∧ e / 2 ^ 26 % 4 = 0 ∧ e / 2 ^ 28 = 0
      let mapsTo (t : State) (frame : Nat) : Prop :=
        let at_ := o.ptaddr + 8 * f.page.toNat
        mgetN at_ 8 t.hbm = frame * 2 ^ 28 + e / 2 ^ 24 % 4 * 2 ^ 24 + 2 ^ 23 + (if e.testBit 21 then 2 ^ 21 else 0) + 2 ^ 18 ∧
        ∀ b, frame % 2 ^ 24 * 65536 ≤ b → b < frame % 2 ^ 24 * 65536 + o.pageSize → (b < at_ ∨ at_ + 8 ≤ b) → mget b t.hbm = 0
      let tells (type : Nat) (mark : PageFault → PageFault) := runsTo s (.pagerResolve fsn) fun t =>
        notified s t type part 0 ∧ sameBytesButHost s t ∧
        t.paging.faults = p.faults.map fun g => if g.fsn = fsn then mark g else g
      (told = false → exec (.reclaimRetry fsn) s = .next s) ∧
      (told = true → exec (.reclaimRetry fsn) s = exec (.pagerResolve fsn) s) ∧
      (e.testBit 23 = true → (software = true → all.any (·.resolved) = true) → runsTo s (.pagerResolve fsn) fun t =>
        restarted s t part f.obj.toNat f.page.toNat ∧ sameBytes s t) ∧
      (software = true → (e.testBit 23 = true → all.any (·.resolved) = false) → exec (.pagerResolve fsn) s = .next s) ∧
      (wants → 0 < p.fpcount.toNat → runsTo s (.pagerResolve fsn) fun t =>
        restarted s t part f.obj.toNat f.page.toNat ∧ t.paging.fpcount = p.fpcount - 1 ∧
        mapsTo t (mgetN (p.fpcfg.toNat / 2 ^ 3 % 2 ^ 37 * 8 + 8 * (p.fpcount.toNat - 1)) 8 s.hbm % 2 ^ 36)) ∧
      (wants → p.fpcount = 0 → s.reclaimList o.large part f.obj.toNat f.page.toNat = [] →
        (told = false → tells 3 fun g => { g with notified := true }) ∧ (told = true → exec (.pagerResolve fsn) s = .next s)) ∧
      (∀ pp j n o', wants → p.fpcount = 0 → s.reclaimList o.large part f.obj.toNat f.page.toNat = [(pp, j, n)] →
        s.objectOf pp j = some o' → runsTo s (.pagerResolve fsn) fun t =>
          restarted s t part f.obj.toNat f.page.toNat ∧ mapsTo t (pte o' n / 2 ^ 28 % 2 ^ 36)) ∧
      (e.testBit 23 = false → software = false → ¬ wants → tells 2 fun g => { g with software := true })) ∧
    (∀ fsn f, p.faults.find? (fun g => g.fsn == fsn) = some f → s.faultHeld f = [] → s.faultSaved f = true →
      exec (.pageExhausted fsn) s = .next s) ∧
    (∀ fsn f, p.faults.find? (fun g => g.fsn == fsn) = some f → s.faultHeld f ≠ [] ∨ s.faultSaved f = false →
      runsTo s (.pageExhausted fsn) fun t => notified s t 4 f.part.toNat 0 ∧ (∀ c, t.coreOf c = s.coreOf c) ∧
        t.timebase = max s.timebase (f.since + 1000 * p.deadline.toNat) ∧ t.paging.faults = p.faults.filter (fun g => g.fsn != fsn) ∧
        t.husks = s.husks ++ ((s.faultHeld f).head?.map fun a => {
          code := 0x07, region := !f.dataClass, elem := 520 * f.dist + if f.dataClass then portIdx else seqIdx
          plane := s.planeAt f.dist, name := s.accessName f.dist a : Husk }).toList) ∧
    (up → ∀ v : BitVec 64,
      let m := p.mig
      let src := m.src.toNat
      let page := src / 2 ^ 10 % 2 ^ 24
      let frame := v.toNat % 2 ^ 36
      let sets (m' : Migration) := exec (.migrationStart v) s = .next { s with paging := { p with mig := m' } }
      let known (o : Obj) := s.objectOf (src / 2 ^ 58) (src / 2 ^ 34 % 2 ^ 24) = some o ∧ page < o.pages
      (m.state = 1 → sets { m with err := 1 }) ∧
      (m.state ≠ 1 → (∀ o, ¬ known o) → sets { m with state := 3, err := 2 }) ∧
      ∀ o, m.state ≠ 1 → known o →
        let e := pte o page
        let onHost := e.testBit 23 = true ∧ e / 2 ^ 26 % 4 = 1
        let still := e.testBit 21 = false ∧ e.testBit 20 = false
        let fits := frame < 2 ^ 24 ∧ (o.large = true → frame % 256 = 0)
        (¬ onHost → sets { m with state := 3, err := 2 }) ∧ (onHost → ¬ still → sets { m with state := 3, err := 3 }) ∧
        (onHost → still → ¬ fits → sets { m with state := 3, err := 4 }) ∧
        (onHost → still → fits → uncached s → runsTo s (.migrationStart v) fun t =>
          let e1 := e + 2 ^ 20 + if e.testBit 19 then 0 else 2 ^ 19
          putsN s.hbm t.hbm (o.ptaddr + 8 * page) 8 e1 ∧ (∀ d, t.dist d = s.dist d) ∧
            { t with hbm := s.hbm, paging := p, districts := s.districts } = s ∧
          t.paging.mig = { m with state := 1, err := 0, frame := BitVec.ofNat 36 frame, entry := BitVec.ofNat 64 e1
                                  page := m.src }) ∧
        (onHost → still → fits → Config.migrationRace s.tick = true →
          (∃ q ∈ s.districts, ∃ x ∈ q.2.port.tlb, x.part.toNat = src / 2 ^ 58 ∧ x.obj.toNat = src / 2 ^ 34 % 2 ^ 24 ∧
            x.page.toNat = page ∧ 0 < x.count ∧ ∀ y ∈ q.2.port.tlb, y.part = x.part → y.obj = x.obj → y.page = x.page → y = x) →
          runsTo s (.migrationStart v) fun t => t.paging.mig = { m with state := 3, err := 5 })) ∧
    (p.mig.state ≠ 1 → exec .migrationCopyDone s = .next s) ∧
    (∀ o, p.mig.state = 1 → uncached s → unlogged s →
      let src := p.mig.page.toNat
      let part := src / 2 ^ 58
      let page := src / 2 ^ 10 % 2 ^ 24
      s.objectOf part (src / 2 ^ 34 % 2 ^ 24) = some o → page < o.pages →
      let at_ := o.ptaddr + 8 * page
      let e := p.mig.entry.toNat
      let to_ := p.mig.frame.toNat % 2 ^ 24 * 65536
      at_ + 8 ≤ to_ ∨ to_ + o.pageSize ≤ at_ →
      (mgetN at_ 8 s.hbm ≠ e → runsTo s .migrationCopyDone fun t => t.paging.mig = { p.mig with state := 3, err := 5 } ∧
        mgetN at_ 8 t.hbm = mgetN at_ 8 s.hbm) ∧
      (mgetN at_ 8 s.hbm = e → (∀ q ∈ s.cask, q.2.port.sideLog = []) → runsTo s .migrationCopyDone fun t =>
        t.paging.mig = { p.mig with state := 2, err := 0 } ∧
        notified s t 6 part 0 ∧ (∀ i, i < o.pageSize → mget (to_ + i) t.hbm = mget (e / 2 ^ 28 * 65536 + i) s.host) ∧
        mgetN at_ 8 t.hbm = p.mig.frame.toNat * 2 ^ 28 + e / 2 ^ 24 % 4 * 2 ^ 24 + 2 ^ 23 +
          (if e.testBit 22 then 2 ^ 22 else 0) + (if e.testBit 21 then 2 ^ 21 else 0) + if e.testBit 18 then 2 ^ 18 else 0))

/-- 17 R329, R332, R337, R340 to R343; 08 R175 and R185; 04 R106; 05 R109. The model's choices: a token of another kind than
the page request's next ends the request and stays at the head (log 53), a lone reply is taken (log 109), a first request
token is taken for the route whatever it says and checked with the rest, with the fields that row 7 of Table K-30 does not
list (log 140), an offset that the width does not divide is PAGE_FORM (log 150), and an access of an earlier launch seals
nothing of a later one (log 124). -/
def Obligations.PortsTranslateAndMoveData : Prop :=
  ∀ (s : State) (d : Nat) (r : Region), s.regionAt d = some r →
    let port (t : State) : Port := (t.dist d).port
    let p := s.paging
    (∀ n, (port s).accessQ.length ≤ n → exec (.portAccess d n) s = .next s) ∧
    (∀ a rest c, uncached s → unlogged s → (port s).accessQ = a :: rest → a.issuer = .seq c → c = d → d ≠ 1023 → 0 < a.size →
      a.holes = [] →
      let off := a.offset.toNat
      let current : Bool := a.inc == (s.distReg d).incarnation
      let runs (P : State → Prop) := runsTo s (.portAccess d 0) fun t => (port t).accessQ = rest ∧ P t
      let answers (t : State) (ws : List W32) (code : BitVec 8) : Prop :=
        (port t).replyQ = (port s).replyQ ++ [(a.inc, a, ws, code)] ∧ (port t).sideLog = [] ∧ (port t).heldReads = [] ∧
        t.paging.faults = p.faults
      let denied := runs fun t => answers t [] 0x60 ∧ sameBytes s t
      let seals (code : BitVec 8) := runs fun t => sameBytes s t ∧ (port t).replyQ = (port s).replyQ ∧
        t.husks = s.husks ++ if current then [{
          code := code, region := true, elem := 520 * d + seqIdx, plane := r.plane
          name := ((s.coreOf c).ops.find? fun o => o.id == a.op).map fun o => (c, o.pc, o.eecsn) }] else []
      let marks (t : State) (st : OpStatus) : Prop := (t.coreOf c).ops = (s.coreOf c).ops.map fun o =>
        if current ∧ o.id = a.op then { o with status := st } else o
      (s.objectOf r.part.toNat a.obj.toNat = none → denied) ∧
      (∀ o, s.objectOf r.part.toNat a.obj.toNat = some o → (o.limit < off + a.size ∨ a.rights &&& ~~~o.ceil ≠ 0) → denied) ∧
      ∀ o e, pageAt s r a.obj off a.size a.rights o e →
        let loc := e / 2 ^ 26 % 4
        let attr := e / 2 ^ 24 % 4
        let bad := loc = 3 ∨ attr = 3 ∨ (o.large = true ∧ e / 2 ^ 28 % 256 ≠ 0) ∨
          (loc = 2 ∧ (196608 ≤ e / 2 ^ 28 % 2 ^ 18 ∨ e / 2 ^ 46 % 2 ^ 14 ≠ 0))
        let record : PageFault := { fsn := p.fsn, part := r.part, obj := a.obj, page := BitVec.ofNat 24 (off / o.pageSize), dist := d
                                    dataClass := false, write := a.write.isSome, since := s.timebase, inc := a.inc }
        let faults (t : State) : Prop := t.paging.fsn = p.fsn + 1 ∧ t.paging.faults = p.faults ++ [record] ∧ sameBytes s t
        (e.testBit 23 = false →
          (a.write = none → runs fun t => faults t ∧ (port t).heldReads = [{ acc := a, fsn := p.fsn }] ∧ marks t .held ∧
            (current = true → (t.coreOf c).held = true)) ∧
          (a.write ≠ none → runs fun t => faults t ∧ (port t).sideLog = [{ acc := a, fsn := some p.fsn }] ∧ marks t .logged)) ∧
        (e.testBit 23 = true → bad → seals 0x08) ∧
        (e.testBit 23 = true → ¬ bad → loc = 1 → a.rights &&& o.ceil &&& 0x40 = 0 → denied) ∧
        (e.testBit 23 = true → ¬ bad → loc = 2 → seals 0x05) ∧
        (e.testBit 23 = true → ¬ bad → loc = 0 → e.testBit 19 = true → a.write ≠ none → runs fun t => sameBytes s t ∧
          (port t).sideLog = [{ acc := a, fsn := none }] ∧ t.paging.faults = p.faults ∧ marks t .logged) ∧
        (inHbm o e → a.write = none → runs fun t => sameBytes s t ∧ ∃ ws, answers t ws 0 ∧ ws.length = (a.size + 3) / 4 ∧
          ∀ i, i < ws.length → ws[i]? = some (BitVec.ofNat 32 (mgetN (placeOf o e off + 4 * i) (min 4 (a.size - 4 * i)) s.hbm))) ∧
        (∀ bs, inHbm o e → a.write = some bs → bs.length = a.size → runs fun t => answers t [] 0 ∧ ∃ m : Memory,
          putsN s.hbm m (o.ptaddr + 8 * (off / o.pageSize)) 8 (if e.testBit 22 then e else e + 2 ^ 22) ∧
          putsN m t.hbm (placeOf o e off) a.size (leNat bs))) ∧
    (∀ q, uncached s → unlogged s → s.isSealed (520 * d + portIdx) = false → (port s).stream.desc = some q →
      (port s).closing = [] → (∀ a ∈ (port s).accessQ, a.again = false) → ¬ namesTiles q.cap →
      let st := (port s).stream
      let e' := 520 * d + portIdx
      let off := (q.addr st.pos).toNat
      let link : Nat := s.chanField e' st.chan.toNat 3 (st.chan.toNat / 4) 0 / 16 ^ (st.chan.toNat % 4) % 16
      let mk : BitVec 2 := if st.pos + 1 = q.elements then 2 else if st.pos % q.count 0 + 1 = q.count 0 then 1 else 0
      st.ended = false → q.size ≤ 4 → ∀ o e,
        (q.dir = 0 → 0 ≤ q.addr st.pos → q.addr st.pos < 2 ^ 40 → off % 16 + q.size ≤ 16 →
          pageAt s r (q.cap.extractLsb' 0 24) off q.size (q.cap.extractLsb' 24 8) o e → inHbm o e → s.outOf e' = [] →
          1 ≤ link → link ≤ 4 → runsTo s (.portStreamElement d) fun t => sameBytes s t ∧
          emits s t e' (link - 1) { kind := 0, marker := mk, channel := st.chan
                                    data := BitVec.ofNat 32 (mgetN (placeOf o e off) q.size s.hbm) } ∧
          (st.pos + 1 < q.elements → (port t).stream = { st with pos := st.pos + 1 } ∧ ∀ c, t.coreOf c = s.coreOf c) ∧
          (∀ c pc n, st.pos + 1 = q.elements → st.owner = some (c, pc, n) → c ≠ d → t.outOf e' = [] →
            (port t).stream = {} ∧ answersTo s t c { counter := .cpc })) ∧
        (∀ l h, q.dir ≠ 0 → r.level ≠ 0 → st.buf = [] → s.deliveredAt e' st.chan.toNat Token.isData = some (l, h) →
          tget (32 * l + st.chan.toNat) (port s).partials = none → h.tok.marker ≠ 3 →
          let room := (q.run st.put 16).length
          let bs := st.bytes ++ (leBytes 4 h.tok.data.toNat).take q.size
          let ends := h.tok.marker = 2 ∨ st.pos + 1 = q.elements
          let took (t : State) := bufAt t e' l st.chan.toNat = (bufAt s e' l st.chan.toNat).drop 1
          st.bytes.length < room →
          (¬ ends → bs.length < room → runsTo s (.portStreamElement d) fun t => took t ∧ sameBytes s t ∧
            (port t).stream = { st with pos := st.pos + 1, bytes := bs }) ∧
          let run := q.run st.put bs.length
          (∀ lo n, lo ∈ run → lo + n ∈ run → (∀ a ∈ run, lo ≤ a ∧ a ≤ lo + n) → lo + n < 2 ^ 40 →
            pageAt s r (q.cap.extractLsb' 0 24) lo (n + 1) (q.cap.extractLsb' 24 8) o e → inHbm o e → e.testBit 22 = true →
            (¬ ends → bs.length = room → runsTo s (.portStreamElement d) fun t => took t ∧
              putsAt s.hbm t.hbm (placeOf o e) run bs ∧
              (port t).stream = { st with pos := st.pos + 1, bytes := [], put := st.put + room }) ∧
            (∀ c pc n, ends → bs.length ≤ room → st.owner = some (c, pc, n) → runsTo s (.portStreamElement d) fun t => took t ∧
              putsAt s.hbm t.hbm (placeOf o e) run bs ∧ (port t).stream = {} ∧
              answersTo s t c { counter := .cpc })))) ∧
    (let e' := 520 * d + portIdx
     let at_ (t : State) (l ch : Nat) := tget (32 * l + ch) (port t).partials
     ∀ l ch h rest, atHead s e' l ch h rest → r.level ≠ 0 → s.isSealed e' = false → s.routeOf e' l ch = 5 →
      (s.chanField e' ch 1 ch 0).testBit 15 = false →
      let w := h.tok.data
      let takes (P : State → Prop) := runsTo s (.pageRequest d l ch) fun t => fabricOnly s t ∧ bufAt t e' l ch = rest ∧ P t
      (h.tok.kind = 1 → at_ s l ch = none → takes fun t =>
        at_ t l ch = some { route := some w, cap := (s.coreOf d).rdK (w.extractLsb' 19 4), tag := h.tok.tag } ∧
        (port t).accessQ = (port s).accessQ) ∧
      (at_ s l ch = none → h.tok.kind = 2 → takes fun t =>
        at_ t l ch = none ∧ (port t).accessQ = (port s).accessQ ∧ (port t).replyQ = (port s).replyQ) ∧
      (∀ k, h.tok.kind = 1 ∨ h.tok.kind = 2 → at_ s l ch = some k → k.disp = none → runsTo s (.pageRequest d l ch) fun t =>
        fabricOnly s t ∧ at_ t l ch = none ∧ bufAt t e' l ch = bufAt s e' l ch ∧
          ∃ a, (port t).replyQ = (port s).replyQ ++ [((s.distReg d).incarnation, a, [], 7)]) ∧
      (∀ k v b c n, h.tok.kind = 1 → at_ s l ch = some k → k.disp = some v → k.request = none → 256 ≤ (port s).sideLog.length →
        h.tok.tag = some (1024 + c, n) → b ∈ (port s).accessQ → b.issuer = .pe c → b.op < n → b.write ≠ none →
        exec (.pageRequest d l ch) s = .next s) ∧
      (∀ k, h.tok.kind = 0 → at_ s l ch = some k → k.disp = none → takes fun t => at_ t l ch = some { k with disp := some w }) ∧
      (∀ k v, h.tok.kind = 1 → at_ s l ch = some k → k.disp = some v → k.request = none → (port s).sideLog.length < 256 →
        let route := (k.route.getD 0).toNat
        let o := (k.cap.extractLsb' 32 40).toNat + v.toNat
        let n : Nat := if w.extractLsb' 24 2 = 0#2 then 2 else if w.extractLsb' 24 2 = 1#2 then 4 else 16
        let who := match h.tok.tag with
          | some (m, _) => m - 1024
          | none => e'
        let formed := route / 2 ^ 28 = 15 ∧ route / 2 ^ 19 % 16 ≠ 0 ∧ route % 2 ^ 19 = 2 ^ 18 ∧
          k.cap.extractLsb' 0 24 ≠ 0xFFFFFF#24 ∧ o % n = 0 ∧ w.extractLsb' 26 2 = 0#2 ∧ w.extractLsb' 24 2 ≠ 3#2 ∧ w.extractLsb' 0 23 = 0#23
        let acc : Access := { obj := k.cap.extractLsb' 0 24, offset := BitVec.ofNat 40 o, size := n, write := none
                              rights := k.cap.extractLsb' 24 8, issuer := .pe who, rch := BitVec.ofNat 5 (route / 2 ^ 23)
                              ack := w.getLsbD 23, op := (h.tok.tag.map (·.2)).getD 0, inc := (s.distReg d).incarnation
                              places := if n = 16 then 4 else 1 }
        (w.extractLsb' 28 4 = 1#4 → takes fun t => at_ t l ch = some { k with request := some w, tag := h.tok.tag }) ∧
        (w.extractLsb' 28 4 = 0#4 → formed → capCause k.cap o n 1 = none → takes fun t => at_ t l ch = none ∧
          (port t).accessQ = (port s).accessQ ++ [acc]) ∧
        (w.extractLsb' 28 4 = 0#4 → formed → capCause k.cap o n 1 ≠ none → takes fun t => at_ t l ch = none ∧
          (port t).replyQ = (port s).replyQ ++ [(acc.inc, acc, [], 8)]) ∧
        (w.extractLsb' 28 4 ≠ 1#4 → ¬ (w.extractLsb' 28 4 = 0#4 ∧ formed) → takes fun t => at_ t l ch = none ∧
          ∃ a, (port t).replyQ = (port s).replyQ ++ [(acc.inc, a, [], 7)] ∧ a.issuer = .pe who)) ∧
      (∀ k v q, h.tok.kind = 0 → at_ s l ch = some k → k.disp = some v → k.request = some q →
        q.extractLsb' 28 4 = 1#4 → q.extractLsb' 26 2 = 0#2 → q.extractLsb' 24 2 = 1#2 → q.extractLsb' 0 23 = 0#23 →
        (k.route.getD 0).toNat / 2 ^ 28 = 15 → (k.route.getD 0).toNat / 2 ^ 19 % 16 ≠ 0 → (k.route.getD 0).toNat % 2 ^ 19 = 2 ^ 18 →
        ((k.cap.extractLsb' 32 40).toNat + v.toNat) % 4 = 0 → k.cap.extractLsb' 0 24 ≠ 0xFFFFFF#24 →
        capCause k.cap ((k.cap.extractLsb' 32 40).toNat + v.toNat) 4 2 = none → takes fun t => at_ t l ch = none ∧
          ∃ a, (port t).accessQ = (port s).accessQ ++ [a] ∧ a.write = some (leBytes 4 w.toNat) ∧ a.size = 4 ∧
            a.offset.toNat = ((k.cap.extractLsb' 32 40).toNat + v.toNat) % 2 ^ 40)) ∧
    (∀ a c code inc rest x, (port s).replyQ = (inc, a, [c], code) :: rest → a.issuer = .pe x →
      s.isSealed (520 * d + portIdx) = false → inc = (s.distReg d).incarnation →
      let e' := 520 * d + portIdx
      let link : Nat := s.chanField e' a.rch.toNat 3 (a.rch.toNat / 4) 0 / 16 ^ (a.rch.toNat % 4) % 16
      let answer : Token := if code = 0 then { kind := 2, channel := a.rch, data := c, tag := some (1024 + x, a.op) }
        else { kind := 2, marker := 3, channel := a.rch, data := code.setWidth 32, tag := some (1024 + x, a.op), frees := a.places }
      (∀ b, ∀ q ∈ (s.dist b).pes, q.2.donePend = none) →
      1 ≤ link → link ≤ 4 → runsTo s (.pageRequest d 4 0) fun t => (port t).replyQ = rest ∧ sameBytes s t ∧
        keeps s t e' (link - 1) [answer]) ∧
    ((∀ q ∈ (port s).replyQ, q.1 = (s.distReg d).incarnation) →
      ((∀ i ∈ (port s).late, i = (s.distReg d).incarnation) → exec (.replyLateDrop d) s = .next s) ∧
      ∀ i rest, (port s).late = i :: rest → i ≠ (s.distReg d).incarnation → runsTo s (.replyLateDrop d) fun t =>
        (port t).late = rest ∧ fabricOnly s t ∧ t.paging.latedrop.toNat = min (2 ^ 32 - 1) (p.latedrop.toNat + 1)) ∧
    (∀ q rest, (port s).replyQ = q :: rest → q.1 ≠ (s.distReg d).incarnation → runsTo s (.replyLateDrop d) fun t =>
      (port t).replyQ = rest ∧ fabricOnly s t ∧ t.paging.latedrop.toNat = min (2 ^ 32 - 1) (p.latedrop.toNat + 1))

/-- 06 R120, R124; 07 R148; 08 R196, R198; which agent acts is the agenda's (the model's own, log 3), and how time moves is
free (log 6); 20 R368, 19 R360 and 04 R101 for the intervals, whose die groups' power is free (log 137). -/
def Obligations.AStepRunsTheDecodedInstruction : Prop :=
  ∀ (s : State),
    let z := s.clocked.starvedSince s
    let next := min s.nextBoost (min s.nextPower s.nextHot)
    let boost := s.nextBoost ≤ s.nextPower ∧ s.nextBoost ≤ s.nextHot
    let power := s.nextPower < s.nextBoost ∧ s.nextPower ≤ s.nextHot
    let boundary (i : Instr) : Prop := (∃ a b c d, i = .boostBoundary a b c d ∧ boost) ∨ (i = .powerInterval ∧ power) ∨
      (i = .wsRefreshPeriod ∧ ¬ boost ∧ ¬ power)
    let begins (v : State) : Prop :=
      let w (g : Nat) := Config.groupPower v.tick g
      let i : Instr := if boost then .boostBoundary (w 0) (w 1) (w 2) (w 3) else if power then .powerInterval else .wsRefreshPeriod
      ∃ u, exec i v = .next u ∧ step s = .next (u.starvedSince v)
    z.tick = s.tick + 1 ∧ z.timebase = max s.timebase (min (s.timebase + Config.stepNs s.tick) (next - 1)) ∧
    { z with tick := s.tick, timebase := s.timebase, districts := s.districts } = s ∧
    (∀ d, { z.dist d with perf := (s.dist d).perf } = s.dist d) ∧
    (next ≤ s.timebase + 1 → (∀ i rest, s.agenda = .event i :: rest → ¬ boundary i) → begins { s with tick := s.tick + 1 }) ∧
    (∀ i rest, s.agenda = .event i :: rest → s.timebase + 1 < next ∨ boundary i →
      let v := { z with agenda := rest }
      (∀ u, exec i v = .next u → u.timebase < next ∨ boundary i ∨ u.timebase ≤ z.timebase → step s = .next (u.starvedSince v)) ∧
      (∀ u, exec i v = .next u → next ≤ u.timebase → ¬ boundary i → z.timebase < u.timebase → begins z) ∧
      ((∀ u, exec i v ≠ .next u) → step s = exec i v)) ∧
    (∀ c rest, s.timebase + 1 < next → (s.agenda = .core c :: rest ∨ (s.agenda = [] ∧ rest = [] ∧ c = s.core)) →
      let u := { z with core := c, agenda := rest }
      let pc := u.cr.pc.toNat
      let bytes := mgets pc (min 8 (0x40000 - pc)) (u.dist c).istore
      (∀ t, u.before = some t → step s = .next t) ∧
      (u.cr.running = true → u.cr.trapping = none → u.cr.pending = [] → u.cr.reissue = [] → u.cr.held = false →
        (∀ o ∈ u.cr.ops, o.status ≠ .errored) → (c = 1023 ∨ ∀ r, u.regionAt c = some r → r.gangHalt = false) →
        u.before = none) ∧
      (u.before = none →
        (∀ i more, u.cr.past = false → pc < 0x40000 → decode bytes = .ok (i, more) →
          (u.holds i = false → step s = exec i u) ∧ (u.holds i = true → step s = .next u)) ∧
        (∀ e, u.cr.past = false → pc < 0x40000 → decode bytes = .error e → e ≠ .short →
          step s = exec (.illegalWord (BitVec.ofNat 32 (mgetN pc 4 (u.dist c).istore))) u) ∧
        (u.cr.past = true ∨ 0x40000 ≤ pc ∨ decode bytes = .error .short → step s = exec .fetchRange u)))

/-- Two invariants that every turn of a core keeps, over all states and instructions: the canonical form of memory (the model's
own) and PC within the store (06 R120, 07 R158, R159, 08 R194 to R198). -/
def Obligations.CoreTurnsKeepTheInvariants : Prop :=
  ∀ (s t : State), (∀ i rest, s.agenda ≠ .event i :: rest) → step s = .next t →
    (s.memoriesWf = true → t.memoriesWf = true) ∧ (s.pcsOk = true → t.pcsOk = true)
end

