-- ==== Sys2Proof/Laws/State.lean ====
section
/-! SUPPORT. What each named update of the state leaves as it was: one lemma per field per update. -/

namespace Sys2Proof.Machine

/-! ### A district is replaced -/

@[simp] theorem setDist_cask (s : State) (d : Nat) (x : District) : (s.setDist d x).cask = s.cask := rfl
@[simp] theorem setDist_caskOwner (s : State) (d : Nat) (x : District) : (s.setDist d x).caskOwner = s.caskOwner := rfl
@[simp] theorem setDist_regions (s : State) (d : Nat) (x : District) : (s.setDist d x).regions = s.regions := rfl
@[simp] theorem setDist_regs (s : State) (d : Nat) (x : District) : (s.setDist d x).regs = s.regs := rfl
@[simp] theorem setDist_hbm (s : State) (d : Nat) (x : District) : (s.setDist d x).hbm = s.hbm := rfl
@[simp] theorem setDist_host (s : State) (d : Nat) (x : District) : (s.setDist d x).host = s.host := rfl
@[simp] theorem setDist_ws (s : State) (d : Nat) (x : District) : (s.setDist d x).ws = s.ws := rfl
@[simp] theorem setDist_sched (s : State) (d : Nat) (x : District) : (s.setDist d x).sched = s.sched := rfl
@[simp] theorem setDist_flash (s : State) (d : Nat) (x : District) : (s.setDist d x).flash = s.flash := rfl
@[simp] theorem setDist_hot (s : State) (d : Nat) (x : District) : (s.setDist d x).hot = s.hot := rfl
@[simp] theorem setDist_banks (s : State) (d : Nat) (x : District) : (s.setDist d x).banks = s.banks := rfl
@[simp] theorem setDist_parts (s : State) (d : Nat) (x : District) : (s.setDist d x).parts = s.parts := rfl
@[simp] theorem setDist_hostif (s : State) (d : Nat) (x : District) : (s.setDist d x).hostif = s.hostif := rfl
@[simp] theorem setDist_gang (s : State) (d : Nat) (x : District) : (s.setDist d x).gang = s.gang := rfl
@[simp] theorem setDist_paging (s : State) (d : Nat) (x : District) : (s.setDist d x).paging = s.paging := rfl
@[simp] theorem setDist_kiln (s : State) (d : Nat) (x : District) : (s.setDist d x).kiln = s.kiln := rfl
@[simp] theorem setDist_boot (s : State) (d : Nat) (x : District) : (s.setDist d x).boot = s.boot := rfl
@[simp] theorem setDist_fleet (s : State) (d : Nat) (x : District) : (s.setDist d x).fleet = s.fleet := rfl
@[simp] theorem setDist_timebase (s : State) (d : Nat) (x : District) : (s.setDist d x).timebase = s.timebase := rfl
@[simp] theorem setDist_nextPower (s : State) (d : Nat) (x : District) : (s.setDist d x).nextPower = s.nextPower := rfl
@[simp] theorem setDist_nextSense (s : State) (d : Nat) (x : District) : (s.setDist d x).nextSense = s.nextSense := rfl
@[simp] theorem setDist_nextBoost (s : State) (d : Nat) (x : District) : (s.setDist d x).nextBoost = s.nextBoost := rfl
@[simp] theorem setDist_nextHot (s : State) (d : Nat) (x : District) : (s.setDist d x).nextHot = s.nextHot := rfl
@[simp] theorem setDist_nextTok (s : State) (d : Nat) (x : District) : (s.setDist d x).nextTok = s.nextTok := rfl
@[simp] theorem setDist_nextTrace (s : State) (d : Nat) (x : District) : (s.setDist d x).nextTrace = s.nextTrace := rfl
@[simp] theorem setDist_husks (s : State) (d : Nat) (x : District) : (s.setDist d x).husks = s.husks := rfl
@[simp] theorem setDist_tick (s : State) (d : Nat) (x : District) : (s.setDist d x).tick = s.tick := rfl
@[simp] theorem setDist_core (s : State) (d : Nat) (x : District) : (s.setDist d x).core = s.core := rfl
@[simp] theorem setDist_agenda (s : State) (d : Nat) (x : District) : (s.setDist d x).agenda = s.agenda := rfl

/-! ### A district changes -/

@[simp] theorem modDist_cask (s : State) (d : Nat) (f : District → District) : (s.modDist d f).cask = s.cask := rfl
@[simp] theorem modDist_caskOwner (s : State) (d : Nat) (f : District → District) : (s.modDist d f).caskOwner = s.caskOwner := rfl
@[simp] theorem modDist_regions (s : State) (d : Nat) (f : District → District) : (s.modDist d f).regions = s.regions := rfl
@[simp] theorem modDist_regs (s : State) (d : Nat) (f : District → District) : (s.modDist d f).regs = s.regs := rfl
@[simp] theorem modDist_hbm (s : State) (d : Nat) (f : District → District) : (s.modDist d f).hbm = s.hbm := rfl
@[simp] theorem modDist_host (s : State) (d : Nat) (f : District → District) : (s.modDist d f).host = s.host := rfl
@[simp] theorem modDist_ws (s : State) (d : Nat) (f : District → District) : (s.modDist d f).ws = s.ws := rfl
@[simp] theorem modDist_sched (s : State) (d : Nat) (f : District → District) : (s.modDist d f).sched = s.sched := rfl
@[simp] theorem modDist_flash (s : State) (d : Nat) (f : District → District) : (s.modDist d f).flash = s.flash := rfl
@[simp] theorem modDist_hot (s : State) (d : Nat) (f : District → District) : (s.modDist d f).hot = s.hot := rfl
@[simp] theorem modDist_banks (s : State) (d : Nat) (f : District → District) : (s.modDist d f).banks = s.banks := rfl
@[simp] theorem modDist_parts (s : State) (d : Nat) (f : District → District) : (s.modDist d f).parts = s.parts := rfl
@[simp] theorem modDist_hostif (s : State) (d : Nat) (f : District → District) : (s.modDist d f).hostif = s.hostif := rfl
@[simp] theorem modDist_gang (s : State) (d : Nat) (f : District → District) : (s.modDist d f).gang = s.gang := rfl
@[simp] theorem modDist_paging (s : State) (d : Nat) (f : District → District) : (s.modDist d f).paging = s.paging := rfl
@[simp] theorem modDist_kiln (s : State) (d : Nat) (f : District → District) : (s.modDist d f).kiln = s.kiln := rfl
@[simp] theorem modDist_boot (s : State) (d : Nat) (f : District → District) : (s.modDist d f).boot = s.boot := rfl
@[simp] theorem modDist_fleet (s : State) (d : Nat) (f : District → District) : (s.modDist d f).fleet = s.fleet := rfl
@[simp] theorem modDist_timebase (s : State) (d : Nat) (f : District → District) : (s.modDist d f).timebase = s.timebase := rfl
@[simp] theorem modDist_nextPower (s : State) (d : Nat) (f : District → District) : (s.modDist d f).nextPower = s.nextPower := rfl
@[simp] theorem modDist_nextSense (s : State) (d : Nat) (f : District → District) : (s.modDist d f).nextSense = s.nextSense := rfl
@[simp] theorem modDist_nextBoost (s : State) (d : Nat) (f : District → District) : (s.modDist d f).nextBoost = s.nextBoost := rfl
@[simp] theorem modDist_nextHot (s : State) (d : Nat) (f : District → District) : (s.modDist d f).nextHot = s.nextHot := rfl
@[simp] theorem modDist_nextTok (s : State) (d : Nat) (f : District → District) : (s.modDist d f).nextTok = s.nextTok := rfl
@[simp] theorem modDist_nextTrace (s : State) (d : Nat) (f : District → District) : (s.modDist d f).nextTrace = s.nextTrace := rfl
@[simp] theorem modDist_husks (s : State) (d : Nat) (f : District → District) : (s.modDist d f).husks = s.husks := rfl
@[simp] theorem modDist_tick (s : State) (d : Nat) (f : District → District) : (s.modDist d f).tick = s.tick := rfl
@[simp] theorem modDist_core (s : State) (d : Nat) (f : District → District) : (s.modDist d f).core = s.core := rfl
@[simp] theorem modDist_agenda (s : State) (d : Nat) (f : District → District) : (s.modDist d f).agenda = s.agenda := rfl

/-! ### A core is replaced -/

@[simp] theorem setCore_cask (s : State) (c : Nat) (x : Core) : (s.setCore c x).cask = s.cask := rfl
@[simp] theorem setCore_caskOwner (s : State) (c : Nat) (x : Core) : (s.setCore c x).caskOwner = s.caskOwner := rfl
@[simp] theorem setCore_regions (s : State) (c : Nat) (x : Core) : (s.setCore c x).regions = s.regions := rfl
@[simp] theorem setCore_regs (s : State) (c : Nat) (x : Core) : (s.setCore c x).regs = s.regs := rfl
@[simp] theorem setCore_hbm (s : State) (c : Nat) (x : Core) : (s.setCore c x).hbm = s.hbm := rfl
@[simp] theorem setCore_host (s : State) (c : Nat) (x : Core) : (s.setCore c x).host = s.host := rfl
@[simp] theorem setCore_ws (s : State) (c : Nat) (x : Core) : (s.setCore c x).ws = s.ws := rfl
@[simp] theorem setCore_sched (s : State) (c : Nat) (x : Core) : (s.setCore c x).sched = s.sched := rfl
@[simp] theorem setCore_flash (s : State) (c : Nat) (x : Core) : (s.setCore c x).flash = s.flash := rfl
@[simp] theorem setCore_hot (s : State) (c : Nat) (x : Core) : (s.setCore c x).hot = s.hot := rfl
@[simp] theorem setCore_banks (s : State) (c : Nat) (x : Core) : (s.setCore c x).banks = s.banks := rfl
@[simp] theorem setCore_parts (s : State) (c : Nat) (x : Core) : (s.setCore c x).parts = s.parts := rfl
@[simp] theorem setCore_hostif (s : State) (c : Nat) (x : Core) : (s.setCore c x).hostif = s.hostif := rfl
@[simp] theorem setCore_gang (s : State) (c : Nat) (x : Core) : (s.setCore c x).gang = s.gang := rfl
@[simp] theorem setCore_paging (s : State) (c : Nat) (x : Core) : (s.setCore c x).paging = s.paging := rfl
@[simp] theorem setCore_kiln (s : State) (c : Nat) (x : Core) : (s.setCore c x).kiln = s.kiln := rfl
@[simp] theorem setCore_boot (s : State) (c : Nat) (x : Core) : (s.setCore c x).boot = s.boot := rfl
@[simp] theorem setCore_fleet (s : State) (c : Nat) (x : Core) : (s.setCore c x).fleet = s.fleet := rfl
@[simp] theorem setCore_timebase (s : State) (c : Nat) (x : Core) : (s.setCore c x).timebase = s.timebase := rfl
@[simp] theorem setCore_nextPower (s : State) (c : Nat) (x : Core) : (s.setCore c x).nextPower = s.nextPower := rfl
@[simp] theorem setCore_nextSense (s : State) (c : Nat) (x : Core) : (s.setCore c x).nextSense = s.nextSense := rfl
@[simp] theorem setCore_nextBoost (s : State) (c : Nat) (x : Core) : (s.setCore c x).nextBoost = s.nextBoost := rfl
@[simp] theorem setCore_nextHot (s : State) (c : Nat) (x : Core) : (s.setCore c x).nextHot = s.nextHot := rfl
@[simp] theorem setCore_nextTok (s : State) (c : Nat) (x : Core) : (s.setCore c x).nextTok = s.nextTok := rfl
@[simp] theorem setCore_nextTrace (s : State) (c : Nat) (x : Core) : (s.setCore c x).nextTrace = s.nextTrace := rfl
@[simp] theorem setCore_husks (s : State) (c : Nat) (x : Core) : (s.setCore c x).husks = s.husks := rfl
@[simp] theorem setCore_tick (s : State) (c : Nat) (x : Core) : (s.setCore c x).tick = s.tick := rfl
@[simp] theorem setCore_core (s : State) (c : Nat) (x : Core) : (s.setCore c x).core = s.core := rfl
@[simp] theorem setCore_agenda (s : State) (c : Nat) (x : Core) : (s.setCore c x).agenda = s.agenda := rfl

/-! ### A core changes -/

@[simp] theorem modCore_cask (s : State) (c : Nat) (f : Core → Core) : (s.modCore c f).cask = s.cask := rfl
@[simp] theorem modCore_caskOwner (s : State) (c : Nat) (f : Core → Core) : (s.modCore c f).caskOwner = s.caskOwner := rfl
@[simp] theorem modCore_regions (s : State) (c : Nat) (f : Core → Core) : (s.modCore c f).regions = s.regions := rfl
@[simp] theorem modCore_regs (s : State) (c : Nat) (f : Core → Core) : (s.modCore c f).regs = s.regs := rfl
@[simp] theorem modCore_hbm (s : State) (c : Nat) (f : Core → Core) : (s.modCore c f).hbm = s.hbm := rfl
@[simp] theorem modCore_host (s : State) (c : Nat) (f : Core → Core) : (s.modCore c f).host = s.host := rfl
@[simp] theorem modCore_ws (s : State) (c : Nat) (f : Core → Core) : (s.modCore c f).ws = s.ws := rfl
@[simp] theorem modCore_sched (s : State) (c : Nat) (f : Core → Core) : (s.modCore c f).sched = s.sched := rfl
@[simp] theorem modCore_flash (s : State) (c : Nat) (f : Core → Core) : (s.modCore c f).flash = s.flash := rfl
@[simp] theorem modCore_hot (s : State) (c : Nat) (f : Core → Core) : (s.modCore c f).hot = s.hot := rfl
@[simp] theorem modCore_banks (s : State) (c : Nat) (f : Core → Core) : (s.modCore c f).banks = s.banks := rfl
@[simp] theorem modCore_parts (s : State) (c : Nat) (f : Core → Core) : (s.modCore c f).parts = s.parts := rfl
@[simp] theorem modCore_hostif (s : State) (c : Nat) (f : Core → Core) : (s.modCore c f).hostif = s.hostif := rfl
@[simp] theorem modCore_gang (s : State) (c : Nat) (f : Core → Core) : (s.modCore c f).gang = s.gang := rfl
@[simp] theorem modCore_paging (s : State) (c : Nat) (f : Core → Core) : (s.modCore c f).paging = s.paging := rfl
@[simp] theorem modCore_kiln (s : State) (c : Nat) (f : Core → Core) : (s.modCore c f).kiln = s.kiln := rfl
@[simp] theorem modCore_boot (s : State) (c : Nat) (f : Core → Core) : (s.modCore c f).boot = s.boot := rfl
@[simp] theorem modCore_fleet (s : State) (c : Nat) (f : Core → Core) : (s.modCore c f).fleet = s.fleet := rfl
@[simp] theorem modCore_timebase (s : State) (c : Nat) (f : Core → Core) : (s.modCore c f).timebase = s.timebase := rfl
@[simp] theorem modCore_nextPower (s : State) (c : Nat) (f : Core → Core) : (s.modCore c f).nextPower = s.nextPower := rfl
@[simp] theorem modCore_nextSense (s : State) (c : Nat) (f : Core → Core) : (s.modCore c f).nextSense = s.nextSense := rfl
@[simp] theorem modCore_nextBoost (s : State) (c : Nat) (f : Core → Core) : (s.modCore c f).nextBoost = s.nextBoost := rfl
@[simp] theorem modCore_nextHot (s : State) (c : Nat) (f : Core → Core) : (s.modCore c f).nextHot = s.nextHot := rfl
@[simp] theorem modCore_nextTok (s : State) (c : Nat) (f : Core → Core) : (s.modCore c f).nextTok = s.nextTok := rfl
@[simp] theorem modCore_nextTrace (s : State) (c : Nat) (f : Core → Core) : (s.modCore c f).nextTrace = s.nextTrace := rfl
@[simp] theorem modCore_husks (s : State) (c : Nat) (f : Core → Core) : (s.modCore c f).husks = s.husks := rfl
@[simp] theorem modCore_tick (s : State) (c : Nat) (f : Core → Core) : (s.modCore c f).tick = s.tick := rfl
@[simp] theorem modCore_core (s : State) (c : Nat) (f : Core → Core) : (s.modCore c f).core = s.core := rfl
@[simp] theorem modCore_agenda (s : State) (c : Nat) (f : Core → Core) : (s.modCore c f).agenda = s.agenda := rfl

/-! ### The acting core is replaced -/

@[simp] theorem setCr_cask (s : State) (x : Core) : (s.setCr x).cask = s.cask := rfl
@[simp] theorem setCr_caskOwner (s : State) (x : Core) : (s.setCr x).caskOwner = s.caskOwner := rfl
@[simp] theorem setCr_regions (s : State) (x : Core) : (s.setCr x).regions = s.regions := rfl
@[simp] theorem setCr_regs (s : State) (x : Core) : (s.setCr x).regs = s.regs := rfl
@[simp] theorem setCr_hbm (s : State) (x : Core) : (s.setCr x).hbm = s.hbm := rfl
@[simp] theorem setCr_host (s : State) (x : Core) : (s.setCr x).host = s.host := rfl
@[simp] theorem setCr_ws (s : State) (x : Core) : (s.setCr x).ws = s.ws := rfl
@[simp] theorem setCr_sched (s : State) (x : Core) : (s.setCr x).sched = s.sched := rfl
@[simp] theorem setCr_flash (s : State) (x : Core) : (s.setCr x).flash = s.flash := rfl
@[simp] theorem setCr_hot (s : State) (x : Core) : (s.setCr x).hot = s.hot := rfl
@[simp] theorem setCr_banks (s : State) (x : Core) : (s.setCr x).banks = s.banks := rfl
@[simp] theorem setCr_parts (s : State) (x : Core) : (s.setCr x).parts = s.parts := rfl
@[simp] theorem setCr_hostif (s : State) (x : Core) : (s.setCr x).hostif = s.hostif := rfl
@[simp] theorem setCr_gang (s : State) (x : Core) : (s.setCr x).gang = s.gang := rfl
@[simp] theorem setCr_paging (s : State) (x : Core) : (s.setCr x).paging = s.paging := rfl
@[simp] theorem setCr_kiln (s : State) (x : Core) : (s.setCr x).kiln = s.kiln := rfl
@[simp] theorem setCr_boot (s : State) (x : Core) : (s.setCr x).boot = s.boot := rfl
@[simp] theorem setCr_fleet (s : State) (x : Core) : (s.setCr x).fleet = s.fleet := rfl
@[simp] theorem setCr_timebase (s : State) (x : Core) : (s.setCr x).timebase = s.timebase := rfl
@[simp] theorem setCr_nextPower (s : State) (x : Core) : (s.setCr x).nextPower = s.nextPower := rfl
@[simp] theorem setCr_nextSense (s : State) (x : Core) : (s.setCr x).nextSense = s.nextSense := rfl
@[simp] theorem setCr_nextBoost (s : State) (x : Core) : (s.setCr x).nextBoost = s.nextBoost := rfl
@[simp] theorem setCr_nextHot (s : State) (x : Core) : (s.setCr x).nextHot = s.nextHot := rfl
@[simp] theorem setCr_nextTok (s : State) (x : Core) : (s.setCr x).nextTok = s.nextTok := rfl
@[simp] theorem setCr_nextTrace (s : State) (x : Core) : (s.setCr x).nextTrace = s.nextTrace := rfl
@[simp] theorem setCr_husks (s : State) (x : Core) : (s.setCr x).husks = s.husks := rfl
@[simp] theorem setCr_tick (s : State) (x : Core) : (s.setCr x).tick = s.tick := rfl
@[simp] theorem setCr_core (s : State) (x : Core) : (s.setCr x).core = s.core := rfl
@[simp] theorem setCr_agenda (s : State) (x : Core) : (s.setCr x).agenda = s.agenda := rfl

/-! ### The acting core is replaced and moves past its word -/

@[simp] theorem finish_cask (s : State) (x : Core) : (finish s x).cask = s.cask := rfl
@[simp] theorem finish_caskOwner (s : State) (x : Core) : (finish s x).caskOwner = s.caskOwner := rfl
@[simp] theorem finish_regions (s : State) (x : Core) : (finish s x).regions = s.regions := rfl
@[simp] theorem finish_regs (s : State) (x : Core) : (finish s x).regs = s.regs := rfl
@[simp] theorem finish_hbm (s : State) (x : Core) : (finish s x).hbm = s.hbm := rfl
@[simp] theorem finish_host (s : State) (x : Core) : (finish s x).host = s.host := rfl
@[simp] theorem finish_ws (s : State) (x : Core) : (finish s x).ws = s.ws := rfl
@[simp] theorem finish_sched (s : State) (x : Core) : (finish s x).sched = s.sched := rfl
@[simp] theorem finish_flash (s : State) (x : Core) : (finish s x).flash = s.flash := rfl
@[simp] theorem finish_hot (s : State) (x : Core) : (finish s x).hot = s.hot := rfl
@[simp] theorem finish_banks (s : State) (x : Core) : (finish s x).banks = s.banks := rfl
@[simp] theorem finish_parts (s : State) (x : Core) : (finish s x).parts = s.parts := rfl
@[simp] theorem finish_hostif (s : State) (x : Core) : (finish s x).hostif = s.hostif := rfl
@[simp] theorem finish_gang (s : State) (x : Core) : (finish s x).gang = s.gang := rfl
@[simp] theorem finish_paging (s : State) (x : Core) : (finish s x).paging = s.paging := rfl
@[simp] theorem finish_kiln (s : State) (x : Core) : (finish s x).kiln = s.kiln := rfl
@[simp] theorem finish_boot (s : State) (x : Core) : (finish s x).boot = s.boot := rfl
@[simp] theorem finish_fleet (s : State) (x : Core) : (finish s x).fleet = s.fleet := rfl
@[simp] theorem finish_timebase (s : State) (x : Core) : (finish s x).timebase = s.timebase := rfl
@[simp] theorem finish_nextPower (s : State) (x : Core) : (finish s x).nextPower = s.nextPower := rfl
@[simp] theorem finish_nextSense (s : State) (x : Core) : (finish s x).nextSense = s.nextSense := rfl
@[simp] theorem finish_nextBoost (s : State) (x : Core) : (finish s x).nextBoost = s.nextBoost := rfl
@[simp] theorem finish_nextHot (s : State) (x : Core) : (finish s x).nextHot = s.nextHot := rfl
@[simp] theorem finish_nextTok (s : State) (x : Core) : (finish s x).nextTok = s.nextTok := rfl
@[simp] theorem finish_nextTrace (s : State) (x : Core) : (finish s x).nextTrace = s.nextTrace := rfl
@[simp] theorem finish_husks (s : State) (x : Core) : (finish s x).husks = s.husks := rfl
@[simp] theorem finish_tick (s : State) (x : Core) : (finish s x).tick = s.tick := rfl
@[simp] theorem finish_core (s : State) (x : Core) : (finish s x).core = s.core := rfl
@[simp] theorem finish_agenda (s : State) (x : Core) : (finish s x).agenda = s.agenda := rfl

/-! ### A region changes -/

@[simp] theorem modRegion_districts (s : State) (l : BitVec 32) (f : Region → Region) : (s.modRegion l f).districts = s.districts := rfl
@[simp] theorem modRegion_cask (s : State) (l : BitVec 32) (f : Region → Region) : (s.modRegion l f).cask = s.cask := rfl
@[simp] theorem modRegion_caskOwner (s : State) (l : BitVec 32) (f : Region → Region) : (s.modRegion l f).caskOwner = s.caskOwner := rfl
@[simp] theorem modRegion_regs (s : State) (l : BitVec 32) (f : Region → Region) : (s.modRegion l f).regs = s.regs := rfl
@[simp] theorem modRegion_hbm (s : State) (l : BitVec 32) (f : Region → Region) : (s.modRegion l f).hbm = s.hbm := rfl
@[simp] theorem modRegion_host (s : State) (l : BitVec 32) (f : Region → Region) : (s.modRegion l f).host = s.host := rfl
@[simp] theorem modRegion_ws (s : State) (l : BitVec 32) (f : Region → Region) : (s.modRegion l f).ws = s.ws := rfl
@[simp] theorem modRegion_sched (s : State) (l : BitVec 32) (f : Region → Region) : (s.modRegion l f).sched = s.sched := rfl
@[simp] theorem modRegion_flash (s : State) (l : BitVec 32) (f : Region → Region) : (s.modRegion l f).flash = s.flash := rfl
@[simp] theorem modRegion_hot (s : State) (l : BitVec 32) (f : Region → Region) : (s.modRegion l f).hot = s.hot := rfl
@[simp] theorem modRegion_banks (s : State) (l : BitVec 32) (f : Region → Region) : (s.modRegion l f).banks = s.banks := rfl
@[simp] theorem modRegion_parts (s : State) (l : BitVec 32) (f : Region → Region) : (s.modRegion l f).parts = s.parts := rfl
@[simp] theorem modRegion_hostif (s : State) (l : BitVec 32) (f : Region → Region) : (s.modRegion l f).hostif = s.hostif := rfl
@[simp] theorem modRegion_gang (s : State) (l : BitVec 32) (f : Region → Region) : (s.modRegion l f).gang = s.gang := rfl
@[simp] theorem modRegion_paging (s : State) (l : BitVec 32) (f : Region → Region) : (s.modRegion l f).paging = s.paging := rfl
@[simp] theorem modRegion_kiln (s : State) (l : BitVec 32) (f : Region → Region) : (s.modRegion l f).kiln = s.kiln := rfl
@[simp] theorem modRegion_boot (s : State) (l : BitVec 32) (f : Region → Region) : (s.modRegion l f).boot = s.boot := rfl
@[simp] theorem modRegion_fleet (s : State) (l : BitVec 32) (f : Region → Region) : (s.modRegion l f).fleet = s.fleet := rfl
@[simp] theorem modRegion_timebase (s : State) (l : BitVec 32) (f : Region → Region) : (s.modRegion l f).timebase = s.timebase := rfl
@[simp] theorem modRegion_nextPower (s : State) (l : BitVec 32) (f : Region → Region) : (s.modRegion l f).nextPower = s.nextPower := rfl
@[simp] theorem modRegion_nextSense (s : State) (l : BitVec 32) (f : Region → Region) : (s.modRegion l f).nextSense = s.nextSense := rfl
@[simp] theorem modRegion_nextBoost (s : State) (l : BitVec 32) (f : Region → Region) : (s.modRegion l f).nextBoost = s.nextBoost := rfl
@[simp] theorem modRegion_nextHot (s : State) (l : BitVec 32) (f : Region → Region) : (s.modRegion l f).nextHot = s.nextHot := rfl
@[simp] theorem modRegion_nextTok (s : State) (l : BitVec 32) (f : Region → Region) : (s.modRegion l f).nextTok = s.nextTok := rfl
@[simp] theorem modRegion_nextTrace (s : State) (l : BitVec 32) (f : Region → Region) : (s.modRegion l f).nextTrace = s.nextTrace := rfl
@[simp] theorem modRegion_husks (s : State) (l : BitVec 32) (f : Region → Region) : (s.modRegion l f).husks = s.husks := rfl
@[simp] theorem modRegion_tick (s : State) (l : BitVec 32) (f : Region → Region) : (s.modRegion l f).tick = s.tick := rfl
@[simp] theorem modRegion_core (s : State) (l : BitVec 32) (f : Region → Region) : (s.modRegion l f).core = s.core := rfl
@[simp] theorem modRegion_agenda (s : State) (l : BitVec 32) (f : Region → Region) : (s.modRegion l f).agenda = s.agenda := rfl

/-! ### District registers change -/

@[simp] theorem modReg_districts (s : State) (d : Nat) (f : DistReg → DistReg) : (s.modReg d f).districts = s.districts := rfl
@[simp] theorem modReg_cask (s : State) (d : Nat) (f : DistReg → DistReg) : (s.modReg d f).cask = s.cask := rfl
@[simp] theorem modReg_caskOwner (s : State) (d : Nat) (f : DistReg → DistReg) : (s.modReg d f).caskOwner = s.caskOwner := rfl
@[simp] theorem modReg_regions (s : State) (d : Nat) (f : DistReg → DistReg) : (s.modReg d f).regions = s.regions := rfl
@[simp] theorem modReg_hbm (s : State) (d : Nat) (f : DistReg → DistReg) : (s.modReg d f).hbm = s.hbm := rfl
@[simp] theorem modReg_host (s : State) (d : Nat) (f : DistReg → DistReg) : (s.modReg d f).host = s.host := rfl
@[simp] theorem modReg_ws (s : State) (d : Nat) (f : DistReg → DistReg) : (s.modReg d f).ws = s.ws := rfl
@[simp] theorem modReg_sched (s : State) (d : Nat) (f : DistReg → DistReg) : (s.modReg d f).sched = s.sched := rfl
@[simp] theorem modReg_flash (s : State) (d : Nat) (f : DistReg → DistReg) : (s.modReg d f).flash = s.flash := rfl
@[simp] theorem modReg_hot (s : State) (d : Nat) (f : DistReg → DistReg) : (s.modReg d f).hot = s.hot := rfl
@[simp] theorem modReg_banks (s : State) (d : Nat) (f : DistReg → DistReg) : (s.modReg d f).banks = s.banks := rfl
@[simp] theorem modReg_parts (s : State) (d : Nat) (f : DistReg → DistReg) : (s.modReg d f).parts = s.parts := rfl
@[simp] theorem modReg_hostif (s : State) (d : Nat) (f : DistReg → DistReg) : (s.modReg d f).hostif = s.hostif := rfl
@[simp] theorem modReg_gang (s : State) (d : Nat) (f : DistReg → DistReg) : (s.modReg d f).gang = s.gang := rfl
@[simp] theorem modReg_paging (s : State) (d : Nat) (f : DistReg → DistReg) : (s.modReg d f).paging = s.paging := rfl
@[simp] theorem modReg_kiln (s : State) (d : Nat) (f : DistReg → DistReg) : (s.modReg d f).kiln = s.kiln := rfl
@[simp] theorem modReg_boot (s : State) (d : Nat) (f : DistReg → DistReg) : (s.modReg d f).boot = s.boot := rfl
@[simp] theorem modReg_fleet (s : State) (d : Nat) (f : DistReg → DistReg) : (s.modReg d f).fleet = s.fleet := rfl
@[simp] theorem modReg_timebase (s : State) (d : Nat) (f : DistReg → DistReg) : (s.modReg d f).timebase = s.timebase := rfl
@[simp] theorem modReg_nextPower (s : State) (d : Nat) (f : DistReg → DistReg) : (s.modReg d f).nextPower = s.nextPower := rfl
@[simp] theorem modReg_nextSense (s : State) (d : Nat) (f : DistReg → DistReg) : (s.modReg d f).nextSense = s.nextSense := rfl
@[simp] theorem modReg_nextBoost (s : State) (d : Nat) (f : DistReg → DistReg) : (s.modReg d f).nextBoost = s.nextBoost := rfl
@[simp] theorem modReg_nextHot (s : State) (d : Nat) (f : DistReg → DistReg) : (s.modReg d f).nextHot = s.nextHot := rfl
@[simp] theorem modReg_nextTok (s : State) (d : Nat) (f : DistReg → DistReg) : (s.modReg d f).nextTok = s.nextTok := rfl
@[simp] theorem modReg_nextTrace (s : State) (d : Nat) (f : DistReg → DistReg) : (s.modReg d f).nextTrace = s.nextTrace := rfl
@[simp] theorem modReg_husks (s : State) (d : Nat) (f : DistReg → DistReg) : (s.modReg d f).husks = s.husks := rfl
@[simp] theorem modReg_tick (s : State) (d : Nat) (f : DistReg → DistReg) : (s.modReg d f).tick = s.tick := rfl
@[simp] theorem modReg_core (s : State) (d : Nat) (f : DistReg → DistReg) : (s.modReg d f).core = s.core := rfl
@[simp] theorem modReg_agenda (s : State) (d : Nat) (f : DistReg → DistReg) : (s.modReg d f).agenda = s.agenda := rfl

/-! ### An unrecoverable fault is recorded -/

@[simp] theorem contain_districts (s : State) (k : BitVec 8) (b : Bool) (e : Nat) (p : BitVec 2) : (s.contain k b e p).districts = s.districts := rfl
@[simp] theorem contain_cask (s : State) (k : BitVec 8) (b : Bool) (e : Nat) (p : BitVec 2) : (s.contain k b e p).cask = s.cask := rfl
@[simp] theorem contain_caskOwner (s : State) (k : BitVec 8) (b : Bool) (e : Nat) (p : BitVec 2) : (s.contain k b e p).caskOwner = s.caskOwner := rfl
@[simp] theorem contain_regions (s : State) (k : BitVec 8) (b : Bool) (e : Nat) (p : BitVec 2) : (s.contain k b e p).regions = s.regions := rfl
@[simp] theorem contain_regs (s : State) (k : BitVec 8) (b : Bool) (e : Nat) (p : BitVec 2) : (s.contain k b e p).regs = s.regs := rfl
@[simp] theorem contain_hbm (s : State) (k : BitVec 8) (b : Bool) (e : Nat) (p : BitVec 2) : (s.contain k b e p).hbm = s.hbm := rfl
@[simp] theorem contain_host (s : State) (k : BitVec 8) (b : Bool) (e : Nat) (p : BitVec 2) : (s.contain k b e p).host = s.host := rfl
@[simp] theorem contain_ws (s : State) (k : BitVec 8) (b : Bool) (e : Nat) (p : BitVec 2) : (s.contain k b e p).ws = s.ws := rfl
@[simp] theorem contain_sched (s : State) (k : BitVec 8) (b : Bool) (e : Nat) (p : BitVec 2) : (s.contain k b e p).sched = s.sched := rfl
@[simp] theorem contain_flash (s : State) (k : BitVec 8) (b : Bool) (e : Nat) (p : BitVec 2) : (s.contain k b e p).flash = s.flash := rfl
@[simp] theorem contain_hot (s : State) (k : BitVec 8) (b : Bool) (e : Nat) (p : BitVec 2) : (s.contain k b e p).hot = s.hot := rfl
@[simp] theorem contain_banks (s : State) (k : BitVec 8) (b : Bool) (e : Nat) (p : BitVec 2) : (s.contain k b e p).banks = s.banks := rfl
@[simp] theorem contain_parts (s : State) (k : BitVec 8) (b : Bool) (e : Nat) (p : BitVec 2) : (s.contain k b e p).parts = s.parts := rfl
@[simp] theorem contain_hostif (s : State) (k : BitVec 8) (b : Bool) (e : Nat) (p : BitVec 2) : (s.contain k b e p).hostif = s.hostif := rfl
@[simp] theorem contain_gang (s : State) (k : BitVec 8) (b : Bool) (e : Nat) (p : BitVec 2) : (s.contain k b e p).gang = s.gang := rfl
@[simp] theorem contain_paging (s : State) (k : BitVec 8) (b : Bool) (e : Nat) (p : BitVec 2) : (s.contain k b e p).paging = s.paging := rfl
@[simp] theorem contain_kiln (s : State) (k : BitVec 8) (b : Bool) (e : Nat) (p : BitVec 2) : (s.contain k b e p).kiln = s.kiln := rfl
@[simp] theorem contain_boot (s : State) (k : BitVec 8) (b : Bool) (e : Nat) (p : BitVec 2) : (s.contain k b e p).boot = s.boot := rfl
@[simp] theorem contain_fleet (s : State) (k : BitVec 8) (b : Bool) (e : Nat) (p : BitVec 2) : (s.contain k b e p).fleet = s.fleet := rfl
@[simp] theorem contain_timebase (s : State) (k : BitVec 8) (b : Bool) (e : Nat) (p : BitVec 2) : (s.contain k b e p).timebase = s.timebase := rfl
@[simp] theorem contain_nextPower (s : State) (k : BitVec 8) (b : Bool) (e : Nat) (p : BitVec 2) : (s.contain k b e p).nextPower = s.nextPower := rfl
@[simp] theorem contain_nextSense (s : State) (k : BitVec 8) (b : Bool) (e : Nat) (p : BitVec 2) : (s.contain k b e p).nextSense = s.nextSense := rfl
@[simp] theorem contain_nextBoost (s : State) (k : BitVec 8) (b : Bool) (e : Nat) (p : BitVec 2) : (s.contain k b e p).nextBoost = s.nextBoost := rfl
@[simp] theorem contain_nextHot (s : State) (k : BitVec 8) (b : Bool) (e : Nat) (p : BitVec 2) : (s.contain k b e p).nextHot = s.nextHot := rfl
@[simp] theorem contain_nextTok (s : State) (k : BitVec 8) (b : Bool) (e : Nat) (p : BitVec 2) : (s.contain k b e p).nextTok = s.nextTok := rfl
@[simp] theorem contain_nextTrace (s : State) (k : BitVec 8) (b : Bool) (e : Nat) (p : BitVec 2) : (s.contain k b e p).nextTrace = s.nextTrace := rfl
@[simp] theorem contain_tick (s : State) (k : BitVec 8) (b : Bool) (e : Nat) (p : BitVec 2) : (s.contain k b e p).tick = s.tick := rfl
@[simp] theorem contain_core (s : State) (k : BitVec 8) (b : Bool) (e : Nat) (p : BitVec 2) : (s.contain k b e p).core = s.core := rfl
@[simp] theorem contain_agenda (s : State) (k : BitVec 8) (b : Bool) (e : Nat) (p : BitVec 2) : (s.contain k b e p).agenda = s.agenda := rfl

/-! ### An MSI-X vector is signalled -/

@[simp] theorem signal_districts (s : State) (v : Nat) : (s.signal v).districts = s.districts := rfl
@[simp] theorem signal_cask (s : State) (v : Nat) : (s.signal v).cask = s.cask := rfl
@[simp] theorem signal_caskOwner (s : State) (v : Nat) : (s.signal v).caskOwner = s.caskOwner := rfl
@[simp] theorem signal_regions (s : State) (v : Nat) : (s.signal v).regions = s.regions := rfl
@[simp] theorem signal_regs (s : State) (v : Nat) : (s.signal v).regs = s.regs := rfl
@[simp] theorem signal_hbm (s : State) (v : Nat) : (s.signal v).hbm = s.hbm := rfl
@[simp] theorem signal_host (s : State) (v : Nat) : (s.signal v).host = s.host := rfl
@[simp] theorem signal_ws (s : State) (v : Nat) : (s.signal v).ws = s.ws := rfl
@[simp] theorem signal_sched (s : State) (v : Nat) : (s.signal v).sched = s.sched := rfl
@[simp] theorem signal_flash (s : State) (v : Nat) : (s.signal v).flash = s.flash := rfl
@[simp] theorem signal_hot (s : State) (v : Nat) : (s.signal v).hot = s.hot := rfl
@[simp] theorem signal_banks (s : State) (v : Nat) : (s.signal v).banks = s.banks := rfl
@[simp] theorem signal_parts (s : State) (v : Nat) : (s.signal v).parts = s.parts := rfl
@[simp] theorem signal_gang (s : State) (v : Nat) : (s.signal v).gang = s.gang := rfl
@[simp] theorem signal_paging (s : State) (v : Nat) : (s.signal v).paging = s.paging := rfl
@[simp] theorem signal_kiln (s : State) (v : Nat) : (s.signal v).kiln = s.kiln := rfl
@[simp] theorem signal_boot (s : State) (v : Nat) : (s.signal v).boot = s.boot := rfl
@[simp] theorem signal_fleet (s : State) (v : Nat) : (s.signal v).fleet = s.fleet := rfl
@[simp] theorem signal_timebase (s : State) (v : Nat) : (s.signal v).timebase = s.timebase := rfl
@[simp] theorem signal_nextPower (s : State) (v : Nat) : (s.signal v).nextPower = s.nextPower := rfl
@[simp] theorem signal_nextSense (s : State) (v : Nat) : (s.signal v).nextSense = s.nextSense := rfl
@[simp] theorem signal_nextBoost (s : State) (v : Nat) : (s.signal v).nextBoost = s.nextBoost := rfl
@[simp] theorem signal_nextHot (s : State) (v : Nat) : (s.signal v).nextHot = s.nextHot := rfl
@[simp] theorem signal_nextTok (s : State) (v : Nat) : (s.signal v).nextTok = s.nextTok := rfl
@[simp] theorem signal_nextTrace (s : State) (v : Nat) : (s.signal v).nextTrace = s.nextTrace := rfl
@[simp] theorem signal_husks (s : State) (v : Nat) : (s.signal v).husks = s.husks := rfl
@[simp] theorem signal_tick (s : State) (v : Nat) : (s.signal v).tick = s.tick := rfl
@[simp] theorem signal_core (s : State) (v : Nat) : (s.signal v).core = s.core := rfl
@[simp] theorem signal_agenda (s : State) (v : Nat) : (s.signal v).agenda = s.agenda := rfl

/-! ### Host memory is written -/

@[simp] theorem hostWrite_districts (s : State) (a : Nat) (bs : List Byte) : (s.hostWrite a bs).districts = s.districts := rfl
@[simp] theorem hostWrite_cask (s : State) (a : Nat) (bs : List Byte) : (s.hostWrite a bs).cask = s.cask := rfl
@[simp] theorem hostWrite_caskOwner (s : State) (a : Nat) (bs : List Byte) : (s.hostWrite a bs).caskOwner = s.caskOwner := rfl
@[simp] theorem hostWrite_regions (s : State) (a : Nat) (bs : List Byte) : (s.hostWrite a bs).regions = s.regions := rfl
@[simp] theorem hostWrite_regs (s : State) (a : Nat) (bs : List Byte) : (s.hostWrite a bs).regs = s.regs := rfl
@[simp] theorem hostWrite_hbm (s : State) (a : Nat) (bs : List Byte) : (s.hostWrite a bs).hbm = s.hbm := rfl
@[simp] theorem hostWrite_ws (s : State) (a : Nat) (bs : List Byte) : (s.hostWrite a bs).ws = s.ws := rfl
@[simp] theorem hostWrite_sched (s : State) (a : Nat) (bs : List Byte) : (s.hostWrite a bs).sched = s.sched := rfl
@[simp] theorem hostWrite_flash (s : State) (a : Nat) (bs : List Byte) : (s.hostWrite a bs).flash = s.flash := rfl
@[simp] theorem hostWrite_hot (s : State) (a : Nat) (bs : List Byte) : (s.hostWrite a bs).hot = s.hot := rfl
@[simp] theorem hostWrite_banks (s : State) (a : Nat) (bs : List Byte) : (s.hostWrite a bs).banks = s.banks := rfl
@[simp] theorem hostWrite_parts (s : State) (a : Nat) (bs : List Byte) : (s.hostWrite a bs).parts = s.parts := rfl
@[simp] theorem hostWrite_hostif (s : State) (a : Nat) (bs : List Byte) : (s.hostWrite a bs).hostif = s.hostif := rfl
@[simp] theorem hostWrite_gang (s : State) (a : Nat) (bs : List Byte) : (s.hostWrite a bs).gang = s.gang := rfl
@[simp] theorem hostWrite_paging (s : State) (a : Nat) (bs : List Byte) : (s.hostWrite a bs).paging = s.paging := rfl
@[simp] theorem hostWrite_kiln (s : State) (a : Nat) (bs : List Byte) : (s.hostWrite a bs).kiln = s.kiln := rfl
@[simp] theorem hostWrite_boot (s : State) (a : Nat) (bs : List Byte) : (s.hostWrite a bs).boot = s.boot := rfl
@[simp] theorem hostWrite_fleet (s : State) (a : Nat) (bs : List Byte) : (s.hostWrite a bs).fleet = s.fleet := rfl
@[simp] theorem hostWrite_timebase (s : State) (a : Nat) (bs : List Byte) : (s.hostWrite a bs).timebase = s.timebase := rfl
@[simp] theorem hostWrite_nextPower (s : State) (a : Nat) (bs : List Byte) : (s.hostWrite a bs).nextPower = s.nextPower := rfl
@[simp] theorem hostWrite_nextSense (s : State) (a : Nat) (bs : List Byte) : (s.hostWrite a bs).nextSense = s.nextSense := rfl
@[simp] theorem hostWrite_nextBoost (s : State) (a : Nat) (bs : List Byte) : (s.hostWrite a bs).nextBoost = s.nextBoost := rfl
@[simp] theorem hostWrite_nextHot (s : State) (a : Nat) (bs : List Byte) : (s.hostWrite a bs).nextHot = s.nextHot := rfl
@[simp] theorem hostWrite_nextTok (s : State) (a : Nat) (bs : List Byte) : (s.hostWrite a bs).nextTok = s.nextTok := rfl
@[simp] theorem hostWrite_nextTrace (s : State) (a : Nat) (bs : List Byte) : (s.hostWrite a bs).nextTrace = s.nextTrace := rfl
@[simp] theorem hostWrite_husks (s : State) (a : Nat) (bs : List Byte) : (s.hostWrite a bs).husks = s.husks := rfl
@[simp] theorem hostWrite_tick (s : State) (a : Nat) (bs : List Byte) : (s.hostWrite a bs).tick = s.tick := rfl
@[simp] theorem hostWrite_core (s : State) (a : Nat) (bs : List Byte) : (s.hostWrite a bs).core = s.core := rfl
@[simp] theorem hostWrite_agenda (s : State) (a : Nat) (bs : List Byte) : (s.hostWrite a bs).agenda = s.agenda := rfl

/-! ### A cause becomes pending -/

@[simp] theorem post_cask (s : State) (c : Nat) (k : Cause) : (s.post c k).cask = s.cask := rfl
@[simp] theorem post_caskOwner (s : State) (c : Nat) (k : Cause) : (s.post c k).caskOwner = s.caskOwner := rfl
@[simp] theorem post_regions (s : State) (c : Nat) (k : Cause) : (s.post c k).regions = s.regions := rfl
@[simp] theorem post_regs (s : State) (c : Nat) (k : Cause) : (s.post c k).regs = s.regs := rfl
@[simp] theorem post_hbm (s : State) (c : Nat) (k : Cause) : (s.post c k).hbm = s.hbm := rfl
@[simp] theorem post_host (s : State) (c : Nat) (k : Cause) : (s.post c k).host = s.host := rfl
@[simp] theorem post_ws (s : State) (c : Nat) (k : Cause) : (s.post c k).ws = s.ws := rfl
@[simp] theorem post_sched (s : State) (c : Nat) (k : Cause) : (s.post c k).sched = s.sched := rfl
@[simp] theorem post_flash (s : State) (c : Nat) (k : Cause) : (s.post c k).flash = s.flash := rfl
@[simp] theorem post_hot (s : State) (c : Nat) (k : Cause) : (s.post c k).hot = s.hot := rfl
@[simp] theorem post_banks (s : State) (c : Nat) (k : Cause) : (s.post c k).banks = s.banks := rfl
@[simp] theorem post_parts (s : State) (c : Nat) (k : Cause) : (s.post c k).parts = s.parts := rfl
@[simp] theorem post_hostif (s : State) (c : Nat) (k : Cause) : (s.post c k).hostif = s.hostif := rfl
@[simp] theorem post_gang (s : State) (c : Nat) (k : Cause) : (s.post c k).gang = s.gang := rfl
@[simp] theorem post_paging (s : State) (c : Nat) (k : Cause) : (s.post c k).paging = s.paging := rfl
@[simp] theorem post_kiln (s : State) (c : Nat) (k : Cause) : (s.post c k).kiln = s.kiln := rfl
@[simp] theorem post_boot (s : State) (c : Nat) (k : Cause) : (s.post c k).boot = s.boot := rfl
@[simp] theorem post_fleet (s : State) (c : Nat) (k : Cause) : (s.post c k).fleet = s.fleet := rfl
@[simp] theorem post_timebase (s : State) (c : Nat) (k : Cause) : (s.post c k).timebase = s.timebase := rfl
@[simp] theorem post_nextPower (s : State) (c : Nat) (k : Cause) : (s.post c k).nextPower = s.nextPower := rfl
@[simp] theorem post_nextSense (s : State) (c : Nat) (k : Cause) : (s.post c k).nextSense = s.nextSense := rfl
@[simp] theorem post_nextBoost (s : State) (c : Nat) (k : Cause) : (s.post c k).nextBoost = s.nextBoost := rfl
@[simp] theorem post_nextHot (s : State) (c : Nat) (k : Cause) : (s.post c k).nextHot = s.nextHot := rfl
@[simp] theorem post_nextTok (s : State) (c : Nat) (k : Cause) : (s.post c k).nextTok = s.nextTok := rfl
@[simp] theorem post_nextTrace (s : State) (c : Nat) (k : Cause) : (s.post c k).nextTrace = s.nextTrace := rfl
@[simp] theorem post_husks (s : State) (c : Nat) (k : Cause) : (s.post c k).husks = s.husks := rfl
@[simp] theorem post_tick (s : State) (c : Nat) (k : Cause) : (s.post c k).tick = s.tick := rfl
@[simp] theorem post_core (s : State) (c : Nat) (k : Cause) : (s.post c k).core = s.core := rfl
@[simp] theorem post_agenda (s : State) (c : Nat) (k : Cause) : (s.post c k).agenda = s.agenda := rfl

/-! ### A general register is written -/

@[simp] theorem wrG_k (x : Core) (i : BitVec 5) (v : Word) : (x.wrG i v).k = x.k := by unfold Core.wrG; split <;> rfl
@[simp] theorem wrG_d (x : Core) (i : BitVec 5) (v : Word) : (x.wrG i v).d = x.d := by unfold Core.wrG; split <;> rfl
@[simp] theorem wrG_c (x : Core) (i : BitVec 5) (v : Word) : (x.wrG i v).c = x.c := by unfold Core.wrG; split <;> rfl
@[simp] theorem wrG_flags (x : Core) (i : BitVec 5) (v : Word) : (x.wrG i v).flags = x.flags := by unfold Core.wrG; split <;> rfl
@[simp] theorem wrG_pc (x : Core) (i : BitVec 5) (v : Word) : (x.wrG i v).pc = x.pc := by unfold Core.wrG; split <;> rfl
@[simp] theorem wrG_ecsn (x : Core) (i : BitVec 5) (v : Word) : (x.wrG i v).ecsn = x.ecsn := by unfold Core.wrG; split <;> rfl
@[simp] theorem wrG_level1 (x : Core) (i : BitVec 5) (v : Word) : (x.wrG i v).level1 = x.level1 := by unfold Core.wrG; split <;> rfl
@[simp] theorem wrG_trapcause (x : Core) (i : BitVec 5) (v : Word) : (x.wrG i v).trapcause = x.trapcause := by unfold Core.wrG; split <;> rfl
@[simp] theorem wrG_trappc (x : Core) (i : BitVec 5) (v : Word) : (x.wrG i v).trappc = x.trappc := by unfold Core.wrG; split <;> rfl
@[simp] theorem wrG_trapq (x : Core) (i : BitVec 5) (v : Word) : (x.wrG i v).trapq = x.trapq := by unfold Core.wrG; split <;> rfl
@[simp] theorem wrG_remain (x : Core) (i : BitVec 5) (v : Word) : (x.wrG i v).remain = x.remain := by unfold Core.wrG; split <;> rfl
@[simp] theorem wrG_stepcfgLo (x : Core) (i : BitVec 5) (v : Word) : (x.wrG i v).stepcfgLo = x.stepcfgLo := by unfold Core.wrG; split <;> rfl
@[simp] theorem wrG_stepcfgHi (x : Core) (i : BitVec 5) (v : Word) : (x.wrG i v).stepcfgHi = x.stepcfgHi := by unfold Core.wrG; split <;> rfl
@[simp] theorem wrG_iter (x : Core) (i : BitVec 5) (v : Word) : (x.wrG i v).iter = x.iter := by unfold Core.wrG; split <;> rfl
@[simp] theorem wrG_step (x : Core) (i : BitVec 5) (v : Word) : (x.wrG i v).step = x.step := by unfold Core.wrG; split <;> rfl
@[simp] theorem wrG_doneQ (x : Core) (i : BitVec 5) (v : Word) : (x.wrG i v).doneQ = x.doneQ := by unfold Core.wrG; split <;> rfl
@[simp] theorem wrG_doneWait (x : Core) (i : BitVec 5) (v : Word) : (x.wrG i v).doneWait = x.doneWait := by unfold Core.wrG; split <;> rfl
@[simp] theorem wrG_sigQ (x : Core) (i : BitVec 5) (v : Word) : (x.wrG i v).sigQ = x.sigQ := by unfold Core.wrG; split <;> rfl
@[simp] theorem wrG_ldc (x : Core) (i : BitVec 5) (v : Word) : (x.wrG i v).ldc = x.ldc := by unfold Core.wrG; split <;> rfl
@[simp] theorem wrG_stc (x : Core) (i : BitVec 5) (v : Word) : (x.wrG i v).stc = x.stc := by unfold Core.wrG; split <;> rfl
@[simp] theorem wrG_cpc (x : Core) (i : BitVec 5) (v : Word) : (x.wrG i v).cpc = x.cpc := by unfold Core.wrG; split <;> rfl
@[simp] theorem wrG_toc (x : Core) (i : BitVec 5) (v : Word) : (x.wrG i v).toc = x.toc := by unfold Core.wrG; split <;> rfl
@[simp] theorem wrG_ops (x : Core) (i : BitVec 5) (v : Word) : (x.wrG i v).ops = x.ops := by unfold Core.wrG; split <;> rfl
@[simp] theorem wrG_opId (x : Core) (i : BitVec 5) (v : Word) : (x.wrG i v).opId = x.opId := by unfold Core.wrG; split <;> rfl
@[simp] theorem wrG_reissue (x : Core) (i : BitVec 5) (v : Word) : (x.wrG i v).reissue = x.reissue := by unfold Core.wrG; split <;> rfl
@[simp] theorem wrG_pending (x : Core) (i : BitVec 5) (v : Word) : (x.wrG i v).pending = x.pending := by unfold Core.wrG; split <;> rfl
@[simp] theorem wrG_trapping (x : Core) (i : BitVec 5) (v : Word) : (x.wrG i v).trapping = x.trapping := by unfold Core.wrG; split <;> rfl
@[simp] theorem wrG_remote (x : Core) (i : BitVec 5) (v : Word) : (x.wrG i v).remote = x.remote := by unfold Core.wrG; split <;> rfl
@[simp] theorem wrG_barGen (x : Core) (i : BitVec 5) (v : Word) : (x.wrG i v).barGen = x.barGen := by unfold Core.wrG; split <;> rfl
@[simp] theorem wrG_barArrived (x : Core) (i : BitVec 5) (v : Word) : (x.wrG i v).barArrived = x.barArrived := by unfold Core.wrG; split <;> rfl
@[simp] theorem wrG_phArrived (x : Core) (i : BitVec 5) (v : Word) : (x.wrG i v).phArrived = x.phArrived := by unfold Core.wrG; split <;> rfl
@[simp] theorem wrG_phDone (x : Core) (i : BitVec 5) (v : Word) : (x.wrG i v).phDone = x.phDone := by unfold Core.wrG; split <;> rfl
@[simp] theorem wrG_barDone (x : Core) (i : BitVec 5) (v : Word) : (x.wrG i v).barDone = x.barDone := by unfold Core.wrG; split <;> rfl
@[simp] theorem wrG_spargeWait (x : Core) (i : BitVec 5) (v : Word) : (x.wrG i v).spargeWait = x.spargeWait := by unfold Core.wrG; split <;> rfl
@[simp] theorem wrG_spargeDone (x : Core) (i : BitVec 5) (v : Word) : (x.wrG i v).spargeDone = x.spargeDone := by unfold Core.wrG; split <;> rfl
@[simp] theorem wrG_running (x : Core) (i : BitVec 5) (v : Word) : (x.wrG i v).running = x.running := by unfold Core.wrG; split <;> rfl
@[simp] theorem wrG_halted (x : Core) (i : BitVec 5) (v : Word) : (x.wrG i v).halted = x.halted := by unfold Core.wrG; split <;> rfl
@[simp] theorem wrG_idleSeen (x : Core) (i : BitVec 5) (v : Word) : (x.wrG i v).idleSeen = x.idleSeen := by unfold Core.wrG; split <;> rfl
@[simp] theorem wrG_held (x : Core) (i : BitVec 5) (v : Word) : (x.wrG i v).held = x.held := by unfold Core.wrG; split <;> rfl
@[simp] theorem wrG_tlb (x : Core) (i : BitVec 5) (v : Word) : (x.wrG i v).tlb = x.tlb := by unfold Core.wrG; split <;> rfl
@[simp] theorem wrG_inbox (x : Core) (i : BitVec 5) (v : Word) : (x.wrG i v).inbox = x.inbox := by unfold Core.wrG; split <;> rfl
@[simp] theorem wrG_past (x : Core) (i : BitVec 5) (v : Word) : (x.wrG i v).past = x.past := by unfold Core.wrG; split <;> rfl
@[simp] theorem wrG_inRep (x : Core) (i : BitVec 5) (v : Word) : (x.wrG i v).inRep = x.inRep := by unfold Core.wrG; split <;> rfl
@[simp] theorem wrG_noInt (x : Core) (i : BitVec 5) (v : Word) : (x.wrG i v).noInt = x.noInt := by unfold Core.wrG; split <;> rfl
@[simp] theorem wrG_fenceMark (x : Core) (i : BitVec 5) (v : Word) : (x.wrG i v).fenceMark = x.fenceMark := by unfold Core.wrG; split <;> rfl
@[simp] theorem wrG_trapOp (x : Core) (i : BitVec 5) (v : Word) : (x.wrG i v).trapOp = x.trapOp := by unfold Core.wrG; split <;> rfl

/-! ### A condition bit is written -/

@[simp] theorem wrC_g (x : Core) (i : BitVec 3) (v : Bool) : (x.wrC i v).g = x.g := by unfold Core.wrC; split <;> rfl
@[simp] theorem wrC_k (x : Core) (i : BitVec 3) (v : Bool) : (x.wrC i v).k = x.k := by unfold Core.wrC; split <;> rfl
@[simp] theorem wrC_d (x : Core) (i : BitVec 3) (v : Bool) : (x.wrC i v).d = x.d := by unfold Core.wrC; split <;> rfl
@[simp] theorem wrC_flags (x : Core) (i : BitVec 3) (v : Bool) : (x.wrC i v).flags = x.flags := by unfold Core.wrC; split <;> rfl
@[simp] theorem wrC_pc (x : Core) (i : BitVec 3) (v : Bool) : (x.wrC i v).pc = x.pc := by unfold Core.wrC; split <;> rfl
@[simp] theorem wrC_ecsn (x : Core) (i : BitVec 3) (v : Bool) : (x.wrC i v).ecsn = x.ecsn := by unfold Core.wrC; split <;> rfl
@[simp] theorem wrC_level1 (x : Core) (i : BitVec 3) (v : Bool) : (x.wrC i v).level1 = x.level1 := by unfold Core.wrC; split <;> rfl
@[simp] theorem wrC_trapcause (x : Core) (i : BitVec 3) (v : Bool) : (x.wrC i v).trapcause = x.trapcause := by unfold Core.wrC; split <;> rfl
@[simp] theorem wrC_trappc (x : Core) (i : BitVec 3) (v : Bool) : (x.wrC i v).trappc = x.trappc := by unfold Core.wrC; split <;> rfl
@[simp] theorem wrC_trapq (x : Core) (i : BitVec 3) (v : Bool) : (x.wrC i v).trapq = x.trapq := by unfold Core.wrC; split <;> rfl
@[simp] theorem wrC_remain (x : Core) (i : BitVec 3) (v : Bool) : (x.wrC i v).remain = x.remain := by unfold Core.wrC; split <;> rfl
@[simp] theorem wrC_stepcfgLo (x : Core) (i : BitVec 3) (v : Bool) : (x.wrC i v).stepcfgLo = x.stepcfgLo := by unfold Core.wrC; split <;> rfl
@[simp] theorem wrC_stepcfgHi (x : Core) (i : BitVec 3) (v : Bool) : (x.wrC i v).stepcfgHi = x.stepcfgHi := by unfold Core.wrC; split <;> rfl
@[simp] theorem wrC_iter (x : Core) (i : BitVec 3) (v : Bool) : (x.wrC i v).iter = x.iter := by unfold Core.wrC; split <;> rfl
@[simp] theorem wrC_step (x : Core) (i : BitVec 3) (v : Bool) : (x.wrC i v).step = x.step := by unfold Core.wrC; split <;> rfl
@[simp] theorem wrC_doneQ (x : Core) (i : BitVec 3) (v : Bool) : (x.wrC i v).doneQ = x.doneQ := by unfold Core.wrC; split <;> rfl
@[simp] theorem wrC_doneWait (x : Core) (i : BitVec 3) (v : Bool) : (x.wrC i v).doneWait = x.doneWait := by unfold Core.wrC; split <;> rfl
@[simp] theorem wrC_sigQ (x : Core) (i : BitVec 3) (v : Bool) : (x.wrC i v).sigQ = x.sigQ := by unfold Core.wrC; split <;> rfl
@[simp] theorem wrC_ldc (x : Core) (i : BitVec 3) (v : Bool) : (x.wrC i v).ldc = x.ldc := by unfold Core.wrC; split <;> rfl
@[simp] theorem wrC_stc (x : Core) (i : BitVec 3) (v : Bool) : (x.wrC i v).stc = x.stc := by unfold Core.wrC; split <;> rfl
@[simp] theorem wrC_cpc (x : Core) (i : BitVec 3) (v : Bool) : (x.wrC i v).cpc = x.cpc := by unfold Core.wrC; split <;> rfl
@[simp] theorem wrC_toc (x : Core) (i : BitVec 3) (v : Bool) : (x.wrC i v).toc = x.toc := by unfold Core.wrC; split <;> rfl
@[simp] theorem wrC_ops (x : Core) (i : BitVec 3) (v : Bool) : (x.wrC i v).ops = x.ops := by unfold Core.wrC; split <;> rfl
@[simp] theorem wrC_opId (x : Core) (i : BitVec 3) (v : Bool) : (x.wrC i v).opId = x.opId := by unfold Core.wrC; split <;> rfl
@[simp] theorem wrC_reissue (x : Core) (i : BitVec 3) (v : Bool) : (x.wrC i v).reissue = x.reissue := by unfold Core.wrC; split <;> rfl
@[simp] theorem wrC_pending (x : Core) (i : BitVec 3) (v : Bool) : (x.wrC i v).pending = x.pending := by unfold Core.wrC; split <;> rfl
@[simp] theorem wrC_trapping (x : Core) (i : BitVec 3) (v : Bool) : (x.wrC i v).trapping = x.trapping := by unfold Core.wrC; split <;> rfl
@[simp] theorem wrC_remote (x : Core) (i : BitVec 3) (v : Bool) : (x.wrC i v).remote = x.remote := by unfold Core.wrC; split <;> rfl
@[simp] theorem wrC_barGen (x : Core) (i : BitVec 3) (v : Bool) : (x.wrC i v).barGen = x.barGen := by unfold Core.wrC; split <;> rfl
@[simp] theorem wrC_barArrived (x : Core) (i : BitVec 3) (v : Bool) : (x.wrC i v).barArrived = x.barArrived := by unfold Core.wrC; split <;> rfl
@[simp] theorem wrC_phArrived (x : Core) (i : BitVec 3) (v : Bool) : (x.wrC i v).phArrived = x.phArrived := by unfold Core.wrC; split <;> rfl
@[simp] theorem wrC_phDone (x : Core) (i : BitVec 3) (v : Bool) : (x.wrC i v).phDone = x.phDone := by unfold Core.wrC; split <;> rfl
@[simp] theorem wrC_barDone (x : Core) (i : BitVec 3) (v : Bool) : (x.wrC i v).barDone = x.barDone := by unfold Core.wrC; split <;> rfl
@[simp] theorem wrC_spargeWait (x : Core) (i : BitVec 3) (v : Bool) : (x.wrC i v).spargeWait = x.spargeWait := by unfold Core.wrC; split <;> rfl
@[simp] theorem wrC_spargeDone (x : Core) (i : BitVec 3) (v : Bool) : (x.wrC i v).spargeDone = x.spargeDone := by unfold Core.wrC; split <;> rfl
@[simp] theorem wrC_running (x : Core) (i : BitVec 3) (v : Bool) : (x.wrC i v).running = x.running := by unfold Core.wrC; split <;> rfl
@[simp] theorem wrC_halted (x : Core) (i : BitVec 3) (v : Bool) : (x.wrC i v).halted = x.halted := by unfold Core.wrC; split <;> rfl
@[simp] theorem wrC_idleSeen (x : Core) (i : BitVec 3) (v : Bool) : (x.wrC i v).idleSeen = x.idleSeen := by unfold Core.wrC; split <;> rfl
@[simp] theorem wrC_held (x : Core) (i : BitVec 3) (v : Bool) : (x.wrC i v).held = x.held := by unfold Core.wrC; split <;> rfl
@[simp] theorem wrC_tlb (x : Core) (i : BitVec 3) (v : Bool) : (x.wrC i v).tlb = x.tlb := by unfold Core.wrC; split <;> rfl
@[simp] theorem wrC_inbox (x : Core) (i : BitVec 3) (v : Bool) : (x.wrC i v).inbox = x.inbox := by unfold Core.wrC; split <;> rfl
@[simp] theorem wrC_past (x : Core) (i : BitVec 3) (v : Bool) : (x.wrC i v).past = x.past := by unfold Core.wrC; split <;> rfl
@[simp] theorem wrC_inRep (x : Core) (i : BitVec 3) (v : Bool) : (x.wrC i v).inRep = x.inRep := by unfold Core.wrC; split <;> rfl
@[simp] theorem wrC_noInt (x : Core) (i : BitVec 3) (v : Bool) : (x.wrC i v).noInt = x.noInt := by unfold Core.wrC; split <;> rfl
@[simp] theorem wrC_fenceMark (x : Core) (i : BitVec 3) (v : Bool) : (x.wrC i v).fenceMark = x.fenceMark := by unfold Core.wrC; split <;> rfl
@[simp] theorem wrC_trapOp (x : Core) (i : BitVec 3) (v : Bool) : (x.wrC i v).trapOp = x.trapOp := by unfold Core.wrC; split <;> rfl

/-! ### A capability register is written -/

@[simp] theorem wrK_g (x : Core) (i : BitVec 4) (v : Cap) : (x.wrK i v).g = x.g := rfl
@[simp] theorem wrK_d (x : Core) (i : BitVec 4) (v : Cap) : (x.wrK i v).d = x.d := rfl
@[simp] theorem wrK_c (x : Core) (i : BitVec 4) (v : Cap) : (x.wrK i v).c = x.c := rfl
@[simp] theorem wrK_flags (x : Core) (i : BitVec 4) (v : Cap) : (x.wrK i v).flags = x.flags := rfl
@[simp] theorem wrK_pc (x : Core) (i : BitVec 4) (v : Cap) : (x.wrK i v).pc = x.pc := rfl
@[simp] theorem wrK_ecsn (x : Core) (i : BitVec 4) (v : Cap) : (x.wrK i v).ecsn = x.ecsn := rfl
@[simp] theorem wrK_level1 (x : Core) (i : BitVec 4) (v : Cap) : (x.wrK i v).level1 = x.level1 := rfl
@[simp] theorem wrK_trapcause (x : Core) (i : BitVec 4) (v : Cap) : (x.wrK i v).trapcause = x.trapcause := rfl
@[simp] theorem wrK_trappc (x : Core) (i : BitVec 4) (v : Cap) : (x.wrK i v).trappc = x.trappc := rfl
@[simp] theorem wrK_trapq (x : Core) (i : BitVec 4) (v : Cap) : (x.wrK i v).trapq = x.trapq := rfl
@[simp] theorem wrK_remain (x : Core) (i : BitVec 4) (v : Cap) : (x.wrK i v).remain = x.remain := rfl
@[simp] theorem wrK_stepcfgLo (x : Core) (i : BitVec 4) (v : Cap) : (x.wrK i v).stepcfgLo = x.stepcfgLo := rfl
@[simp] theorem wrK_stepcfgHi (x : Core) (i : BitVec 4) (v : Cap) : (x.wrK i v).stepcfgHi = x.stepcfgHi := rfl
@[simp] theorem wrK_iter (x : Core) (i : BitVec 4) (v : Cap) : (x.wrK i v).iter = x.iter := rfl
@[simp] theorem wrK_step (x : Core) (i : BitVec 4) (v : Cap) : (x.wrK i v).step = x.step := rfl
@[simp] theorem wrK_doneQ (x : Core) (i : BitVec 4) (v : Cap) : (x.wrK i v).doneQ = x.doneQ := rfl
@[simp] theorem wrK_doneWait (x : Core) (i : BitVec 4) (v : Cap) : (x.wrK i v).doneWait = x.doneWait := rfl
@[simp] theorem wrK_sigQ (x : Core) (i : BitVec 4) (v : Cap) : (x.wrK i v).sigQ = x.sigQ := rfl
@[simp] theorem wrK_ldc (x : Core) (i : BitVec 4) (v : Cap) : (x.wrK i v).ldc = x.ldc := rfl
@[simp] theorem wrK_stc (x : Core) (i : BitVec 4) (v : Cap) : (x.wrK i v).stc = x.stc := rfl
@[simp] theorem wrK_cpc (x : Core) (i : BitVec 4) (v : Cap) : (x.wrK i v).cpc = x.cpc := rfl
@[simp] theorem wrK_toc (x : Core) (i : BitVec 4) (v : Cap) : (x.wrK i v).toc = x.toc := rfl
@[simp] theorem wrK_ops (x : Core) (i : BitVec 4) (v : Cap) : (x.wrK i v).ops = x.ops := rfl
@[simp] theorem wrK_opId (x : Core) (i : BitVec 4) (v : Cap) : (x.wrK i v).opId = x.opId := rfl
@[simp] theorem wrK_reissue (x : Core) (i : BitVec 4) (v : Cap) : (x.wrK i v).reissue = x.reissue := rfl
@[simp] theorem wrK_pending (x : Core) (i : BitVec 4) (v : Cap) : (x.wrK i v).pending = x.pending := rfl
@[simp] theorem wrK_trapping (x : Core) (i : BitVec 4) (v : Cap) : (x.wrK i v).trapping = x.trapping := rfl
@[simp] theorem wrK_remote (x : Core) (i : BitVec 4) (v : Cap) : (x.wrK i v).remote = x.remote := rfl
@[simp] theorem wrK_barGen (x : Core) (i : BitVec 4) (v : Cap) : (x.wrK i v).barGen = x.barGen := rfl
@[simp] theorem wrK_barArrived (x : Core) (i : BitVec 4) (v : Cap) : (x.wrK i v).barArrived = x.barArrived := rfl
@[simp] theorem wrK_phArrived (x : Core) (i : BitVec 4) (v : Cap) : (x.wrK i v).phArrived = x.phArrived := rfl
@[simp] theorem wrK_phDone (x : Core) (i : BitVec 4) (v : Cap) : (x.wrK i v).phDone = x.phDone := rfl
@[simp] theorem wrK_barDone (x : Core) (i : BitVec 4) (v : Cap) : (x.wrK i v).barDone = x.barDone := rfl
@[simp] theorem wrK_spargeWait (x : Core) (i : BitVec 4) (v : Cap) : (x.wrK i v).spargeWait = x.spargeWait := rfl
@[simp] theorem wrK_spargeDone (x : Core) (i : BitVec 4) (v : Cap) : (x.wrK i v).spargeDone = x.spargeDone := rfl
@[simp] theorem wrK_running (x : Core) (i : BitVec 4) (v : Cap) : (x.wrK i v).running = x.running := rfl
@[simp] theorem wrK_halted (x : Core) (i : BitVec 4) (v : Cap) : (x.wrK i v).halted = x.halted := rfl
@[simp] theorem wrK_idleSeen (x : Core) (i : BitVec 4) (v : Cap) : (x.wrK i v).idleSeen = x.idleSeen := rfl
@[simp] theorem wrK_held (x : Core) (i : BitVec 4) (v : Cap) : (x.wrK i v).held = x.held := rfl
@[simp] theorem wrK_tlb (x : Core) (i : BitVec 4) (v : Cap) : (x.wrK i v).tlb = x.tlb := rfl
@[simp] theorem wrK_inbox (x : Core) (i : BitVec 4) (v : Cap) : (x.wrK i v).inbox = x.inbox := rfl
@[simp] theorem wrK_past (x : Core) (i : BitVec 4) (v : Cap) : (x.wrK i v).past = x.past := rfl
@[simp] theorem wrK_inRep (x : Core) (i : BitVec 4) (v : Cap) : (x.wrK i v).inRep = x.inRep := rfl
@[simp] theorem wrK_noInt (x : Core) (i : BitVec 4) (v : Cap) : (x.wrK i v).noInt = x.noInt := rfl
@[simp] theorem wrK_fenceMark (x : Core) (i : BitVec 4) (v : Cap) : (x.wrK i v).fenceMark = x.fenceMark := rfl
@[simp] theorem wrK_trapOp (x : Core) (i : BitVec 4) (v : Cap) : (x.wrK i v).trapOp = x.trapOp := rfl

/-! ### A stream descriptor is written -/

@[simp] theorem wrD_g (x : Core) (i : BitVec 4) (v : Option Descriptor) : (x.wrD i v).g = x.g := rfl
@[simp] theorem wrD_k (x : Core) (i : BitVec 4) (v : Option Descriptor) : (x.wrD i v).k = x.k := rfl
@[simp] theorem wrD_c (x : Core) (i : BitVec 4) (v : Option Descriptor) : (x.wrD i v).c = x.c := rfl
@[simp] theorem wrD_flags (x : Core) (i : BitVec 4) (v : Option Descriptor) : (x.wrD i v).flags = x.flags := rfl
@[simp] theorem wrD_pc (x : Core) (i : BitVec 4) (v : Option Descriptor) : (x.wrD i v).pc = x.pc := rfl
@[simp] theorem wrD_ecsn (x : Core) (i : BitVec 4) (v : Option Descriptor) : (x.wrD i v).ecsn = x.ecsn := rfl
@[simp] theorem wrD_level1 (x : Core) (i : BitVec 4) (v : Option Descriptor) : (x.wrD i v).level1 = x.level1 := rfl
@[simp] theorem wrD_trapcause (x : Core) (i : BitVec 4) (v : Option Descriptor) : (x.wrD i v).trapcause = x.trapcause := rfl
@[simp] theorem wrD_trappc (x : Core) (i : BitVec 4) (v : Option Descriptor) : (x.wrD i v).trappc = x.trappc := rfl
@[simp] theorem wrD_trapq (x : Core) (i : BitVec 4) (v : Option Descriptor) : (x.wrD i v).trapq = x.trapq := rfl
@[simp] theorem wrD_remain (x : Core) (i : BitVec 4) (v : Option Descriptor) : (x.wrD i v).remain = x.remain := rfl
@[simp] theorem wrD_stepcfgLo (x : Core) (i : BitVec 4) (v : Option Descriptor) : (x.wrD i v).stepcfgLo = x.stepcfgLo := rfl
@[simp] theorem wrD_stepcfgHi (x : Core) (i : BitVec 4) (v : Option Descriptor) : (x.wrD i v).stepcfgHi = x.stepcfgHi := rfl
@[simp] theorem wrD_iter (x : Core) (i : BitVec 4) (v : Option Descriptor) : (x.wrD i v).iter = x.iter := rfl
@[simp] theorem wrD_step (x : Core) (i : BitVec 4) (v : Option Descriptor) : (x.wrD i v).step = x.step := rfl
@[simp] theorem wrD_doneQ (x : Core) (i : BitVec 4) (v : Option Descriptor) : (x.wrD i v).doneQ = x.doneQ := rfl
@[simp] theorem wrD_doneWait (x : Core) (i : BitVec 4) (v : Option Descriptor) : (x.wrD i v).doneWait = x.doneWait := rfl
@[simp] theorem wrD_sigQ (x : Core) (i : BitVec 4) (v : Option Descriptor) : (x.wrD i v).sigQ = x.sigQ := rfl
@[simp] theorem wrD_ldc (x : Core) (i : BitVec 4) (v : Option Descriptor) : (x.wrD i v).ldc = x.ldc := rfl
@[simp] theorem wrD_stc (x : Core) (i : BitVec 4) (v : Option Descriptor) : (x.wrD i v).stc = x.stc := rfl
@[simp] theorem wrD_cpc (x : Core) (i : BitVec 4) (v : Option Descriptor) : (x.wrD i v).cpc = x.cpc := rfl
@[simp] theorem wrD_toc (x : Core) (i : BitVec 4) (v : Option Descriptor) : (x.wrD i v).toc = x.toc := rfl
@[simp] theorem wrD_ops (x : Core) (i : BitVec 4) (v : Option Descriptor) : (x.wrD i v).ops = x.ops := rfl
@[simp] theorem wrD_opId (x : Core) (i : BitVec 4) (v : Option Descriptor) : (x.wrD i v).opId = x.opId := rfl
@[simp] theorem wrD_reissue (x : Core) (i : BitVec 4) (v : Option Descriptor) : (x.wrD i v).reissue = x.reissue := rfl
@[simp] theorem wrD_pending (x : Core) (i : BitVec 4) (v : Option Descriptor) : (x.wrD i v).pending = x.pending := rfl
@[simp] theorem wrD_trapping (x : Core) (i : BitVec 4) (v : Option Descriptor) : (x.wrD i v).trapping = x.trapping := rfl
@[simp] theorem wrD_remote (x : Core) (i : BitVec 4) (v : Option Descriptor) : (x.wrD i v).remote = x.remote := rfl
@[simp] theorem wrD_barGen (x : Core) (i : BitVec 4) (v : Option Descriptor) : (x.wrD i v).barGen = x.barGen := rfl
@[simp] theorem wrD_barArrived (x : Core) (i : BitVec 4) (v : Option Descriptor) : (x.wrD i v).barArrived = x.barArrived := rfl
@[simp] theorem wrD_phArrived (x : Core) (i : BitVec 4) (v : Option Descriptor) : (x.wrD i v).phArrived = x.phArrived := rfl
@[simp] theorem wrD_phDone (x : Core) (i : BitVec 4) (v : Option Descriptor) : (x.wrD i v).phDone = x.phDone := rfl
@[simp] theorem wrD_barDone (x : Core) (i : BitVec 4) (v : Option Descriptor) : (x.wrD i v).barDone = x.barDone := rfl
@[simp] theorem wrD_spargeWait (x : Core) (i : BitVec 4) (v : Option Descriptor) : (x.wrD i v).spargeWait = x.spargeWait := rfl
@[simp] theorem wrD_spargeDone (x : Core) (i : BitVec 4) (v : Option Descriptor) : (x.wrD i v).spargeDone = x.spargeDone := rfl
@[simp] theorem wrD_running (x : Core) (i : BitVec 4) (v : Option Descriptor) : (x.wrD i v).running = x.running := rfl
@[simp] theorem wrD_halted (x : Core) (i : BitVec 4) (v : Option Descriptor) : (x.wrD i v).halted = x.halted := rfl
@[simp] theorem wrD_idleSeen (x : Core) (i : BitVec 4) (v : Option Descriptor) : (x.wrD i v).idleSeen = x.idleSeen := rfl
@[simp] theorem wrD_held (x : Core) (i : BitVec 4) (v : Option Descriptor) : (x.wrD i v).held = x.held := rfl
@[simp] theorem wrD_tlb (x : Core) (i : BitVec 4) (v : Option Descriptor) : (x.wrD i v).tlb = x.tlb := rfl
@[simp] theorem wrD_inbox (x : Core) (i : BitVec 4) (v : Option Descriptor) : (x.wrD i v).inbox = x.inbox := rfl
@[simp] theorem wrD_past (x : Core) (i : BitVec 4) (v : Option Descriptor) : (x.wrD i v).past = x.past := rfl
@[simp] theorem wrD_inRep (x : Core) (i : BitVec 4) (v : Option Descriptor) : (x.wrD i v).inRep = x.inRep := rfl
@[simp] theorem wrD_noInt (x : Core) (i : BitVec 4) (v : Option Descriptor) : (x.wrD i v).noInt = x.noInt := rfl
@[simp] theorem wrD_fenceMark (x : Core) (i : BitVec 4) (v : Option Descriptor) : (x.wrD i v).fenceMark = x.fenceMark := rfl
@[simp] theorem wrD_trapOp (x : Core) (i : BitVec 4) (v : Option Descriptor) : (x.wrD i v).trapOp = x.trapOp := rfl

/-! ### PC moves past n words -/

@[simp] theorem advance_g (x : Core) (n : Nat) : (x.advance n).g = x.g := rfl
@[simp] theorem advance_k (x : Core) (n : Nat) : (x.advance n).k = x.k := rfl
@[simp] theorem advance_d (x : Core) (n : Nat) : (x.advance n).d = x.d := rfl
@[simp] theorem advance_c (x : Core) (n : Nat) : (x.advance n).c = x.c := rfl
@[simp] theorem advance_flags (x : Core) (n : Nat) : (x.advance n).flags = x.flags := rfl
@[simp] theorem advance_ecsn (x : Core) (n : Nat) : (x.advance n).ecsn = x.ecsn := rfl
@[simp] theorem advance_level1 (x : Core) (n : Nat) : (x.advance n).level1 = x.level1 := rfl
@[simp] theorem advance_trapcause (x : Core) (n : Nat) : (x.advance n).trapcause = x.trapcause := rfl
@[simp] theorem advance_trappc (x : Core) (n : Nat) : (x.advance n).trappc = x.trappc := rfl
@[simp] theorem advance_trapq (x : Core) (n : Nat) : (x.advance n).trapq = x.trapq := rfl
@[simp] theorem advance_remain (x : Core) (n : Nat) : (x.advance n).remain = x.remain := rfl
@[simp] theorem advance_stepcfgLo (x : Core) (n : Nat) : (x.advance n).stepcfgLo = x.stepcfgLo := rfl
@[simp] theorem advance_stepcfgHi (x : Core) (n : Nat) : (x.advance n).stepcfgHi = x.stepcfgHi := rfl
@[simp] theorem advance_iter (x : Core) (n : Nat) : (x.advance n).iter = x.iter := rfl
@[simp] theorem advance_step (x : Core) (n : Nat) : (x.advance n).step = x.step := rfl
@[simp] theorem advance_doneQ (x : Core) (n : Nat) : (x.advance n).doneQ = x.doneQ := rfl
@[simp] theorem advance_doneWait (x : Core) (n : Nat) : (x.advance n).doneWait = x.doneWait := rfl
@[simp] theorem advance_sigQ (x : Core) (n : Nat) : (x.advance n).sigQ = x.sigQ := rfl
@[simp] theorem advance_ldc (x : Core) (n : Nat) : (x.advance n).ldc = x.ldc := rfl
@[simp] theorem advance_stc (x : Core) (n : Nat) : (x.advance n).stc = x.stc := rfl
@[simp] theorem advance_cpc (x : Core) (n : Nat) : (x.advance n).cpc = x.cpc := rfl
@[simp] theorem advance_toc (x : Core) (n : Nat) : (x.advance n).toc = x.toc := rfl
@[simp] theorem advance_ops (x : Core) (n : Nat) : (x.advance n).ops = x.ops := rfl
@[simp] theorem advance_opId (x : Core) (n : Nat) : (x.advance n).opId = x.opId := rfl
@[simp] theorem advance_reissue (x : Core) (n : Nat) : (x.advance n).reissue = x.reissue := rfl
@[simp] theorem advance_pending (x : Core) (n : Nat) : (x.advance n).pending = x.pending := rfl
@[simp] theorem advance_trapping (x : Core) (n : Nat) : (x.advance n).trapping = x.trapping := rfl
@[simp] theorem advance_remote (x : Core) (n : Nat) : (x.advance n).remote = x.remote := rfl
@[simp] theorem advance_barGen (x : Core) (n : Nat) : (x.advance n).barGen = x.barGen := rfl
@[simp] theorem advance_barArrived (x : Core) (n : Nat) : (x.advance n).barArrived = x.barArrived := rfl
@[simp] theorem advance_phArrived (x : Core) (n : Nat) : (x.advance n).phArrived = x.phArrived := rfl
@[simp] theorem advance_phDone (x : Core) (n : Nat) : (x.advance n).phDone = x.phDone := rfl
@[simp] theorem advance_barDone (x : Core) (n : Nat) : (x.advance n).barDone = x.barDone := rfl
@[simp] theorem advance_spargeWait (x : Core) (n : Nat) : (x.advance n).spargeWait = x.spargeWait := rfl
@[simp] theorem advance_spargeDone (x : Core) (n : Nat) : (x.advance n).spargeDone = x.spargeDone := rfl
@[simp] theorem advance_running (x : Core) (n : Nat) : (x.advance n).running = x.running := rfl
@[simp] theorem advance_halted (x : Core) (n : Nat) : (x.advance n).halted = x.halted := rfl
@[simp] theorem advance_idleSeen (x : Core) (n : Nat) : (x.advance n).idleSeen = x.idleSeen := rfl
@[simp] theorem advance_held (x : Core) (n : Nat) : (x.advance n).held = x.held := rfl
@[simp] theorem advance_tlb (x : Core) (n : Nat) : (x.advance n).tlb = x.tlb := rfl
@[simp] theorem advance_inbox (x : Core) (n : Nat) : (x.advance n).inbox = x.inbox := rfl
@[simp] theorem advance_inRep (x : Core) (n : Nat) : (x.advance n).inRep = x.inRep := rfl
@[simp] theorem advance_fenceMark (x : Core) (n : Nat) : (x.advance n).fenceMark = x.fenceMark := rfl
@[simp] theorem advance_trapOp (x : Core) (n : Nat) : (x.advance n).trapOp = x.trapOp := rfl

/-! ### Conditions are added to FLAGS -/

@[simp] theorem raiseFlags_g (x : Core) (v : Conds) : (x.raiseFlags v).g = x.g := rfl
@[simp] theorem raiseFlags_k (x : Core) (v : Conds) : (x.raiseFlags v).k = x.k := rfl
@[simp] theorem raiseFlags_d (x : Core) (v : Conds) : (x.raiseFlags v).d = x.d := rfl
@[simp] theorem raiseFlags_c (x : Core) (v : Conds) : (x.raiseFlags v).c = x.c := rfl
@[simp] theorem raiseFlags_pc (x : Core) (v : Conds) : (x.raiseFlags v).pc = x.pc := rfl
@[simp] theorem raiseFlags_ecsn (x : Core) (v : Conds) : (x.raiseFlags v).ecsn = x.ecsn := rfl
@[simp] theorem raiseFlags_level1 (x : Core) (v : Conds) : (x.raiseFlags v).level1 = x.level1 := rfl
@[simp] theorem raiseFlags_trapcause (x : Core) (v : Conds) : (x.raiseFlags v).trapcause = x.trapcause := rfl
@[simp] theorem raiseFlags_trappc (x : Core) (v : Conds) : (x.raiseFlags v).trappc = x.trappc := rfl
@[simp] theorem raiseFlags_trapq (x : Core) (v : Conds) : (x.raiseFlags v).trapq = x.trapq := rfl
@[simp] theorem raiseFlags_remain (x : Core) (v : Conds) : (x.raiseFlags v).remain = x.remain := rfl
@[simp] theorem raiseFlags_stepcfgLo (x : Core) (v : Conds) : (x.raiseFlags v).stepcfgLo = x.stepcfgLo := rfl
@[simp] theorem raiseFlags_stepcfgHi (x : Core) (v : Conds) : (x.raiseFlags v).stepcfgHi = x.stepcfgHi := rfl
@[simp] theorem raiseFlags_iter (x : Core) (v : Conds) : (x.raiseFlags v).iter = x.iter := rfl
@[simp] theorem raiseFlags_step (x : Core) (v : Conds) : (x.raiseFlags v).step = x.step := rfl
@[simp] theorem raiseFlags_doneQ (x : Core) (v : Conds) : (x.raiseFlags v).doneQ = x.doneQ := rfl
@[simp] theorem raiseFlags_doneWait (x : Core) (v : Conds) : (x.raiseFlags v).doneWait = x.doneWait := rfl
@[simp] theorem raiseFlags_sigQ (x : Core) (v : Conds) : (x.raiseFlags v).sigQ = x.sigQ := rfl
@[simp] theorem raiseFlags_ldc (x : Core) (v : Conds) : (x.raiseFlags v).ldc = x.ldc := rfl
@[simp] theorem raiseFlags_stc (x : Core) (v : Conds) : (x.raiseFlags v).stc = x.stc := rfl
@[simp] theorem raiseFlags_cpc (x : Core) (v : Conds) : (x.raiseFlags v).cpc = x.cpc := rfl
@[simp] theorem raiseFlags_toc (x : Core) (v : Conds) : (x.raiseFlags v).toc = x.toc := rfl
@[simp] theorem raiseFlags_ops (x : Core) (v : Conds) : (x.raiseFlags v).ops = x.ops := rfl
@[simp] theorem raiseFlags_opId (x : Core) (v : Conds) : (x.raiseFlags v).opId = x.opId := rfl
@[simp] theorem raiseFlags_reissue (x : Core) (v : Conds) : (x.raiseFlags v).reissue = x.reissue := rfl
@[simp] theorem raiseFlags_pending (x : Core) (v : Conds) : (x.raiseFlags v).pending = x.pending := rfl
@[simp] theorem raiseFlags_trapping (x : Core) (v : Conds) : (x.raiseFlags v).trapping = x.trapping := rfl
@[simp] theorem raiseFlags_remote (x : Core) (v : Conds) : (x.raiseFlags v).remote = x.remote := rfl
@[simp] theorem raiseFlags_barGen (x : Core) (v : Conds) : (x.raiseFlags v).barGen = x.barGen := rfl
@[simp] theorem raiseFlags_barArrived (x : Core) (v : Conds) : (x.raiseFlags v).barArrived = x.barArrived := rfl
@[simp] theorem raiseFlags_phArrived (x : Core) (v : Conds) : (x.raiseFlags v).phArrived = x.phArrived := rfl
@[simp] theorem raiseFlags_phDone (x : Core) (v : Conds) : (x.raiseFlags v).phDone = x.phDone := rfl
@[simp] theorem raiseFlags_barDone (x : Core) (v : Conds) : (x.raiseFlags v).barDone = x.barDone := rfl
@[simp] theorem raiseFlags_spargeWait (x : Core) (v : Conds) : (x.raiseFlags v).spargeWait = x.spargeWait := rfl
@[simp] theorem raiseFlags_spargeDone (x : Core) (v : Conds) : (x.raiseFlags v).spargeDone = x.spargeDone := rfl
@[simp] theorem raiseFlags_running (x : Core) (v : Conds) : (x.raiseFlags v).running = x.running := rfl
@[simp] theorem raiseFlags_halted (x : Core) (v : Conds) : (x.raiseFlags v).halted = x.halted := rfl
@[simp] theorem raiseFlags_idleSeen (x : Core) (v : Conds) : (x.raiseFlags v).idleSeen = x.idleSeen := rfl
@[simp] theorem raiseFlags_held (x : Core) (v : Conds) : (x.raiseFlags v).held = x.held := rfl
@[simp] theorem raiseFlags_tlb (x : Core) (v : Conds) : (x.raiseFlags v).tlb = x.tlb := rfl
@[simp] theorem raiseFlags_inbox (x : Core) (v : Conds) : (x.raiseFlags v).inbox = x.inbox := rfl
@[simp] theorem raiseFlags_past (x : Core) (v : Conds) : (x.raiseFlags v).past = x.past := rfl
@[simp] theorem raiseFlags_inRep (x : Core) (v : Conds) : (x.raiseFlags v).inRep = x.inRep := rfl
@[simp] theorem raiseFlags_noInt (x : Core) (v : Conds) : (x.raiseFlags v).noInt = x.noInt := rfl
@[simp] theorem raiseFlags_fenceMark (x : Core) (v : Conds) : (x.raiseFlags v).fenceMark = x.fenceMark := rfl
@[simp] theorem raiseFlags_trapOp (x : Core) (v : Conds) : (x.raiseFlags v).trapOp = x.trapOp := rfl

/-! ### A counter rises -/

@[simp] theorem bump_g (x : Core) (k : OpClass) : (x.bump k).g = x.g := by cases k <;> rfl
@[simp] theorem bump_k (x : Core) (k : OpClass) : (x.bump k).k = x.k := by cases k <;> rfl
@[simp] theorem bump_d (x : Core) (k : OpClass) : (x.bump k).d = x.d := by cases k <;> rfl
@[simp] theorem bump_c (x : Core) (k : OpClass) : (x.bump k).c = x.c := by cases k <;> rfl
@[simp] theorem bump_flags (x : Core) (k : OpClass) : (x.bump k).flags = x.flags := by cases k <;> rfl
@[simp] theorem bump_pc (x : Core) (k : OpClass) : (x.bump k).pc = x.pc := by cases k <;> rfl
@[simp] theorem bump_ecsn (x : Core) (k : OpClass) : (x.bump k).ecsn = x.ecsn := by cases k <;> rfl
@[simp] theorem bump_level1 (x : Core) (k : OpClass) : (x.bump k).level1 = x.level1 := by cases k <;> rfl
@[simp] theorem bump_trapcause (x : Core) (k : OpClass) : (x.bump k).trapcause = x.trapcause := by cases k <;> rfl
@[simp] theorem bump_trappc (x : Core) (k : OpClass) : (x.bump k).trappc = x.trappc := by cases k <;> rfl
@[simp] theorem bump_trapq (x : Core) (k : OpClass) : (x.bump k).trapq = x.trapq := by cases k <;> rfl
@[simp] theorem bump_remain (x : Core) (k : OpClass) : (x.bump k).remain = x.remain := by cases k <;> rfl
@[simp] theorem bump_stepcfgLo (x : Core) (k : OpClass) : (x.bump k).stepcfgLo = x.stepcfgLo := by cases k <;> rfl
@[simp] theorem bump_stepcfgHi (x : Core) (k : OpClass) : (x.bump k).stepcfgHi = x.stepcfgHi := by cases k <;> rfl
@[simp] theorem bump_iter (x : Core) (k : OpClass) : (x.bump k).iter = x.iter := by cases k <;> rfl
@[simp] theorem bump_step (x : Core) (k : OpClass) : (x.bump k).step = x.step := by cases k <;> rfl
@[simp] theorem bump_doneQ (x : Core) (k : OpClass) : (x.bump k).doneQ = x.doneQ := by cases k <;> rfl
@[simp] theorem bump_doneWait (x : Core) (k : OpClass) : (x.bump k).doneWait = x.doneWait := by cases k <;> rfl
@[simp] theorem bump_sigQ (x : Core) (k : OpClass) : (x.bump k).sigQ = x.sigQ := by cases k <;> rfl
@[simp] theorem bump_ops (x : Core) (k : OpClass) : (x.bump k).ops = x.ops := by cases k <;> rfl
@[simp] theorem bump_opId (x : Core) (k : OpClass) : (x.bump k).opId = x.opId := by cases k <;> rfl
@[simp] theorem bump_reissue (x : Core) (k : OpClass) : (x.bump k).reissue = x.reissue := by cases k <;> rfl
@[simp] theorem bump_pending (x : Core) (k : OpClass) : (x.bump k).pending = x.pending := by cases k <;> rfl
@[simp] theorem bump_trapping (x : Core) (k : OpClass) : (x.bump k).trapping = x.trapping := by cases k <;> rfl
@[simp] theorem bump_remote (x : Core) (k : OpClass) : (x.bump k).remote = x.remote := by cases k <;> rfl
@[simp] theorem bump_barGen (x : Core) (k : OpClass) : (x.bump k).barGen = x.barGen := by cases k <;> rfl
@[simp] theorem bump_barArrived (x : Core) (k : OpClass) : (x.bump k).barArrived = x.barArrived := by cases k <;> rfl
@[simp] theorem bump_phArrived (x : Core) (k : OpClass) : (x.bump k).phArrived = x.phArrived := by cases k <;> rfl
@[simp] theorem bump_phDone (x : Core) (k : OpClass) : (x.bump k).phDone = x.phDone := by cases k <;> rfl
@[simp] theorem bump_barDone (x : Core) (k : OpClass) : (x.bump k).barDone = x.barDone := by cases k <;> rfl
@[simp] theorem bump_spargeWait (x : Core) (k : OpClass) : (x.bump k).spargeWait = x.spargeWait := by cases k <;> rfl
@[simp] theorem bump_spargeDone (x : Core) (k : OpClass) : (x.bump k).spargeDone = x.spargeDone := by cases k <;> rfl
@[simp] theorem bump_running (x : Core) (k : OpClass) : (x.bump k).running = x.running := by cases k <;> rfl
@[simp] theorem bump_halted (x : Core) (k : OpClass) : (x.bump k).halted = x.halted := by cases k <;> rfl
@[simp] theorem bump_idleSeen (x : Core) (k : OpClass) : (x.bump k).idleSeen = x.idleSeen := by cases k <;> rfl
@[simp] theorem bump_held (x : Core) (k : OpClass) : (x.bump k).held = x.held := by cases k <;> rfl
@[simp] theorem bump_tlb (x : Core) (k : OpClass) : (x.bump k).tlb = x.tlb := by cases k <;> rfl
@[simp] theorem bump_inbox (x : Core) (k : OpClass) : (x.bump k).inbox = x.inbox := by cases k <;> rfl
@[simp] theorem bump_past (x : Core) (k : OpClass) : (x.bump k).past = x.past := by cases k <;> rfl
@[simp] theorem bump_inRep (x : Core) (k : OpClass) : (x.bump k).inRep = x.inRep := by cases k <;> rfl
@[simp] theorem bump_noInt (x : Core) (k : OpClass) : (x.bump k).noInt = x.noInt := by cases k <;> rfl
@[simp] theorem bump_fenceMark (x : Core) (k : OpClass) : (x.bump k).fenceMark = x.fenceMark := by cases k <;> rfl
@[simp] theorem bump_trapOp (x : Core) (k : OpClass) : (x.bump k).trapOp = x.trapOp := by cases k <;> rfl

/-! ### A counter falls -/

@[simp] theorem drop_g (x : Core) (k : OpClass) : (x.drop k).g = x.g := by cases k <;> rfl
@[simp] theorem drop_k (x : Core) (k : OpClass) : (x.drop k).k = x.k := by cases k <;> rfl
@[simp] theorem drop_d (x : Core) (k : OpClass) : (x.drop k).d = x.d := by cases k <;> rfl
@[simp] theorem drop_c (x : Core) (k : OpClass) : (x.drop k).c = x.c := by cases k <;> rfl
@[simp] theorem drop_flags (x : Core) (k : OpClass) : (x.drop k).flags = x.flags := by cases k <;> rfl
@[simp] theorem drop_pc (x : Core) (k : OpClass) : (x.drop k).pc = x.pc := by cases k <;> rfl
@[simp] theorem drop_ecsn (x : Core) (k : OpClass) : (x.drop k).ecsn = x.ecsn := by cases k <;> rfl
@[simp] theorem drop_level1 (x : Core) (k : OpClass) : (x.drop k).level1 = x.level1 := by cases k <;> rfl
@[simp] theorem drop_trapcause (x : Core) (k : OpClass) : (x.drop k).trapcause = x.trapcause := by cases k <;> rfl
@[simp] theorem drop_trappc (x : Core) (k : OpClass) : (x.drop k).trappc = x.trappc := by cases k <;> rfl
@[simp] theorem drop_trapq (x : Core) (k : OpClass) : (x.drop k).trapq = x.trapq := by cases k <;> rfl
@[simp] theorem drop_remain (x : Core) (k : OpClass) : (x.drop k).remain = x.remain := by cases k <;> rfl
@[simp] theorem drop_stepcfgLo (x : Core) (k : OpClass) : (x.drop k).stepcfgLo = x.stepcfgLo := by cases k <;> rfl
@[simp] theorem drop_stepcfgHi (x : Core) (k : OpClass) : (x.drop k).stepcfgHi = x.stepcfgHi := by cases k <;> rfl
@[simp] theorem drop_iter (x : Core) (k : OpClass) : (x.drop k).iter = x.iter := by cases k <;> rfl
@[simp] theorem drop_step (x : Core) (k : OpClass) : (x.drop k).step = x.step := by cases k <;> rfl
@[simp] theorem drop_doneQ (x : Core) (k : OpClass) : (x.drop k).doneQ = x.doneQ := by cases k <;> rfl
@[simp] theorem drop_doneWait (x : Core) (k : OpClass) : (x.drop k).doneWait = x.doneWait := by cases k <;> rfl
@[simp] theorem drop_sigQ (x : Core) (k : OpClass) : (x.drop k).sigQ = x.sigQ := by cases k <;> rfl
@[simp] theorem drop_ops (x : Core) (k : OpClass) : (x.drop k).ops = x.ops := by cases k <;> rfl
@[simp] theorem drop_opId (x : Core) (k : OpClass) : (x.drop k).opId = x.opId := by cases k <;> rfl
@[simp] theorem drop_reissue (x : Core) (k : OpClass) : (x.drop k).reissue = x.reissue := by cases k <;> rfl
@[simp] theorem drop_pending (x : Core) (k : OpClass) : (x.drop k).pending = x.pending := by cases k <;> rfl
@[simp] theorem drop_trapping (x : Core) (k : OpClass) : (x.drop k).trapping = x.trapping := by cases k <;> rfl
@[simp] theorem drop_remote (x : Core) (k : OpClass) : (x.drop k).remote = x.remote := by cases k <;> rfl
@[simp] theorem drop_barGen (x : Core) (k : OpClass) : (x.drop k).barGen = x.barGen := by cases k <;> rfl
@[simp] theorem drop_barArrived (x : Core) (k : OpClass) : (x.drop k).barArrived = x.barArrived := by cases k <;> rfl
@[simp] theorem drop_phArrived (x : Core) (k : OpClass) : (x.drop k).phArrived = x.phArrived := by cases k <;> rfl
@[simp] theorem drop_phDone (x : Core) (k : OpClass) : (x.drop k).phDone = x.phDone := by cases k <;> rfl
@[simp] theorem drop_barDone (x : Core) (k : OpClass) : (x.drop k).barDone = x.barDone := by cases k <;> rfl
@[simp] theorem drop_spargeWait (x : Core) (k : OpClass) : (x.drop k).spargeWait = x.spargeWait := by cases k <;> rfl
@[simp] theorem drop_spargeDone (x : Core) (k : OpClass) : (x.drop k).spargeDone = x.spargeDone := by cases k <;> rfl
@[simp] theorem drop_running (x : Core) (k : OpClass) : (x.drop k).running = x.running := by cases k <;> rfl
@[simp] theorem drop_halted (x : Core) (k : OpClass) : (x.drop k).halted = x.halted := by cases k <;> rfl
@[simp] theorem drop_idleSeen (x : Core) (k : OpClass) : (x.drop k).idleSeen = x.idleSeen := by cases k <;> rfl
@[simp] theorem drop_held (x : Core) (k : OpClass) : (x.drop k).held = x.held := by cases k <;> rfl
@[simp] theorem drop_tlb (x : Core) (k : OpClass) : (x.drop k).tlb = x.tlb := by cases k <;> rfl
@[simp] theorem drop_inbox (x : Core) (k : OpClass) : (x.drop k).inbox = x.inbox := by cases k <;> rfl
@[simp] theorem drop_past (x : Core) (k : OpClass) : (x.drop k).past = x.past := by cases k <;> rfl
@[simp] theorem drop_inRep (x : Core) (k : OpClass) : (x.drop k).inRep = x.inRep := by cases k <;> rfl
@[simp] theorem drop_noInt (x : Core) (k : OpClass) : (x.drop k).noInt = x.noInt := by cases k <;> rfl
@[simp] theorem drop_fenceMark (x : Core) (k : OpClass) : (x.drop k).fenceMark = x.fenceMark := by cases k <;> rfl
@[simp] theorem drop_trapOp (x : Core) (k : OpClass) : (x.drop k).trapOp = x.trapOp := by cases k <;> rfl

/-! ### A skid buffer is replaced -/

@[simp] theorem setBuf_core (x : District) (i l c : Nat) (b : List Held) : (x.setBuf i l c b).core = x.core := rfl
@[simp] theorem setBuf_istore (x : District) (i l c : Nat) (b : List Held) : (x.setBuf i l c b).istore = x.istore := rfl
@[simp] theorem setBuf_tileMem (x : District) (i l c : Nat) (b : List Held) : (x.setBuf i l c b).tileMem = x.tileMem := rfl
@[simp] theorem setBuf_full (x : District) (i l c : Nat) (b : List Held) : (x.setBuf i l c b).full = x.full := rfl
@[simp] theorem setBuf_pes (x : District) (i l c : Nat) (b : List Held) : (x.setBuf i l c b).pes = x.pes := rfl
@[simp] theorem setBuf_tiles (x : District) (i l c : Nat) (b : List Held) : (x.setBuf i l c b).tiles = x.tiles := rfl
@[simp] theorem setBuf_mns (x : District) (i l c : Nat) (b : List Held) : (x.setBuf i l c b).mns = x.mns := rfl
@[simp] theorem setBuf_ros (x : District) (i l c : Nat) (b : List Held) : (x.setBuf i l c b).ros = x.ros := rfl
@[simp] theorem setBuf_sels (x : District) (i l c : Nat) (b : List Held) : (x.setBuf i l c b).sels = x.sels := rfl
@[simp] theorem setBuf_mons (x : District) (i l c : Nat) (b : List Held) : (x.setBuf i l c b).mons = x.mons := rfl
@[simp] theorem setBuf_decs (x : District) (i l c : Nat) (b : List Held) : (x.setBuf i l c b).decs = x.decs := rfl
@[simp] theorem setBuf_copier (x : District) (i l c : Nat) (b : List Held) : (x.setBuf i l c b).copier = x.copier := rfl
@[simp] theorem setBuf_port (x : District) (i l c : Nat) (b : List Held) : (x.setBuf i l c b).port = x.port := rfl
@[simp] theorem setBuf_images (x : District) (i l c : Nat) (b : List Held) : (x.setBuf i l c b).images = x.images := rfl
@[simp] theorem setBuf_active (x : District) (i l c : Nat) (b : List Held) : (x.setBuf i l c b).active = x.active := rfl
@[simp] theorem setBuf_used (x : District) (i l c : Nat) (b : List Held) : (x.setBuf i l c b).used = x.used := rfl
@[simp] theorem setBuf_recon (x : District) (i l c : Nat) (b : List Held) : (x.setBuf i l c b).recon = x.recon := rfl
@[simp] theorem setBuf_owed (x : District) (i l c : Nat) (b : List Held) : (x.setBuf i l c b).owed = x.owed := rfl
@[simp] theorem setBuf_outq (x : District) (i l c : Nat) (b : List Held) : (x.setBuf i l c b).outq = x.outq := rfl
@[simp] theorem setBuf_fetching (x : District) (i l c : Nat) (b : List Held) : (x.setBuf i l c b).fetching = x.fetching := rfl
@[simp] theorem setBuf_treeHold (x : District) (i l c : Nat) (b : List Held) : (x.setBuf i l c b).treeHold = x.treeHold := rfl
@[simp] theorem setBuf_cfg (x : District) (i l c : Nat) (b : List Held) : (x.setBuf i l c b).cfg = x.cfg := rfl
@[simp] theorem setBuf_cfgHeld (x : District) (i l c : Nat) (b : List Held) : (x.setBuf i l c b).cfgHeld = x.cfgHeld := rfl
@[simp] theorem setBuf_cfgError (x : District) (i l c : Nat) (b : List Held) : (x.setBuf i l c b).cfgError = x.cfgError := rfl
@[simp] theorem setBuf_stored (x : District) (i l c : Nat) (b : List Held) : (x.setBuf i l c b).stored = x.stored := rfl
@[simp] theorem setBuf_sealed (x : District) (i l c : Nat) (b : List Held) : (x.setBuf i l c b).sealed = x.sealed := rfl
@[simp] theorem setBuf_perf (x : District) (i l c : Nat) (b : List Held) : (x.setBuf i l c b).perf = x.perf := rfl
@[simp] theorem setBuf_perfSel (x : District) (i l c : Nat) (b : List Held) : (x.setBuf i l c b).perfSel = x.perfSel := rfl
@[simp] theorem setBuf_lastArr (x : District) (i l c : Nat) (b : List Held) : (x.setBuf i l c b).lastArr = x.lastArr := rfl
@[simp] theorem setBuf_fired (x : District) (i l c : Nat) (b : List Held) : (x.setBuf i l c b).fired = x.fired := rfl
@[simp] theorem setBuf_perfAt (x : District) (i l c : Nat) (b : List Held) : (x.setBuf i l c b).perfAt = x.perfAt := rfl

/-! ### A full/empty bit changes -/

@[simp] theorem setFull_core (x : District) (o g : Nat) (f : Bool) : (x.setFull o g f).core = x.core := rfl
@[simp] theorem setFull_istore (x : District) (o g : Nat) (f : Bool) : (x.setFull o g f).istore = x.istore := rfl
@[simp] theorem setFull_tileMem (x : District) (o g : Nat) (f : Bool) : (x.setFull o g f).tileMem = x.tileMem := rfl
@[simp] theorem setFull_pes (x : District) (o g : Nat) (f : Bool) : (x.setFull o g f).pes = x.pes := rfl
@[simp] theorem setFull_tiles (x : District) (o g : Nat) (f : Bool) : (x.setFull o g f).tiles = x.tiles := rfl
@[simp] theorem setFull_mns (x : District) (o g : Nat) (f : Bool) : (x.setFull o g f).mns = x.mns := rfl
@[simp] theorem setFull_ros (x : District) (o g : Nat) (f : Bool) : (x.setFull o g f).ros = x.ros := rfl
@[simp] theorem setFull_sels (x : District) (o g : Nat) (f : Bool) : (x.setFull o g f).sels = x.sels := rfl
@[simp] theorem setFull_mons (x : District) (o g : Nat) (f : Bool) : (x.setFull o g f).mons = x.mons := rfl
@[simp] theorem setFull_decs (x : District) (o g : Nat) (f : Bool) : (x.setFull o g f).decs = x.decs := rfl
@[simp] theorem setFull_copier (x : District) (o g : Nat) (f : Bool) : (x.setFull o g f).copier = x.copier := rfl
@[simp] theorem setFull_port (x : District) (o g : Nat) (f : Bool) : (x.setFull o g f).port = x.port := rfl
@[simp] theorem setFull_images (x : District) (o g : Nat) (f : Bool) : (x.setFull o g f).images = x.images := rfl
@[simp] theorem setFull_active (x : District) (o g : Nat) (f : Bool) : (x.setFull o g f).active = x.active := rfl
@[simp] theorem setFull_used (x : District) (o g : Nat) (f : Bool) : (x.setFull o g f).used = x.used := rfl
@[simp] theorem setFull_recon (x : District) (o g : Nat) (f : Bool) : (x.setFull o g f).recon = x.recon := rfl
@[simp] theorem setFull_owed (x : District) (o g : Nat) (f : Bool) : (x.setFull o g f).owed = x.owed := rfl
@[simp] theorem setFull_skid (x : District) (o g : Nat) (f : Bool) : (x.setFull o g f).skid = x.skid := rfl
@[simp] theorem setFull_outq (x : District) (o g : Nat) (f : Bool) : (x.setFull o g f).outq = x.outq := rfl
@[simp] theorem setFull_fetching (x : District) (o g : Nat) (f : Bool) : (x.setFull o g f).fetching = x.fetching := rfl
@[simp] theorem setFull_treeHold (x : District) (o g : Nat) (f : Bool) : (x.setFull o g f).treeHold = x.treeHold := rfl
@[simp] theorem setFull_cfg (x : District) (o g : Nat) (f : Bool) : (x.setFull o g f).cfg = x.cfg := rfl
@[simp] theorem setFull_cfgHeld (x : District) (o g : Nat) (f : Bool) : (x.setFull o g f).cfgHeld = x.cfgHeld := rfl
@[simp] theorem setFull_cfgError (x : District) (o g : Nat) (f : Bool) : (x.setFull o g f).cfgError = x.cfgError := rfl
@[simp] theorem setFull_stored (x : District) (o g : Nat) (f : Bool) : (x.setFull o g f).stored = x.stored := rfl
@[simp] theorem setFull_sealed (x : District) (o g : Nat) (f : Bool) : (x.setFull o g f).sealed = x.sealed := rfl
@[simp] theorem setFull_perf (x : District) (o g : Nat) (f : Bool) : (x.setFull o g f).perf = x.perf := rfl
@[simp] theorem setFull_perfSel (x : District) (o g : Nat) (f : Bool) : (x.setFull o g f).perfSel = x.perfSel := rfl
@[simp] theorem setFull_lastArr (x : District) (o g : Nat) (f : Bool) : (x.setFull o g f).lastArr = x.lastArr := rfl
@[simp] theorem setFull_fired (x : District) (o g : Nat) (f : Bool) : (x.setFull o g f).fired = x.fired := rfl
@[simp] theorem setFull_perfAt (x : District) (o g : Nat) (f : Bool) : (x.setFull o g f).perfAt = x.perfAt := rfl

/-! ### A tile is written -/

@[simp] theorem tileWrite_core (x : District) (o a : Nat) (bs : List Byte) : (x.tileWrite o a bs).core = x.core := by unfold District.tileWrite; split <;> rfl
@[simp] theorem tileWrite_istore (x : District) (o a : Nat) (bs : List Byte) : (x.tileWrite o a bs).istore = x.istore := by unfold District.tileWrite; split <;> rfl
@[simp] theorem tileWrite_pes (x : District) (o a : Nat) (bs : List Byte) : (x.tileWrite o a bs).pes = x.pes := by unfold District.tileWrite; split <;> rfl
@[simp] theorem tileWrite_tiles (x : District) (o a : Nat) (bs : List Byte) : (x.tileWrite o a bs).tiles = x.tiles := by unfold District.tileWrite; split <;> rfl
@[simp] theorem tileWrite_mns (x : District) (o a : Nat) (bs : List Byte) : (x.tileWrite o a bs).mns = x.mns := by unfold District.tileWrite; split <;> rfl
@[simp] theorem tileWrite_ros (x : District) (o a : Nat) (bs : List Byte) : (x.tileWrite o a bs).ros = x.ros := by unfold District.tileWrite; split <;> rfl
@[simp] theorem tileWrite_sels (x : District) (o a : Nat) (bs : List Byte) : (x.tileWrite o a bs).sels = x.sels := by unfold District.tileWrite; split <;> rfl
@[simp] theorem tileWrite_mons (x : District) (o a : Nat) (bs : List Byte) : (x.tileWrite o a bs).mons = x.mons := by unfold District.tileWrite; split <;> rfl
@[simp] theorem tileWrite_decs (x : District) (o a : Nat) (bs : List Byte) : (x.tileWrite o a bs).decs = x.decs := by unfold District.tileWrite; split <;> rfl
@[simp] theorem tileWrite_copier (x : District) (o a : Nat) (bs : List Byte) : (x.tileWrite o a bs).copier = x.copier := by unfold District.tileWrite; split <;> rfl
@[simp] theorem tileWrite_port (x : District) (o a : Nat) (bs : List Byte) : (x.tileWrite o a bs).port = x.port := by unfold District.tileWrite; split <;> rfl
@[simp] theorem tileWrite_images (x : District) (o a : Nat) (bs : List Byte) : (x.tileWrite o a bs).images = x.images := by unfold District.tileWrite; split <;> rfl
@[simp] theorem tileWrite_active (x : District) (o a : Nat) (bs : List Byte) : (x.tileWrite o a bs).active = x.active := by unfold District.tileWrite; split <;> rfl
@[simp] theorem tileWrite_used (x : District) (o a : Nat) (bs : List Byte) : (x.tileWrite o a bs).used = x.used := by unfold District.tileWrite; split <;> rfl
@[simp] theorem tileWrite_recon (x : District) (o a : Nat) (bs : List Byte) : (x.tileWrite o a bs).recon = x.recon := by unfold District.tileWrite; split <;> rfl
@[simp] theorem tileWrite_owed (x : District) (o a : Nat) (bs : List Byte) : (x.tileWrite o a bs).owed = x.owed := by unfold District.tileWrite; split <;> rfl
@[simp] theorem tileWrite_skid (x : District) (o a : Nat) (bs : List Byte) : (x.tileWrite o a bs).skid = x.skid := by unfold District.tileWrite; split <;> rfl
@[simp] theorem tileWrite_outq (x : District) (o a : Nat) (bs : List Byte) : (x.tileWrite o a bs).outq = x.outq := by unfold District.tileWrite; split <;> rfl
@[simp] theorem tileWrite_fetching (x : District) (o a : Nat) (bs : List Byte) : (x.tileWrite o a bs).fetching = x.fetching := by unfold District.tileWrite; split <;> rfl
@[simp] theorem tileWrite_treeHold (x : District) (o a : Nat) (bs : List Byte) : (x.tileWrite o a bs).treeHold = x.treeHold := by unfold District.tileWrite; split <;> rfl
@[simp] theorem tileWrite_cfg (x : District) (o a : Nat) (bs : List Byte) : (x.tileWrite o a bs).cfg = x.cfg := by unfold District.tileWrite; split <;> rfl
@[simp] theorem tileWrite_cfgHeld (x : District) (o a : Nat) (bs : List Byte) : (x.tileWrite o a bs).cfgHeld = x.cfgHeld := by unfold District.tileWrite; split <;> rfl
@[simp] theorem tileWrite_cfgError (x : District) (o a : Nat) (bs : List Byte) : (x.tileWrite o a bs).cfgError = x.cfgError := by unfold District.tileWrite; split <;> rfl
@[simp] theorem tileWrite_stored (x : District) (o a : Nat) (bs : List Byte) : (x.tileWrite o a bs).stored = x.stored := by unfold District.tileWrite; split <;> rfl
@[simp] theorem tileWrite_sealed (x : District) (o a : Nat) (bs : List Byte) : (x.tileWrite o a bs).sealed = x.sealed := by unfold District.tileWrite; split <;> rfl
@[simp] theorem tileWrite_perf (x : District) (o a : Nat) (bs : List Byte) : (x.tileWrite o a bs).perf = x.perf := by unfold District.tileWrite; split <;> rfl
@[simp] theorem tileWrite_perfSel (x : District) (o a : Nat) (bs : List Byte) : (x.tileWrite o a bs).perfSel = x.perfSel := by unfold District.tileWrite; split <;> rfl
@[simp] theorem tileWrite_lastArr (x : District) (o a : Nat) (bs : List Byte) : (x.tileWrite o a bs).lastArr = x.lastArr := by unfold District.tileWrite; split <;> rfl
@[simp] theorem tileWrite_fired (x : District) (o a : Nat) (bs : List Byte) : (x.tileWrite o a bs).fired = x.fired := by unfold District.tileWrite; split <;> rfl
@[simp] theorem tileWrite_perfAt (x : District) (o a : Nat) (bs : List Byte) : (x.tileWrite o a bs).perfAt = x.perfAt := by unfold District.tileWrite; split <;> rfl

end Sys2Proof.Machine
end

