-- ==== Sys2Proof/Laws/Table.lean ====
section
/-! SUPPORT. Sparse tables and memories: reading after writing, and the canonical form that every memory operation keeps. -/

namespace Sys2Proof.Machine

variable {α : Type}

/-! ### Tables -/

@[simp] theorem tget_tset_same (k : Nat) (a : α) : ∀ t : List (Nat × α), tget k (tset k a t) = some a
  | [] => by simp [tset, tget]
  | (j, b) :: t => by
    unfold tset
    split
    · simp [tget]
    · split
      · simp [tget]
      · rename_i h; simp [tget, h, tget_tset_same k a t]

theorem tget_tset_other {k j : Nat} (h : k ≠ j) (a : α) : ∀ t : List (Nat × α), tget k (tset j a t) = tget k t
  | [] => by simp [tset, tget, h.symm]
  | (i, b) :: t => by
    unfold tset
    split
    · simp [tget, h.symm]
    · split
      · rename_i e; subst e; simp [tget, h.symm]
      · simp only [tget]; split
        · rfl
        · exact tget_tset_other h a t

theorem tget_terase_other {k j : Nat} (h : k ≠ j) : ∀ t : List (Nat × α), tget k (terase j t) = tget k t
  | [] => rfl
  | (i, b) :: t => by
    unfold terase
    split
    · rename_i e; subst e; simp [tget, h.symm, tget_terase_other h t]
    · simp only [tget]; split
      · rfl
      · exact tget_terase_other h t

@[simp] theorem tgetD_tset_same [Inhabited α] (k : Nat) (a : α) (t : List (Nat × α)) : tgetD k (tset k a t) = a := by
  simp [tgetD]

theorem tgetD_tset_other [Inhabited α] {k j : Nat} (h : k ≠ j) (a : α) (t : List (Nat × α)) :
    tgetD k (tset j a t) = tgetD k t := by simp [tgetD, tget_tset_other h]

@[simp] theorem tgetD_tmod_same [Inhabited α] (k : Nat) (f : α → α) (t : List (Nat × α)) :
    tgetD k (tmod k f t) = f (tgetD k t) := by simp [tmod]

theorem tgetD_tmod_other [Inhabited α] {k j : Nat} (h : k ≠ j) (f : α → α) (t : List (Nat × α)) :
    tgetD k (tmod j f t) = tgetD k t := by simp [tmod, tgetD_tset_other h]

@[simp] theorem tset_tset (k : Nat) (a b : α) : ∀ t : List (Nat × α), tset k a (tset k b t) = tset k a t
  | [] => by simp [tset]
  | (j, c) :: t => by
    by_cases h1 : k < j
    · simp [tset, h1]
    · by_cases h2 : j = k
      · simp [tset, h2]
      · simp [tset, h1, h2, tset_tset k a b t]

/-! ### The canonical form -/

theorem risingFrom_mono {lo hi : Nat} (h : lo ≤ hi) {l : List Nat} (r : risingFrom hi l = true) : risingFrom lo l = true := by
  cases l with
  | nil => rfl
  | cons k t => simp [risingFrom] at r ⊢; exact ⟨by omega, r.2⟩

theorem risingFrom_tset (k : Nat) (a : α) : ∀ (lo : Nat) (t : List (Nat × α)), lo ≤ k →
    risingFrom lo (t.map Prod.fst) = true → risingFrom lo ((tset k a t).map Prod.fst) = true
  | lo, [], h, _ => by simp [tset, risingFrom, h]
  | lo, (j, b) :: t, h, r => by
    simp [risingFrom] at r
    unfold tset
    split
    · rename_i hk; simp [risingFrom, h, r.2]; omega
    · split
      · rename_i e; subst e; simp [risingFrom, r.1, r.2]
      · simp [risingFrom, r.1]; exact risingFrom_tset k a (j + 1) t (by omega) r.2

theorem risingFrom_terase (k : Nat) : ∀ (lo : Nat) (t : List (Nat × α)),
    risingFrom lo (t.map Prod.fst) = true → risingFrom lo ((terase k t).map Prod.fst) = true
  | _, [], _ => rfl
  | lo, (j, b) :: t, r => by
    simp [risingFrom] at r
    unfold terase
    split
    · exact risingFrom_mono (by omega) (risingFrom_terase k (j + 1) t r.2)
    · simp [risingFrom, r.1]; exact risingFrom_terase k (j + 1) t r.2

theorem all_tset {p : Nat × α → Bool} (k : Nat) (a : α) (h : p (k, a) = true) :
    ∀ t : List (Nat × α), t.all p = true → (tset k a t).all p = true
  | [], _ => by simp [tset, h]
  | (j, b) :: t, r => by
    simp only [List.all_cons, Bool.and_eq_true] at r
    unfold tset
    split
    · simp only [List.all_cons, h, r.1, r.2, Bool.and_self]
    · split
      · simp only [List.all_cons, h, r.2, Bool.and_self]
      · simp only [List.all_cons, r.1, all_tset k a h t r.2, Bool.and_self]

theorem all_terase {p : Nat × α → Bool} (k : Nat) :
    ∀ t : List (Nat × α), t.all p = true → (terase k t).all p = true
  | [], _ => rfl
  | (j, b) :: t, r => by
    simp only [List.all_cons, Bool.and_eq_true] at r
    unfold terase
    split
    · exact all_terase k t r.2
    · simp only [List.all_cons, r.1, all_terase k t r.2, Bool.and_self]

/-- Writing a byte keeps the canonical form. -/
theorem mput_wf (a : Nat) (v : Byte) (m : Memory) (h : Memory.wf m = true) : Memory.wf (mput a v m) = true := by
  simp only [Memory.wf, Bool.and_eq_true] at h ⊢
  unfold mput
  split
  · exact ⟨risingFrom_terase a 0 m h.1, all_terase a m h.2⟩
  · rename_i hv
    exact ⟨risingFrom_tset a v 0 m (Nat.zero_le _) h.1, all_tset a v (by simpa using hv) m h.2⟩

/-- Writing bytes keeps the canonical form. -/
theorem mputs_wf : ∀ (bs : List Byte) (a : Nat) (m : Memory), Memory.wf m = true → Memory.wf (mputs a bs m) = true
  | [], _, _, h => h
  | b :: bs, a, m, h => mputs_wf bs (a + 1) (mput a b m) (mput_wf a b m h)

/-- Writing a number keeps the canonical form. -/
theorem mputN_wf (a n v : Nat) (m : Memory) (h : Memory.wf m = true) : Memory.wf (mputN a n v m) = true := mputs_wf _ a m h

/-! ### Reading after writing -/

@[simp] theorem tget_terase_same (k : Nat) : ∀ t : List (Nat × α), tget k (terase k t) = none
  | [] => rfl
  | (j, b) :: t => by
    unfold terase
    split
    · exact tget_terase_same k t
    · rename_i h; simp only [tget, h, if_false]; exact tget_terase_same k t

/-- A byte reads as it was written. -/
@[simp] theorem mget_mput_same (a : Nat) (v : Byte) (m : Memory) : mget a (mput a v m) = v := by
  unfold mput mget
  split
  · rename_i e; subst e; simp
  · simp

/-- Every other byte reads as before. -/
theorem mget_mput_other {a b : Nat} (h : b ≠ a) (v : Byte) (m : Memory) : mget b (mput a v m) = mget b m := by
  unfold mput mget
  split
  · rw [tget_terase_other h]
  · rw [tget_tset_other h]

/-- A byte outside those written reads as before. -/
theorem mget_mputs_outside : ∀ (bs : List Byte) (a b : Nat) (m : Memory), (b < a ∨ a + bs.length ≤ b) →
    mget b (mputs a bs m) = mget b m
  | [], _, _, _, _ => rfl
  | v :: bs, a, b, m, h => by
    simp only [List.length_cons] at h
    rw [mputs, mget_mputs_outside bs (a + 1) b (mput a v m) (by omega), mget_mput_other (by omega)]

end Sys2Proof.Machine
end

