-- ==== Sys2Proof/Laws/Ops.lean ====
section
/-! SUPPORT. What each shared operation over registers and cores does, said once: reading after writing, what completing an
instruction leaves, and where a trap goes. -/

namespace Sys2Proof.Machine

/-! ### Districts and cores -/

@[simp] theorem dist_setDist_same (s : State) (d : Nat) (x : District) : (s.setDist d x).dist d = x := by
  simp [State.dist, State.setDist]

theorem dist_setDist_other (s : State) {d e : Nat} (h : e ≠ d) (x : District) : (s.setDist d x).dist e = s.dist e := by
  simp [State.dist, State.setDist, tgetD_tset_other h]

@[simp] theorem dist_modDist_same (s : State) (d : Nat) (f : District → District) : (s.modDist d f).dist d = f (s.dist d) := by
  simp [State.modDist]

theorem dist_modDist_other (s : State) {d e : Nat} (h : e ≠ d) (f : District → District) :
    (s.modDist d f).dist e = s.dist e := dist_setDist_other s h _

@[simp] theorem dist_setCore_same (s : State) (c : Nat) (x : Core) :
    (s.setCore c x).dist c = { s.dist c with core := x } := by simp [State.setCore]

theorem dist_setCore_other (s : State) {c d : Nat} (h : d ≠ c) (x : Core) : (s.setCore c x).dist d = s.dist d :=
  dist_setDist_other s h _

@[simp] theorem coreOf_setCore_same (s : State) (c : Nat) (x : Core) : (s.setCore c x).coreOf c = x := by
  simp [State.coreOf]

theorem coreOf_setCore_other (s : State) {c d : Nat} (h : d ≠ c) (x : Core) : (s.setCore c x).coreOf d = s.coreOf d := by
  simp [State.coreOf, dist_setCore_other s h]

@[simp] theorem coreOf_modCore_same (s : State) (c : Nat) (f : Core → Core) : (s.modCore c f).coreOf c = f (s.coreOf c) := by
  simp [State.modCore]

theorem coreOf_modCore_other (s : State) {c d : Nat} (h : d ≠ c) (f : Core → Core) :
    (s.modCore c f).coreOf d = s.coreOf d := coreOf_setCore_other s h _

@[simp] theorem cr_setCr (s : State) (x : Core) : (s.setCr x).cr = x := by
  simp [State.cr, State.setCr, State.setCore, State.coreOf]

@[simp] theorem cr_finish (s : State) (x : Core) : (finish s x).cr = x.advance 1 := by simp [finish]

@[simp] theorem dist_setCr_same (s : State) (x : Core) : (s.setCr x).dist s.core = { s.dist s.core with core := x } := by
  simp [State.setCr]

theorem dist_setCr_other (s : State) {d : Nat} (h : d ≠ s.core) (x : Core) : (s.setCr x).dist d = s.dist d := by
  simp [State.setCr, dist_setCore_other s h]

/-- A core that is put back as it stood changes nothing that is read. -/
theorem setDist_setDist (s : State) (d : Nat) (x y : District) : (s.setDist d y).setDist d x = s.setDist d x := by
  simp [State.setDist]

/-! ### Register files -/

@[simp] theorem rdG_zero (x : Core) : x.rdG 0#5 = 0#64 := by simp [Core.rdG]

@[simp] theorem rdC_zero (x : Core) : x.rdC 0#3 = true := by simp [Core.rdC]

@[simp] theorem wrG_zero (x : Core) (v : Word) : x.wrG 0#5 v = x := by simp [Core.wrG]

@[simp] theorem wrC_zero (x : Core) (v : Bool) : x.wrC 0#3 v = x := by simp [Core.wrC]

theorem rdG_wrG (x : Core) (d i : BitVec 5) (v : Word) : (x.wrG d v).rdG i = if i = d ∧ d ≠ 0 then v else x.rdG i := by
  by_cases hd : d = 0#5
  · simp [hd]
  · by_cases hi : i = d
    · subst hi; simp [Core.rdG, Core.wrG, hd]
    · have hn : d.toNat ≠ i.toNat := fun h => hi (BitVec.eq_of_toNat_eq h).symm
      simp [Core.rdG, Core.wrG, hd, hi, Vector.getElem_set_ne, hn]

theorem rdC_wrC (x : Core) (d i : BitVec 3) (v : Bool) : (x.wrC d v).rdC i = if i = d ∧ d ≠ 0 then v else x.rdC i := by
  by_cases hd : d = 0#3
  · simp [hd]
  · by_cases hi : i = d
    · subst hi; simp [Core.rdC, Core.wrC, hd]
    · have hn : d.toNat ≠ i.toNat := fun h => hi (BitVec.eq_of_toNat_eq h).symm
      simp [Core.rdC, Core.wrC, hd, hi, Vector.getElem_set_ne, hn]

theorem rdK_wrK (x : Core) (d i : BitVec 4) (v : Cap) : (x.wrK d v).rdK i = if i = d then v else x.rdK i := by
  by_cases hi : i = d
  · subst hi; simp [Core.rdK, Core.wrK]
  · have hn : d.toNat ≠ i.toNat := fun h => hi (BitVec.eq_of_toNat_eq h).symm
    simp [Core.rdK, Core.wrK, hi, Vector.getElem_set_ne, hn]

theorem rdD_wrD (x : Core) (d i : BitVec 4) (v : Option Descriptor) : (x.wrD d v).rdD i = if i = d then v else x.rdD i := by
  by_cases hi : i = d
  · subst hi; simp [Core.rdD, Core.wrD]
  · have hn : d.toNat ≠ i.toNat := fun h => hi (BitVec.eq_of_toNat_eq h).symm
    simp [Core.rdD, Core.wrD, hi, Vector.getElem_set_ne, hn]

/-! ### Frames -/

theorem sameBytes_of_eq {s t : State} (hd : ∀ d, (t.dist d).tileMem = (s.dist d).tileMem ∧ (t.dist d).istore = (s.dist d).istore)
    (h1 : t.hbm = s.hbm) (h2 : t.host = s.host) (h3 : t.ws = s.ws) (h4 : t.sched = s.sched) (h5 : t.flash = s.flash) :
    sameBytes s t := by
  intro p
  cases p <;> simp [State.byteAt, hd, h1, h2, h3, h4, h5]

/-- Replacing a core changes nothing else. -/
theorem onlyCore_setCore (s : State) (c : Nat) (x : Core) : onlyCore c s (s.setCore c x) := by
  refine ⟨⟨rfl, fun d hd => dist_setCore_other s hd x⟩, by simp [State.coreOf], ?_⟩
  apply sameBytes_of_eq <;> try rfl
  intro d
  by_cases h : d = c
  · subst h; simp
  · simp [dist_setCore_other s h]

theorem onlyCore_setCr (s : State) (x : Core) : onlyCore s.core s (s.setCr x) := onlyCore_setCore s s.core x

/-- PC after an advance (06 R120). -/
theorem movedOn_advance {x y : Core} (n : Nat) (hp : y.pc = x.pc) (hq : y.past = x.past) : movedOn x (y.advance n) n := by
  simp only [movedOn, Core.advance, hp, hq]
  split
  · next h => exact ⟨rfl, by rw [decide_eq_false (Nat.not_le.2 h), Bool.or_false]⟩
  · next h => exact ⟨rfl, by rw [decide_eq_true (Nat.le_of_not_lt h), Bool.or_true]⟩

theorem sameRest_wrG (x : Core) (d : BitVec 5) (v : Word) (n : Nat) : sameRest x ((x.wrG d v).advance n) := by
  unfold sameRest Core.wrG Core.advance; split <;> rfl

theorem sameRest_wrGF (x : Core) (d : BitVec 5) (v : Word) (f : Conds) (n : Nat) :
    sameRest x (((x.wrG d v).raiseFlags f).advance n) := by
  unfold sameRest Core.wrG Core.advance Core.raiseFlags; split <;> rfl

theorem sameRest_wrC (x : Core) (d : BitVec 3) (v : Bool) (n : Nat) : sameRest x ((x.wrC d v).advance n) := by
  unfold sameRest Core.wrC Core.advance; split <;> rfl

theorem sameRest_wrCF (x : Core) (d : BitVec 3) (v : Bool) (f : Conds) (n : Nat) :
    sameRest x (((x.wrC d v).raiseFlags f).advance n) := by
  unfold sameRest Core.wrC Core.advance Core.raiseFlags; split <;> rfl

theorem sameRest_wrK (x : Core) (d : BitVec 4) (v : Cap) (n : Nat) : sameRest x ((x.wrK d v).advance n) := rfl

/-- An instruction that writes one general register. -/
theorem writesG_finishG (s : State) (d : BitVec 5) (v : Word) : writesG s (finishG s d v) d v 1 := by
  refine ⟨onlyCore_setCr s _, ?_, by rw [finishG, cr_finish]; exact movedOn_advance _ (by simp) (by simp), by simp [finishG], by simp [finishG],
    by simp [finishG], by rw [finishG, cr_finish]; exact sameRest_wrG _ _ _ _⟩
  intro i; rw [finishG, cr_finish]; exact rdG_wrG _ _ _ _

/-- A two-word instruction that writes one general register. -/
theorem writesG_two (s : State) (d : BitVec 5) (v : Word) : writesG s (s.setCr ((s.cr.wrG d v).advance 2)) d v 2 := by
  refine ⟨onlyCore_setCr s _, ?_, by rw [cr_setCr]; exact movedOn_advance _ (by simp) (by simp), by simp, by simp, by simp,
    by rw [cr_setCr]; exact sameRest_wrG _ _ _ _⟩
  intro i; rw [cr_setCr]; exact rdG_wrG _ _ _ _

/-- An instruction that writes an FP32 result and raises conditions. -/
theorem writesG_finishF (s : State) (d : BitVec 5) (r : W32 × Conds) :
    writesG s (finishF s d r) d (r.1.setWidth 64) 1 r.2 := by
  refine ⟨onlyCore_setCr s _, ?_, by rw [finishF, cr_finish]; exact movedOn_advance _ (by simp) (by simp),
    by simp [finishF, Core.raiseFlags], by simp [finishF, Core.raiseFlags], by simp [finishF, Core.raiseFlags],
    by rw [finishF, cr_finish]; exact sameRest_wrGF _ _ _ _ _⟩
  intro i; rw [finishF, cr_finish]; exact rdG_wrG _ _ _ _

/-- An instruction that writes one condition bit. -/
theorem writesC_finishC (s : State) (c : BitVec 3) (v : Bool) : writesC s (finishC s c v) c v := by
  refine ⟨onlyCore_setCr s _, ?_, by rw [finishC, cr_finish]; exact movedOn_advance _ (by simp) (by simp), by simp [finishC], by simp [finishC],
    by simp [finishC], by rw [finishC, cr_finish]; exact sameRest_wrC _ _ _ _⟩
  intro i; rw [finishC, cr_finish]; exact rdC_wrC _ _ _ _

/-- A relation writes one condition bit and raises its conditions. -/
theorem writesC_finishRel (s : State) (c : BitVec 3) (r : Bool × Conds) : writesC s (finishRel s c r) c r.1 r.2 := by
  refine ⟨onlyCore_setCr s _, ?_, by rw [finishRel, cr_finish]; exact movedOn_advance _ (by simp) (by simp),
    by simp [finishRel, Core.raiseFlags], by simp [finishRel, Core.raiseFlags], by simp [finishRel, Core.raiseFlags],
    by rw [finishRel, cr_finish]; exact sameRest_wrCF _ _ _ _ _⟩
  intro i; rw [finishRel, cr_finish]; exact rdC_wrC _ _ _ _

/-- An instruction that writes one capability register. -/
theorem writesK_finishK (s : State) (k : BitVec 4) (v : Cap) : writesK s (finishK s k v) k v := by
  refine ⟨onlyCore_setCr s _, ?_, by rw [finishK, cr_finish]; exact movedOn_advance _ (by simp) (by simp), by simp [finishK], by simp [finishK],
    by simp [finishK], by rw [finishK, cr_finish]; exact sameRest_wrK _ _ _ _⟩
  intro i; rw [finishK, cr_finish]; exact rdK_wrK _ _ _ _

/-- An instruction that changes nothing but PC. -/
theorem movesOn_finish (s : State) : movesOn s (finish s s.cr) :=
  ⟨onlyCore_setCr s _, by rw [cr_finish]; exact movedOn_advance _ rfl rfl, by simp [Core.advance]⟩

/-! ### Traps -/

/-- What a trap does: while ACTIVE = 1 a double trap; else the entry, or a wait for requests to settle (08 R196, R197). -/
theorem takeTrap_cases (s : State) (c : Nat) (k : Cause) :
    ((s.coreOf c).active = true ∧ takeTrap s c k = doubleTrap s c k.epc k.eecsn) ∨
    ((s.coreOf c).active = false ∧ s.mayEnter c k = true ∧ takeTrap s c k = enterTrap s c k) ∨
    ((s.coreOf c).active = false ∧ s.mayEnter c k = false ∧
      takeTrap s c k = s.modCore c fun x => { x with trapping := some k, noInt := false }) := by
  unfold takeTrap
  cases h1 : (s.coreOf c).active <;> cases h2 : s.mayEnter c k <;> simp

/-- A double trap halts the core (08 R197). -/
theorem doubleTrap_halts (s : State) (c : Nat) (pc n : BitVec 32) : ((doubleTrap s c pc n).coreOf c).halted = true := by
  unfold doubleTrap; split <;> simp [State.containAs, State.coreOf, State.dist, State.modCore, State.setCore, State.setDist]

/-- Where the acting core is that of a district, an operation of the fabric has its effect. -/
theorem onFabric_district {s : State} (h : s.core ≠ mgmtCore) (t : State) : onFabric s t = t := by simp [onFabric, h]

/-- On the management core it traps ILLEGAL (19 R349). -/
theorem onFabric_mgmt {s : State} (h : s.core = mgmtCore) (t : State) : onFabric s t = syncTrap s causeIllegal := by
  simp [onFabric, h]

/-- At level 1 a management instruction has its effect. -/
theorem onLevel1_management {s : State} (h : s.cr.level1 = true) (t : State) : onLevel1 s t = t := by simp [onLevel1, h]

/-- At level 0 it traps PRIVILEGE (06 R124). -/
theorem onLevel1_user {s : State} (h : s.cr.level1 = false) (t : State) : onLevel1 s t = syncTrap s causePrivilege := by
  simp [onLevel1, h]

/-- What a taken branch does (07 R158). -/
theorem branchTo_cases (s : State) (t : Int) (link : Bool) :
    ((0 ≤ t ∧ t < storeTop) ∧ branchTo s t link =
      s.setCr { (if link then s.cr.wrG 31 (s.cr.pc + 4) else s.cr) with pc := BitVec.ofInt 64 t }) ∨
    (¬ (0 ≤ t ∧ t < storeTop) ∧ branchTo s t link = syncTrap s causeFetchRange) := by
  unfold branchTo
  by_cases h : 0 ≤ t ∧ t < (storeTop : Int)
  · exact .inl ⟨h, by rw [if_pos h]⟩
  · exact .inr ⟨h, by rw [if_neg h]⟩

/-- What a jump does (07 R159). -/
theorem jumpTo_cases (s : State) (n : Word) (link : Option (BitVec 5)) :
    (jumpable n = true ∧ jumpTo s n link =
      s.setCr { (match link with | some d => s.cr.wrG d (s.cr.pc + 4) | none => s.cr) with pc := n }) ∨
    (jumpable n = false ∧ jumpTo s n link = syncTrap s causeFetchRange) := by
  unfold jumpTo
  cases h : jumpable n
  · exact .inr ⟨rfl, by simp⟩
  · exact .inl ⟨rfl, by cases link <;> rfl⟩

end Sys2Proof.Machine
end

