-- ==== Sys2Proof/Laws/PerInstr.lean ====
section
/-! SUPPORT. Encoding and decoding, one lemma per instruction (06 R120-R124): what the words of an instruction decode to.
The layouts first: where the fields of a word lie (06 Table K-43). -/

namespace Sys2Proof.Laws.Encoding

/-- The words that an instruction is encoded as decode to it, where its fields hold values its entry allows (06 R121-R124);
a step of the device has no words. -/
def Statement (i : Instr) : Prop :=
  match encode i with
  | [] => True
  | [w] => i.wf = true → decodeWords w none = .ok i
  | w :: v :: _ => i.wf = true → decodeWords w (some v) = .ok i

theorem above {v w s n : Nat} {x : BitVec v} {y : BitVec w} (h : w ≤ s) :
    BitVec.extractLsb' s n (x ++ y) = BitVec.extractLsb' (s - w) n x := BitVec.extractLsb'_append_eq_of_le h

theorem below {v w s n : Nat} {x : BitVec v} {y : BitVec w} (h : s + n ≤ w) :
    BitVec.extractLsb' s n (x ++ y) = BitVec.extractLsb' s n y := BitVec.extractLsb'_append_eq_of_add_le h

theorem pick_all {n : Nat} (x : BitVec n) : BitVec.extractLsb' 0 n x = x := by simp

theorem layout1 (p0 : BitVec 7) (p1 : BitVec 5) (p2 : BitVec 5) (p3 : BitVec 5) (p4 : BitVec 10) (w : W32) (hw : p0 ++ p1 ++ p2 ++ p3 ++ p4 = w) :
    fld w 31 25 = p0 ∧ fld w 9 0 = p4 ∧ fld w 24 20 = p1 ∧ fld w 19 15 = p2 ∧ fld w 14 10 = p3 :=
  ⟨(by subst hw; show BitVec.extractLsb' 25 7 _ = _; rw [above (by decide), above (by decide), above (by decide), above (by decide)]; exact pick_all _),
   (by subst hw; show BitVec.extractLsb' 0 10 _ = _; rw [below (by decide)]; exact pick_all _),
   (by subst hw; show BitVec.extractLsb' 20 5 _ = _; rw [above (by decide), above (by decide), above (by decide), below (by decide)]; exact pick_all _),
   (by subst hw; show BitVec.extractLsb' 15 5 _ = _; rw [above (by decide), above (by decide), below (by decide)]; exact pick_all _),
   (by subst hw; show BitVec.extractLsb' 10 5 _ = _; rw [above (by decide), below (by decide)]; exact pick_all _)⟩

theorem layout2 (p0 : BitVec 7) (p1 : BitVec 5) (p2 : BitVec 5) (p3 : BitVec 15) (w : W32) (hw : p0 ++ p1 ++ p2 ++ p3 = w) :
    fld w 31 25 = p0 ∧ fld w 24 20 = p1 ∧ fld w 19 15 = p2 ∧ fld w 14 0 = p3 :=
  ⟨(by subst hw; show BitVec.extractLsb' 25 7 _ = _; rw [above (by decide), above (by decide), above (by decide)]; exact pick_all _),
   (by subst hw; show BitVec.extractLsb' 20 5 _ = _; rw [above (by decide), above (by decide), below (by decide)]; exact pick_all _),
   (by subst hw; show BitVec.extractLsb' 15 5 _ = _; rw [above (by decide), below (by decide)]; exact pick_all _),
   (by subst hw; show BitVec.extractLsb' 0 15 _ = _; rw [below (by decide)]; exact pick_all _)⟩

theorem layout3 (p0 : BitVec 7) (p1 : BitVec 5) (p2 : BitVec 5) (p3 : BitVec 9) (p4 : BitVec 6) (w : W32) (hw : p0 ++ p1 ++ p2 ++ p3 ++ p4 = w) :
    fld w 31 25 = p0 ∧ fld w 14 6 = p3 ∧ fld w 24 20 = p1 ∧ fld w 19 15 = p2 ∧ fld w 5 0 = p4 :=
  ⟨(by subst hw; show BitVec.extractLsb' 25 7 _ = _; rw [above (by decide), above (by decide), above (by decide), above (by decide)]; exact pick_all _),
   (by subst hw; show BitVec.extractLsb' 6 9 _ = _; rw [above (by decide), below (by decide)]; exact pick_all _),
   (by subst hw; show BitVec.extractLsb' 20 5 _ = _; rw [above (by decide), above (by decide), above (by decide), below (by decide)]; exact pick_all _),
   (by subst hw; show BitVec.extractLsb' 15 5 _ = _; rw [above (by decide), above (by decide), below (by decide)]; exact pick_all _),
   (by subst hw; show BitVec.extractLsb' 0 6 _ = _; rw [below (by decide)]; exact pick_all _)⟩

theorem layout4 (p0 : BitVec 7) (p1 : BitVec 5) (p2 : BitVec 5) (p3 : BitVec 15) (w : W32) (hw : p0 ++ p1 ++ p2 ++ p3 = w) :
    fld w 31 25 = p0 ∧ fld w 24 20 = p1 ∧ fld w 14 0 = p3 ∧ fld w 19 15 = p2 :=
  ⟨(by subst hw; show BitVec.extractLsb' 25 7 _ = _; rw [above (by decide), above (by decide), above (by decide)]; exact pick_all _),
   (by subst hw; show BitVec.extractLsb' 20 5 _ = _; rw [above (by decide), above (by decide), below (by decide)]; exact pick_all _),
   (by subst hw; show BitVec.extractLsb' 0 15 _ = _; rw [below (by decide)]; exact pick_all _),
   (by subst hw; show BitVec.extractLsb' 15 5 _ = _; rw [above (by decide), below (by decide)]; exact pick_all _)⟩

theorem layout5 (p0 : BitVec 9) (p1 : BitVec 3) (p2 : BitVec 5) (p3 : BitVec 5) (p4 : BitVec 10) (w : W32) (hw : p0 ++ p1 ++ p2 ++ p3 ++ p4 = w) :
    fld w 31 25 = p0.extractLsb' 2 7 ∧ fld w 9 0 = p4 ∧ fld w 24 23 = p0.extractLsb' 0 2 ∧ fld w 22 20 = p1 ∧ fld w 19 15 = p2 ∧ fld w 14 10 = p3 :=
  ⟨(by subst hw; show BitVec.extractLsb' 25 7 _ = _; rw [above (by decide), above (by decide), above (by decide), above (by decide)]),
   (by subst hw; show BitVec.extractLsb' 0 10 _ = _; rw [below (by decide)]; exact pick_all _),
   (by subst hw; show BitVec.extractLsb' 23 2 _ = _; rw [above (by decide), above (by decide), above (by decide), above (by decide)]),
   (by subst hw; show BitVec.extractLsb' 20 3 _ = _; rw [above (by decide), above (by decide), above (by decide), below (by decide)]; exact pick_all _),
   (by subst hw; show BitVec.extractLsb' 15 5 _ = _; rw [above (by decide), above (by decide), below (by decide)]; exact pick_all _),
   (by subst hw; show BitVec.extractLsb' 10 5 _ = _; rw [above (by decide), below (by decide)]; exact pick_all _)⟩

theorem layout6 (p0 : BitVec 9) (p1 : BitVec 3) (p2 : BitVec 2) (p3 : BitVec 3) (p4 : BitVec 2) (p5 : BitVec 3) (p6 : BitVec 10) (w : W32) (hw : p0 ++ p1 ++ p2 ++ p3 ++ p4 ++ p5 ++ p6 = w) :
    fld w 31 25 = p0.extractLsb' 2 7 ∧ fld w 9 0 = p6 ∧ fld w 24 23 = p0.extractLsb' 0 2 ∧ fld w 19 18 = p2 ∧ fld w 14 13 = p4 ∧ fld w 22 20 = p1 ∧ fld w 17 15 = p3 ∧ fld w 12 10 = p5 :=
  ⟨(by subst hw; show BitVec.extractLsb' 25 7 _ = _; rw [above (by decide), above (by decide), above (by decide), above (by decide), above (by decide), above (by decide)]),
   (by subst hw; show BitVec.extractLsb' 0 10 _ = _; rw [below (by decide)]; exact pick_all _),
   (by subst hw; show BitVec.extractLsb' 23 2 _ = _; rw [above (by decide), above (by decide), above (by decide), above (by decide), above (by decide), above (by decide)]),
   (by subst hw; show BitVec.extractLsb' 18 2 _ = _; rw [above (by decide), above (by decide), above (by decide), above (by decide), below (by decide)]; exact pick_all _),
   (by subst hw; show BitVec.extractLsb' 13 2 _ = _; rw [above (by decide), above (by decide), below (by decide)]; exact pick_all _),
   (by subst hw; show BitVec.extractLsb' 20 3 _ = _; rw [above (by decide), above (by decide), above (by decide), above (by decide), above (by decide), below (by decide)]; exact pick_all _),
   (by subst hw; show BitVec.extractLsb' 15 3 _ = _; rw [above (by decide), above (by decide), above (by decide), below (by decide)]; exact pick_all _),
   (by subst hw; show BitVec.extractLsb' 10 3 _ = _; rw [above (by decide), below (by decide)]; exact pick_all _)⟩

theorem layout7 (p0 : BitVec 7) (p1 : BitVec 5) (p2 : BitVec 2) (p3 : BitVec 3) (p4 : BitVec 15) (w : W32) (hw : p0 ++ p1 ++ p2 ++ p3 ++ p4 = w) :
    fld w 31 25 = p0 ∧ fld w 9 0 = p4.extractLsb' 0 10 ∧ fld w 19 18 = p2 ∧ fld w 14 10 = p4.extractLsb' 10 5 ∧ fld w 24 20 = p1 ∧ fld w 17 15 = p3 :=
  ⟨(by subst hw; show BitVec.extractLsb' 25 7 _ = _; rw [above (by decide), above (by decide), above (by decide), above (by decide)]; exact pick_all _),
   (by subst hw; show BitVec.extractLsb' 0 10 _ = _; rw [below (by decide)]),
   (by subst hw; show BitVec.extractLsb' 18 2 _ = _; rw [above (by decide), above (by decide), below (by decide)]; exact pick_all _),
   (by subst hw; show BitVec.extractLsb' 10 5 _ = _; rw [below (by decide)]),
   (by subst hw; show BitVec.extractLsb' 20 5 _ = _; rw [above (by decide), above (by decide), above (by decide), below (by decide)]; exact pick_all _),
   (by subst hw; show BitVec.extractLsb' 15 3 _ = _; rw [above (by decide), below (by decide)]; exact pick_all _)⟩

theorem layout8 (p0 : BitVec 9) (p1 : BitVec 3) (p2 : BitVec 5) (p3 : BitVec 15) (w : W32) (hw : p0 ++ p1 ++ p2 ++ p3 = w) :
    fld w 31 25 = p0.extractLsb' 2 7 ∧ fld w 9 0 = p3.extractLsb' 0 10 ∧ fld w 24 23 = p0.extractLsb' 0 2 ∧ fld w 14 10 = p3.extractLsb' 10 5 ∧ fld w 22 20 = p1 ∧ fld w 19 15 = p2 :=
  ⟨(by subst hw; show BitVec.extractLsb' 25 7 _ = _; rw [above (by decide), above (by decide), above (by decide)]),
   (by subst hw; show BitVec.extractLsb' 0 10 _ = _; rw [below (by decide)]),
   (by subst hw; show BitVec.extractLsb' 23 2 _ = _; rw [above (by decide), above (by decide), above (by decide)]),
   (by subst hw; show BitVec.extractLsb' 10 5 _ = _; rw [below (by decide)]),
   (by subst hw; show BitVec.extractLsb' 20 3 _ = _; rw [above (by decide), above (by decide), below (by decide)]; exact pick_all _),
   (by subst hw; show BitVec.extractLsb' 15 5 _ = _; rw [above (by decide), below (by decide)]; exact pick_all _)⟩

theorem layout9 (p0 : BitVec 7) (p1 : BitVec 5) (p2 : BitVec 5) (p3 : BitVec 5) (p4 : BitVec 2) (p5 : BitVec 8) (w : W32) (hw : p0 ++ p1 ++ p2 ++ p3 ++ p4 ++ p5 = w) :
    fld w 31 25 = p0 ∧ fld w 6 0 = p5.extractLsb' 0 7 ∧ fld w 7 7 = p5.extractLsb' 7 1 ∧ fld w 24 20 = p1 ∧ fld w 19 15 = p2 ∧ fld w 14 10 = p3 ∧ fld w 9 8 = p4 :=
  ⟨(by subst hw; show BitVec.extractLsb' 25 7 _ = _; rw [above (by decide), above (by decide), above (by decide), above (by decide), above (by decide)]; exact pick_all _),
   (by subst hw; show BitVec.extractLsb' 0 7 _ = _; rw [below (by decide)]),
   (by subst hw; show BitVec.extractLsb' 7 1 _ = _; rw [below (by decide)]),
   (by subst hw; show BitVec.extractLsb' 20 5 _ = _; rw [above (by decide), above (by decide), above (by decide), above (by decide), below (by decide)]; exact pick_all _),
   (by subst hw; show BitVec.extractLsb' 15 5 _ = _; rw [above (by decide), above (by decide), above (by decide), below (by decide)]; exact pick_all _),
   (by subst hw; show BitVec.extractLsb' 10 5 _ = _; rw [above (by decide), above (by decide), below (by decide)]; exact pick_all _),
   (by subst hw; show BitVec.extractLsb' 8 2 _ = _; rw [above (by decide), below (by decide)]; exact pick_all _)⟩

theorem layout10 (p0 : BitVec 7) (p1 : BitVec 5) (p2 : BitVec 5) (p3 : BitVec 5) (p4 : BitVec 2) (p5 : BitVec 8) (w : W32) (hw : p0 ++ p1 ++ p2 ++ p3 ++ p4 ++ p5 = w) :
    fld w 31 25 = p0 ∧ fld w 6 0 = p5.extractLsb' 0 7 ∧ fld w 14 10 = p3 ∧ fld w 7 7 = p5.extractLsb' 7 1 ∧ fld w 24 20 = p1 ∧ fld w 19 15 = p2 ∧ fld w 9 8 = p4 :=
  ⟨(by subst hw; show BitVec.extractLsb' 25 7 _ = _; rw [above (by decide), above (by decide), above (by decide), above (by decide), above (by decide)]; exact pick_all _),
   (by subst hw; show BitVec.extractLsb' 0 7 _ = _; rw [below (by decide)]),
   (by subst hw; show BitVec.extractLsb' 10 5 _ = _; rw [above (by decide), above (by decide), below (by decide)]; exact pick_all _),
   (by subst hw; show BitVec.extractLsb' 7 1 _ = _; rw [below (by decide)]),
   (by subst hw; show BitVec.extractLsb' 20 5 _ = _; rw [above (by decide), above (by decide), above (by decide), above (by decide), below (by decide)]; exact pick_all _),
   (by subst hw; show BitVec.extractLsb' 15 5 _ = _; rw [above (by decide), above (by decide), above (by decide), below (by decide)]; exact pick_all _),
   (by subst hw; show BitVec.extractLsb' 8 2 _ = _; rw [above (by decide), below (by decide)]; exact pick_all _)⟩

theorem layout11 (p0 : BitVec 7) (p1 : BitVec 5) (p2 : BitVec 5) (p3 : BitVec 5) (p4 : BitVec 10) (w : W32) (hw : p0 ++ p1 ++ p2 ++ p3 ++ p4 = w) :
    fld w 31 25 = p0 ∧ fld w 6 0 = p4.extractLsb' 0 7 ∧ fld w 9 7 = p4.extractLsb' 7 3 ∧ fld w 24 20 = p1 ∧ fld w 19 15 = p2 ∧ fld w 14 10 = p3 :=
  ⟨(by subst hw; show BitVec.extractLsb' 25 7 _ = _; rw [above (by decide), above (by decide), above (by decide), above (by decide)]; exact pick_all _),
   (by subst hw; show BitVec.extractLsb' 0 7 _ = _; rw [below (by decide)]),
   (by subst hw; show BitVec.extractLsb' 7 3 _ = _; rw [below (by decide)]),
   (by subst hw; show BitVec.extractLsb' 20 5 _ = _; rw [above (by decide), above (by decide), above (by decide), below (by decide)]; exact pick_all _),
   (by subst hw; show BitVec.extractLsb' 15 5 _ = _; rw [above (by decide), above (by decide), below (by decide)]; exact pick_all _),
   (by subst hw; show BitVec.extractLsb' 10 5 _ = _; rw [above (by decide), below (by decide)]; exact pick_all _)⟩

theorem layout12 (p0 : BitVec 7) (p1 : BitVec 5) (p2 : BitVec 5) (p3 : BitVec 15) (w : W32) (hw : p0 ++ p1 ++ p2 ++ p3 = w) :
    fld w 31 25 = p0 ∧ fld w 6 0 = p3.extractLsb' 0 7 ∧ fld w 14 7 = p3.extractLsb' 7 8 ∧ fld w 24 20 = p1 ∧ fld w 19 15 = p2 :=
  ⟨(by subst hw; show BitVec.extractLsb' 25 7 _ = _; rw [above (by decide), above (by decide), above (by decide)]; exact pick_all _),
   (by subst hw; show BitVec.extractLsb' 0 7 _ = _; rw [below (by decide)]),
   (by subst hw; show BitVec.extractLsb' 7 8 _ = _; rw [below (by decide)]),
   (by subst hw; show BitVec.extractLsb' 20 5 _ = _; rw [above (by decide), above (by decide), below (by decide)]; exact pick_all _),
   (by subst hw; show BitVec.extractLsb' 15 5 _ = _; rw [above (by decide), below (by decide)]; exact pick_all _)⟩

theorem layout13 (p0 : BitVec 7) (p1 : BitVec 5) (p2 : BitVec 5) (p3 : BitVec 5) (p4 : BitVec 2) (p5 : BitVec 1) (p6 : BitVec 7) (w : W32) (hw : p0 ++ p1 ++ p2 ++ p3 ++ p4 ++ p5 ++ p6 = w) :
    fld w 31 25 = p0 ∧ fld w 6 0 = p6 ∧ fld w 24 20 = p1 ∧ fld w 19 15 = p2 ∧ fld w 14 10 = p3 ∧ fld w 9 8 = p4 ∧ fld w 7 7 = p5 :=
  ⟨(by subst hw; show BitVec.extractLsb' 25 7 _ = _; rw [above (by decide), above (by decide), above (by decide), above (by decide), above (by decide), above (by decide)]; exact pick_all _),
   (by subst hw; show BitVec.extractLsb' 0 7 _ = _; rw [below (by decide)]; exact pick_all _),
   (by subst hw; show BitVec.extractLsb' 20 5 _ = _; rw [above (by decide), above (by decide), above (by decide), above (by decide), above (by decide), below (by decide)]; exact pick_all _),
   (by subst hw; show BitVec.extractLsb' 15 5 _ = _; rw [above (by decide), above (by decide), above (by decide), above (by decide), below (by decide)]; exact pick_all _),
   (by subst hw; show BitVec.extractLsb' 10 5 _ = _; rw [above (by decide), above (by decide), above (by decide), below (by decide)]; exact pick_all _),
   (by subst hw; show BitVec.extractLsb' 8 2 _ = _; rw [above (by decide), above (by decide), below (by decide)]; exact pick_all _),
   (by subst hw; show BitVec.extractLsb' 7 1 _ = _; rw [above (by decide), below (by decide)]; exact pick_all _)⟩

theorem layout14 (p0 : BitVec 7) (p1 : BitVec 5) (p2 : BitVec 20) (w : W32) (hw : p0 ++ p1 ++ p2 = w) :
    fld w 31 25 = p0 ∧ fld w 6 0 = p2.extractLsb' 0 7 ∧ fld w 19 7 = p2.extractLsb' 7 13 ∧ fld w 24 20 = p1 :=
  ⟨(by subst hw; show BitVec.extractLsb' 25 7 _ = _; rw [above (by decide), above (by decide)]; exact pick_all _),
   (by subst hw; show BitVec.extractLsb' 0 7 _ = _; rw [below (by decide)]),
   (by subst hw; show BitVec.extractLsb' 7 13 _ = _; rw [below (by decide)]),
   (by subst hw; show BitVec.extractLsb' 20 5 _ = _; rw [above (by decide), below (by decide)]; exact pick_all _)⟩

theorem layout15 (p0 : BitVec 7) (p1 : BitVec 5) (p2 : BitVec 5) (p3 : BitVec 15) (w : W32) (hw : p0 ++ p1 ++ p2 ++ p3 = w) :
    fld w 31 25 = p0 ∧ fld w 9 0 = p3.extractLsb' 0 10 ∧ fld w 14 10 = p3.extractLsb' 10 5 ∧ fld w 24 20 = p1 ∧ fld w 19 15 = p2 :=
  ⟨(by subst hw; show BitVec.extractLsb' 25 7 _ = _; rw [above (by decide), above (by decide), above (by decide)]; exact pick_all _),
   (by subst hw; show BitVec.extractLsb' 0 10 _ = _; rw [below (by decide)]),
   (by subst hw; show BitVec.extractLsb' 10 5 _ = _; rw [below (by decide)]),
   (by subst hw; show BitVec.extractLsb' 20 5 _ = _; rw [above (by decide), above (by decide), below (by decide)]; exact pick_all _),
   (by subst hw; show BitVec.extractLsb' 15 5 _ = _; rw [above (by decide), below (by decide)]; exact pick_all _)⟩

theorem layout16 (p0 : BitVec 7) (p1 : BitVec 3) (p2 : BitVec 1) (p3 : BitVec 21) (w : W32) (hw : p0 ++ p1 ++ p2 ++ p3 = w) :
    fld w 31 25 = p0 ∧ fld w 24 22 = p1 ∧ fld w 21 21 = p2 ∧ fld w 20 0 = p3 :=
  ⟨(by subst hw; show BitVec.extractLsb' 25 7 _ = _; rw [above (by decide), above (by decide), above (by decide)]; exact pick_all _),
   (by subst hw; show BitVec.extractLsb' 22 3 _ = _; rw [above (by decide), above (by decide), below (by decide)]; exact pick_all _),
   (by subst hw; show BitVec.extractLsb' 21 1 _ = _; rw [above (by decide), below (by decide)]; exact pick_all _),
   (by subst hw; show BitVec.extractLsb' 0 21 _ = _; rw [below (by decide)]; exact pick_all _)⟩

theorem layout17 (p0 : BitVec 12) (p1 : BitVec 5) (p2 : BitVec 15) (w : W32) (hw : p0 ++ p1 ++ p2 = w) :
    fld w 31 25 = p0.extractLsb' 5 7 ∧ fld w 9 0 = p2.extractLsb' 0 10 ∧ fld w 24 20 = p0.extractLsb' 0 5 ∧ fld w 14 10 = p2.extractLsb' 10 5 ∧ fld w 19 15 = p1 :=
  ⟨(by subst hw; show BitVec.extractLsb' 25 7 _ = _; rw [above (by decide), above (by decide)]),
   (by subst hw; show BitVec.extractLsb' 0 10 _ = _; rw [below (by decide)]),
   (by subst hw; show BitVec.extractLsb' 20 5 _ = _; rw [above (by decide), above (by decide)]),
   (by subst hw; show BitVec.extractLsb' 10 5 _ = _; rw [below (by decide)]),
   (by subst hw; show BitVec.extractLsb' 15 5 _ = _; rw [above (by decide), below (by decide)]; exact pick_all _)⟩

theorem layout18 (p0 : BitVec 7) (p1 : BitVec 6) (p2 : BitVec 6) (p3 : BitVec 6) (p4 : BitVec 6) (p5 : BitVec 1) (w : W32) (hw : p0 ++ p1 ++ p2 ++ p3 ++ p4 ++ p5 = w) :
    fld w 31 25 = p0 ∧ fld w 0 0 = p5 ∧ fld w 24 19 = p1 ∧ fld w 18 13 = p2 ∧ fld w 12 7 = p3 ∧ fld w 6 1 = p4 :=
  ⟨(by subst hw; show BitVec.extractLsb' 25 7 _ = _; rw [above (by decide), above (by decide), above (by decide), above (by decide), above (by decide)]; exact pick_all _),
   (by subst hw; show BitVec.extractLsb' 0 1 _ = _; rw [below (by decide)]; exact pick_all _),
   (by subst hw; show BitVec.extractLsb' 19 6 _ = _; rw [above (by decide), above (by decide), above (by decide), above (by decide), below (by decide)]; exact pick_all _),
   (by subst hw; show BitVec.extractLsb' 13 6 _ = _; rw [above (by decide), above (by decide), above (by decide), below (by decide)]; exact pick_all _),
   (by subst hw; show BitVec.extractLsb' 7 6 _ = _; rw [above (by decide), above (by decide), below (by decide)]; exact pick_all _),
   (by subst hw; show BitVec.extractLsb' 1 6 _ = _; rw [above (by decide), below (by decide)]; exact pick_all _)⟩

theorem layout19 (p0 : BitVec 7) (p1 : BitVec 4) (p2 : BitVec 4) (p3 : BitVec 17) (w : W32) (hw : p0 ++ p1 ++ p2 ++ p3 = w) :
    fld w 31 25 = p0 ∧ fld w 3 0 = p3.extractLsb' 0 4 ∧ fld w 16 4 = p3.extractLsb' 4 13 ∧ fld w 24 21 = p1 ∧ fld w 20 17 = p2 :=
  ⟨(by subst hw; show BitVec.extractLsb' 25 7 _ = _; rw [above (by decide), above (by decide), above (by decide)]; exact pick_all _),
   (by subst hw; show BitVec.extractLsb' 0 4 _ = _; rw [below (by decide)]),
   (by subst hw; show BitVec.extractLsb' 4 13 _ = _; rw [below (by decide)]),
   (by subst hw; show BitVec.extractLsb' 21 4 _ = _; rw [above (by decide), above (by decide), below (by decide)]; exact pick_all _),
   (by subst hw; show BitVec.extractLsb' 17 4 _ = _; rw [above (by decide), below (by decide)]; exact pick_all _)⟩

theorem layout20 (p0 : BitVec 7) (p1 : BitVec 4) (p2 : BitVec 21) (w : W32) (hw : p0 ++ p1 ++ p2 = w) :
    fld w 31 25 = p0 ∧ fld w 3 0 = p2.extractLsb' 0 4 ∧ fld w 20 4 = p2.extractLsb' 4 17 ∧ fld w 24 21 = p1 :=
  ⟨(by subst hw; show BitVec.extractLsb' 25 7 _ = _; rw [above (by decide), above (by decide)]; exact pick_all _),
   (by subst hw; show BitVec.extractLsb' 0 4 _ = _; rw [below (by decide)]),
   (by subst hw; show BitVec.extractLsb' 4 17 _ = _; rw [below (by decide)]),
   (by subst hw; show BitVec.extractLsb' 21 4 _ = _; rw [above (by decide), below (by decide)]; exact pick_all _)⟩

theorem layout21 (p0 : BitVec 7) (p1 : BitVec 4) (p2 : BitVec 4) (p3 : BitVec 5) (p4 : BitVec 12) (w : W32) (hw : p0 ++ p1 ++ p2 ++ p3 ++ p4 = w) :
    fld w 31 25 = p0 ∧ fld w 3 0 = p4.extractLsb' 0 4 ∧ fld w 11 4 = p4.extractLsb' 4 8 ∧ fld w 24 21 = p1 ∧ fld w 20 17 = p2 ∧ fld w 16 12 = p3 :=
  ⟨(by subst hw; show BitVec.extractLsb' 25 7 _ = _; rw [above (by decide), above (by decide), above (by decide), above (by decide)]; exact pick_all _),
   (by subst hw; show BitVec.extractLsb' 0 4 _ = _; rw [below (by decide)]),
   (by subst hw; show BitVec.extractLsb' 4 8 _ = _; rw [below (by decide)]),
   (by subst hw; show BitVec.extractLsb' 21 4 _ = _; rw [above (by decide), above (by decide), above (by decide), below (by decide)]; exact pick_all _),
   (by subst hw; show BitVec.extractLsb' 17 4 _ = _; rw [above (by decide), above (by decide), below (by decide)]; exact pick_all _),
   (by subst hw; show BitVec.extractLsb' 12 5 _ = _; rw [above (by decide), below (by decide)]; exact pick_all _)⟩

theorem layout22 (p0 : BitVec 7) (p1 : BitVec 4) (p2 : BitVec 4) (p3 : BitVec 5) (p4 : BitVec 8) (p5 : BitVec 4) (w : W32) (hw : p0 ++ p1 ++ p2 ++ p3 ++ p4 ++ p5 = w) :
    fld w 31 25 = p0 ∧ fld w 3 0 = p5 ∧ fld w 16 12 = p3 ∧ fld w 24 21 = p1 ∧ fld w 20 17 = p2 ∧ fld w 11 4 = p4 :=
  ⟨(by subst hw; show BitVec.extractLsb' 25 7 _ = _; rw [above (by decide), above (by decide), above (by decide), above (by decide), above (by decide)]; exact pick_all _),
   (by subst hw; show BitVec.extractLsb' 0 4 _ = _; rw [below (by decide)]; exact pick_all _),
   (by subst hw; show BitVec.extractLsb' 12 5 _ = _; rw [above (by decide), above (by decide), below (by decide)]; exact pick_all _),
   (by subst hw; show BitVec.extractLsb' 21 4 _ = _; rw [above (by decide), above (by decide), above (by decide), above (by decide), below (by decide)]; exact pick_all _),
   (by subst hw; show BitVec.extractLsb' 17 4 _ = _; rw [above (by decide), above (by decide), above (by decide), below (by decide)]; exact pick_all _),
   (by subst hw; show BitVec.extractLsb' 4 8 _ = _; rw [above (by decide), below (by decide)]; exact pick_all _)⟩

theorem layout23 (p0 : BitVec 8) (p1 : BitVec 3) (p2 : BitVec 4) (p3 : BitVec 5) (p4 : BitVec 8) (p5 : BitVec 4) (w : W32) (hw : p0 ++ p1 ++ p2 ++ p3 ++ p4 ++ p5 = w) :
    fld w 31 25 = p0.extractLsb' 1 7 ∧ fld w 3 0 = p5 ∧ fld w 24 24 = p0.extractLsb' 0 1 ∧ fld w 23 21 = p1 ∧ fld w 20 17 = p2 ∧ fld w 16 12 = p3 ∧ fld w 11 4 = p4 :=
  ⟨(by subst hw; show BitVec.extractLsb' 25 7 _ = _; rw [above (by decide), above (by decide), above (by decide), above (by decide), above (by decide)]),
   (by subst hw; show BitVec.extractLsb' 0 4 _ = _; rw [below (by decide)]; exact pick_all _),
   (by subst hw; show BitVec.extractLsb' 24 1 _ = _; rw [above (by decide), above (by decide), above (by decide), above (by decide), above (by decide)]),
   (by subst hw; show BitVec.extractLsb' 21 3 _ = _; rw [above (by decide), above (by decide), above (by decide), above (by decide), below (by decide)]; exact pick_all _),
   (by subst hw; show BitVec.extractLsb' 17 4 _ = _; rw [above (by decide), above (by decide), above (by decide), below (by decide)]; exact pick_all _),
   (by subst hw; show BitVec.extractLsb' 12 5 _ = _; rw [above (by decide), above (by decide), below (by decide)]; exact pick_all _),
   (by subst hw; show BitVec.extractLsb' 4 8 _ = _; rw [above (by decide), below (by decide)]; exact pick_all _)⟩

theorem layout24 (p0 : BitVec 11) (p1 : BitVec 4) (p2 : BitVec 5) (p3 : BitVec 12) (w : W32) (hw : p0 ++ p1 ++ p2 ++ p3 = w) :
    fld w 31 25 = p0.extractLsb' 4 7 ∧ fld w 3 0 = p3.extractLsb' 0 4 ∧ fld w 24 21 = p0.extractLsb' 0 4 ∧ fld w 11 4 = p3.extractLsb' 4 8 ∧ fld w 20 17 = p1 ∧ fld w 16 12 = p2 :=
  ⟨(by subst hw; show BitVec.extractLsb' 25 7 _ = _; rw [above (by decide), above (by decide), above (by decide)]),
   (by subst hw; show BitVec.extractLsb' 0 4 _ = _; rw [below (by decide)]),
   (by subst hw; show BitVec.extractLsb' 21 4 _ = _; rw [above (by decide), above (by decide), above (by decide)]),
   (by subst hw; show BitVec.extractLsb' 4 8 _ = _; rw [below (by decide)]),
   (by subst hw; show BitVec.extractLsb' 17 4 _ = _; rw [above (by decide), above (by decide), below (by decide)]; exact pick_all _),
   (by subst hw; show BitVec.extractLsb' 12 5 _ = _; rw [above (by decide), below (by decide)]; exact pick_all _)⟩

theorem layout25 (p0 : BitVec 9) (p1 : BitVec 3) (p2 : BitVec 20) (w : W32) (hw : p0 ++ p1 ++ p2 = w) :
    fld w 31 25 = p0.extractLsb' 2 7 ∧ fld w 9 0 = p2.extractLsb' 0 10 ∧ fld w 24 23 = p0.extractLsb' 0 2 ∧ fld w 19 10 = p2.extractLsb' 10 10 ∧ fld w 22 20 = p1 :=
  ⟨(by subst hw; show BitVec.extractLsb' 25 7 _ = _; rw [above (by decide), above (by decide)]),
   (by subst hw; show BitVec.extractLsb' 0 10 _ = _; rw [below (by decide)]),
   (by subst hw; show BitVec.extractLsb' 23 2 _ = _; rw [above (by decide), above (by decide)]),
   (by subst hw; show BitVec.extractLsb' 10 10 _ = _; rw [below (by decide)]),
   (by subst hw; show BitVec.extractLsb' 20 3 _ = _; rw [above (by decide), below (by decide)]; exact pick_all _)⟩

theorem layout26 (p0 : BitVec 12) (p1 : BitVec 5) (p2 : BitVec 5) (p3 : BitVec 10) (w : W32) (hw : p0 ++ p1 ++ p2 ++ p3 = w) :
    fld w 31 25 = p0.extractLsb' 5 7 ∧ fld w 9 0 = p3 ∧ fld w 24 20 = p0.extractLsb' 0 5 ∧ fld w 19 15 = p1 ∧ fld w 14 10 = p2 :=
  ⟨(by subst hw; show BitVec.extractLsb' 25 7 _ = _; rw [above (by decide), above (by decide), above (by decide)]),
   (by subst hw; show BitVec.extractLsb' 0 10 _ = _; rw [below (by decide)]; exact pick_all _),
   (by subst hw; show BitVec.extractLsb' 20 5 _ = _; rw [above (by decide), above (by decide), above (by decide)]),
   (by subst hw; show BitVec.extractLsb' 15 5 _ = _; rw [above (by decide), above (by decide), below (by decide)]; exact pick_all _),
   (by subst hw; show BitVec.extractLsb' 10 5 _ = _; rw [above (by decide), below (by decide)]; exact pick_all _)⟩

theorem layout27 (p0 : BitVec 7) (p1 : BitVec 5) (p2 : BitVec 20) (w : W32) (hw : p0 ++ p1 ++ p2 = w) :
    fld w 31 25 = p0 ∧ fld w 9 0 = p2.extractLsb' 0 10 ∧ fld w 19 10 = p2.extractLsb' 10 10 ∧ fld w 24 20 = p1 :=
  ⟨(by subst hw; show BitVec.extractLsb' 25 7 _ = _; rw [above (by decide), above (by decide)]; exact pick_all _),
   (by subst hw; show BitVec.extractLsb' 0 10 _ = _; rw [below (by decide)]),
   (by subst hw; show BitVec.extractLsb' 10 10 _ = _; rw [below (by decide)]),
   (by subst hw; show BitVec.extractLsb' 20 5 _ = _; rw [above (by decide), below (by decide)]; exact pick_all _)⟩

theorem layout28 (p0 : BitVec 7) (p1 : BitVec 5) (p2 : BitVec 12) (p3 : BitVec 8) (w : W32) (hw : p0 ++ p1 ++ p2 ++ p3 = w) :
    fld w 31 25 = p0 ∧ fld w 7 0 = p3 ∧ fld w 24 20 = p1 ∧ fld w 19 8 = p2 :=
  ⟨(by subst hw; show BitVec.extractLsb' 25 7 _ = _; rw [above (by decide), above (by decide), above (by decide)]; exact pick_all _),
   (by subst hw; show BitVec.extractLsb' 0 8 _ = _; rw [below (by decide)]; exact pick_all _),
   (by subst hw; show BitVec.extractLsb' 20 5 _ = _; rw [above (by decide), above (by decide), below (by decide)]; exact pick_all _),
   (by subst hw; show BitVec.extractLsb' 8 12 _ = _; rw [above (by decide), below (by decide)]; exact pick_all _)⟩

theorem layout29 (p0 : BitVec 7) (p1 : BitVec 5) (p2 : BitVec 5) (p3 : BitVec 4) (p4 : BitVec 5) (p5 : BitVec 2) (p6 : BitVec 4) (w : W32) (hw : p0 ++ p1 ++ p2 ++ p3 ++ p4 ++ p5 ++ p6 = w) :
    fld w 31 25 = p0 ∧ fld w 10 6 = p4 ∧ fld w 24 20 = p1 ∧ fld w 19 15 = p2 ∧ fld w 14 11 = p3 ∧ fld w 5 4 = p5 ∧ fld w 3 0 = p6 :=
  ⟨(by subst hw; show BitVec.extractLsb' 25 7 _ = _; rw [above (by decide), above (by decide), above (by decide), above (by decide), above (by decide), above (by decide)]; exact pick_all _),
   (by subst hw; show BitVec.extractLsb' 6 5 _ = _; rw [above (by decide), above (by decide), below (by decide)]; exact pick_all _),
   (by subst hw; show BitVec.extractLsb' 20 5 _ = _; rw [above (by decide), above (by decide), above (by decide), above (by decide), above (by decide), below (by decide)]; exact pick_all _),
   (by subst hw; show BitVec.extractLsb' 15 5 _ = _; rw [above (by decide), above (by decide), above (by decide), above (by decide), below (by decide)]; exact pick_all _),
   (by subst hw; show BitVec.extractLsb' 11 4 _ = _; rw [above (by decide), above (by decide), above (by decide), below (by decide)]; exact pick_all _),
   (by subst hw; show BitVec.extractLsb' 4 2 _ = _; rw [above (by decide), below (by decide)]; exact pick_all _),
   (by subst hw; show BitVec.extractLsb' 0 4 _ = _; rw [below (by decide)]; exact pick_all _)⟩

theorem layout30 (p0 : BitVec 7) (p1 : BitVec 4) (p2 : BitVec 5) (p3 : BitVec 5) (p4 : BitVec 5) (p5 : BitVec 6) (w : W32) (hw : p0 ++ p1 ++ p2 ++ p3 ++ p4 ++ p5 = w) :
    fld w 31 25 = p0 ∧ fld w 20 16 = p2 ∧ fld w 24 21 = p1 ∧ fld w 15 11 = p3 ∧ fld w 5 0 = p5 ∧ fld w 10 6 = p4 :=
  ⟨(by subst hw; show BitVec.extractLsb' 25 7 _ = _; rw [above (by decide), above (by decide), above (by decide), above (by decide), above (by decide)]; exact pick_all _),
   (by subst hw; show BitVec.extractLsb' 16 5 _ = _; rw [above (by decide), above (by decide), above (by decide), below (by decide)]; exact pick_all _),
   (by subst hw; show BitVec.extractLsb' 21 4 _ = _; rw [above (by decide), above (by decide), above (by decide), above (by decide), below (by decide)]; exact pick_all _),
   (by subst hw; show BitVec.extractLsb' 11 5 _ = _; rw [above (by decide), above (by decide), below (by decide)]; exact pick_all _),
   (by subst hw; show BitVec.extractLsb' 0 6 _ = _; rw [below (by decide)]; exact pick_all _),
   (by subst hw; show BitVec.extractLsb' 6 5 _ = _; rw [above (by decide), below (by decide)]; exact pick_all _)⟩

theorem layout31 (p0 : BitVec 7) (p1 : BitVec 4) (p2 : BitVec 5) (p3 : BitVec 5) (p4 : BitVec 5) (p5 : BitVec 6) (w : W32) (hw : p0 ++ p1 ++ p2 ++ p3 ++ p4 ++ p5 = w) :
    fld w 31 25 = p0 ∧ fld w 24 21 = p1 ∧ fld w 20 16 = p2 ∧ fld w 15 11 = p3 ∧ fld w 5 0 = p5 ∧ fld w 10 6 = p4 :=
  ⟨(by subst hw; show BitVec.extractLsb' 25 7 _ = _; rw [above (by decide), above (by decide), above (by decide), above (by decide), above (by decide)]; exact pick_all _),
   (by subst hw; show BitVec.extractLsb' 21 4 _ = _; rw [above (by decide), above (by decide), above (by decide), above (by decide), below (by decide)]; exact pick_all _),
   (by subst hw; show BitVec.extractLsb' 16 5 _ = _; rw [above (by decide), above (by decide), above (by decide), below (by decide)]; exact pick_all _),
   (by subst hw; show BitVec.extractLsb' 11 5 _ = _; rw [above (by decide), above (by decide), below (by decide)]; exact pick_all _),
   (by subst hw; show BitVec.extractLsb' 0 6 _ = _; rw [below (by decide)]; exact pick_all _),
   (by subst hw; show BitVec.extractLsb' 6 5 _ = _; rw [above (by decide), below (by decide)]; exact pick_all _)⟩

theorem layout32 (p0 : BitVec 4) (p1 : BitVec 7) (p2 : BitVec 8) (p3 : BitVec 3) (p4 : BitVec 10) (w : W32) (hw : p0 ++ p1 ++ p2 ++ p3 ++ p4 = w) :
    fld w 31 28 = p0 ∧ fld w 27 21 = p1 ∧ fld w 20 13 = p2 ∧ fld w 12 10 = p3 ∧ fld w 9 0 = p4 :=
  ⟨(by subst hw; show BitVec.extractLsb' 28 4 _ = _; rw [above (by decide), above (by decide), above (by decide), above (by decide)]; exact pick_all _),
   (by subst hw; show BitVec.extractLsb' 21 7 _ = _; rw [above (by decide), above (by decide), above (by decide), below (by decide)]; exact pick_all _),
   (by subst hw; show BitVec.extractLsb' 13 8 _ = _; rw [above (by decide), above (by decide), below (by decide)]; exact pick_all _),
   (by subst hw; show BitVec.extractLsb' 10 3 _ = _; rw [above (by decide), below (by decide)]; exact pick_all _),
   (by subst hw; show BitVec.extractLsb' 0 10 _ = _; rw [below (by decide)]; exact pick_all _)⟩

theorem layout33 (p0 : BitVec 7) (p1 : BitVec 14) (p2 : BitVec 5) (p3 : BitVec 6) (w : W32) (hw : p0 ++ p1 ++ p2 ++ p3 = w) :
    fld w 31 25 = p0 ∧ fld w 24 11 = p1 ∧ fld w 5 0 = p3 ∧ fld w 10 6 = p2 :=
  ⟨(by subst hw; show BitVec.extractLsb' 25 7 _ = _; rw [above (by decide), above (by decide), above (by decide)]; exact pick_all _),
   (by subst hw; show BitVec.extractLsb' 11 14 _ = _; rw [above (by decide), above (by decide), below (by decide)]; exact pick_all _),
   (by subst hw; show BitVec.extractLsb' 0 6 _ = _; rw [below (by decide)]; exact pick_all _),
   (by subst hw; show BitVec.extractLsb' 6 5 _ = _; rw [above (by decide), below (by decide)]; exact pick_all _)⟩

theorem layout34 (p0 : BitVec 7) (p1 : BitVec 4) (p2 : BitVec 10) (p3 : BitVec 5) (p4 : BitVec 6) (w : W32) (hw : p0 ++ p1 ++ p2 ++ p3 ++ p4 = w) :
    fld w 31 25 = p0 ∧ fld w 20 11 = p2 ∧ fld w 24 21 = p1 ∧ fld w 5 0 = p4 ∧ fld w 10 6 = p3 :=
  ⟨(by subst hw; show BitVec.extractLsb' 25 7 _ = _; rw [above (by decide), above (by decide), above (by decide), above (by decide)]; exact pick_all _),
   (by subst hw; show BitVec.extractLsb' 11 10 _ = _; rw [above (by decide), above (by decide), below (by decide)]; exact pick_all _),
   (by subst hw; show BitVec.extractLsb' 21 4 _ = _; rw [above (by decide), above (by decide), above (by decide), below (by decide)]; exact pick_all _),
   (by subst hw; show BitVec.extractLsb' 0 6 _ = _; rw [below (by decide)]; exact pick_all _),
   (by subst hw; show BitVec.extractLsb' 6 5 _ = _; rw [above (by decide), below (by decide)]; exact pick_all _)⟩

theorem layout35 (p0 : BitVec 10) (p1 : BitVec 2) (p2 : BitVec 5) (p3 : BitVec 5) (p4 : BitVec 10) (w : W32) (hw : p0 ++ p1 ++ p2 ++ p3 ++ p4 = w) :
    fld w 31 25 = p0.extractLsb' 3 7 ∧ fld w 9 0 = p4 ∧ fld w 24 22 = p0.extractLsb' 0 3 ∧ fld w 21 20 = p1 ∧ fld w 19 15 = p2 ∧ fld w 14 10 = p3 :=
  ⟨(by subst hw; show BitVec.extractLsb' 25 7 _ = _; rw [above (by decide), above (by decide), above (by decide), above (by decide)]),
   (by subst hw; show BitVec.extractLsb' 0 10 _ = _; rw [below (by decide)]; exact pick_all _),
   (by subst hw; show BitVec.extractLsb' 22 3 _ = _; rw [above (by decide), above (by decide), above (by decide), above (by decide)]),
   (by subst hw; show BitVec.extractLsb' 20 2 _ = _; rw [above (by decide), above (by decide), above (by decide), below (by decide)]; exact pick_all _),
   (by subst hw; show BitVec.extractLsb' 15 5 _ = _; rw [above (by decide), above (by decide), below (by decide)]; exact pick_all _),
   (by subst hw; show BitVec.extractLsb' 10 5 _ = _; rw [above (by decide), below (by decide)]; exact pick_all _)⟩

theorem layout36 (p0 : BitVec 11) (p1 : BitVec 1) (p2 : BitVec 5) (p3 : BitVec 5) (p4 : BitVec 10) (w : W32) (hw : p0 ++ p1 ++ p2 ++ p3 ++ p4 = w) :
    fld w 31 25 = p0.extractLsb' 4 7 ∧ fld w 9 0 = p4 ∧ fld w 24 21 = p0.extractLsb' 0 4 ∧ fld w 20 20 = p1 ∧ fld w 19 15 = p2 ∧ fld w 14 10 = p3 :=
  ⟨(by subst hw; show BitVec.extractLsb' 25 7 _ = _; rw [above (by decide), above (by decide), above (by decide), above (by decide)]),
   (by subst hw; show BitVec.extractLsb' 0 10 _ = _; rw [below (by decide)]; exact pick_all _),
   (by subst hw; show BitVec.extractLsb' 21 4 _ = _; rw [above (by decide), above (by decide), above (by decide), above (by decide)]),
   (by subst hw; show BitVec.extractLsb' 20 1 _ = _; rw [above (by decide), above (by decide), above (by decide), below (by decide)]; exact pick_all _),
   (by subst hw; show BitVec.extractLsb' 15 5 _ = _; rw [above (by decide), above (by decide), below (by decide)]; exact pick_all _),
   (by subst hw; show BitVec.extractLsb' 10 5 _ = _; rw [above (by decide), below (by decide)]; exact pick_all _)⟩

theorem layout37 (p0 : BitVec 7) (p1 : BitVec 5) (p2 : BitVec 4) (p3 : BitVec 8) (p4 : BitVec 8) (w : W32) (hw : p0 ++ p1 ++ p2 ++ p3 ++ p4 = w) :
    fld w 31 25 = p0 ∧ fld w 7 0 = p4 ∧ fld w 19 16 = p2 ∧ fld w 24 20 = p1 ∧ fld w 15 8 = p3 :=
  ⟨(by subst hw; show BitVec.extractLsb' 25 7 _ = _; rw [above (by decide), above (by decide), above (by decide), above (by decide)]; exact pick_all _),
   (by subst hw; show BitVec.extractLsb' 0 8 _ = _; rw [below (by decide)]; exact pick_all _),
   (by subst hw; show BitVec.extractLsb' 16 4 _ = _; rw [above (by decide), above (by decide), below (by decide)]; exact pick_all _),
   (by subst hw; show BitVec.extractLsb' 20 5 _ = _; rw [above (by decide), above (by decide), above (by decide), below (by decide)]; exact pick_all _),
   (by subst hw; show BitVec.extractLsb' 8 8 _ = _; rw [above (by decide), below (by decide)]; exact pick_all _)⟩

theorem layout38 (p0 : BitVec 7) (p1 : BitVec 5) (p2 : BitVec 20) (w : W32) (hw : p0 ++ p1 ++ p2 = w) :
    fld w 31 25 = p0 ∧ fld w 7 0 = p2.extractLsb' 0 8 ∧ fld w 19 8 = p2.extractLsb' 8 12 ∧ fld w 24 20 = p1 :=
  ⟨(by subst hw; show BitVec.extractLsb' 25 7 _ = _; rw [above (by decide), above (by decide)]; exact pick_all _),
   (by subst hw; show BitVec.extractLsb' 0 8 _ = _; rw [below (by decide)]),
   (by subst hw; show BitVec.extractLsb' 8 12 _ = _; rw [below (by decide)]),
   (by subst hw; show BitVec.extractLsb' 20 5 _ = _; rw [above (by decide), below (by decide)]; exact pick_all _)⟩

theorem layoutSel (p0 : BitVec 7) (p1 : BitVec 5) (p2 : BitVec 5) (p3 : BitVec 5) (p4 : BitVec 7) (p5 : BitVec 3) (w : W32) (hw : p0 ++ p1 ++ p2 ++ p3 ++ p4 ++ p5 = w) :
    fld w 31 25 = p0 ∧ fld w 9 3 = p4 ∧ fld w 24 20 = p1 ∧ fld w 19 15 = p2 ∧ fld w 14 10 = p3 ∧ fld w 2 0 = p5 :=
  ⟨(by subst hw; show BitVec.extractLsb' 25 7 _ = _; rw [above (by decide), above (by decide), above (by decide), above (by decide), above (by decide)]; exact pick_all _),
   (by subst hw; show BitVec.extractLsb' 3 7 _ = _; rw [above (by decide), below (by decide)]; exact pick_all _),
   (by subst hw; show BitVec.extractLsb' 20 5 _ = _; rw [above (by decide), above (by decide), above (by decide), above (by decide), below (by decide)]; exact pick_all _),
   (by subst hw; show BitVec.extractLsb' 15 5 _ = _; rw [above (by decide), above (by decide), above (by decide), below (by decide)]; exact pick_all _),
   (by subst hw; show BitVec.extractLsb' 10 5 _ = _; rw [above (by decide), above (by decide), below (by decide)]; exact pick_all _),
   (by subst hw; show BitVec.extractLsb' 0 3 _ = _; rw [below (by decide)]; exact pick_all _)⟩

theorem aluAdd (d : BitVec 5) (a : BitVec 5) (b : BitVec 5) : Statement (.aluAdd d a b) := by
  intro h
  generalize hww : 0x1#7 ++ d ++ a ++ b ++ 0x1#10 = w
  obtain ⟨hw0, hw1, hw2, hw3, hw4⟩ := layout1 0x1#7 d a b 0x1#10 w hww
  simp [decodeWords, isAssigned, isTwoWord, decodeOne, decodeAlu, h, hw0, hw1, hw2, hw3, hw4]

theorem aluSub (d : BitVec 5) (a : BitVec 5) (b : BitVec 5) : Statement (.aluSub d a b) := by
  intro h
  generalize hww : 0x1#7 ++ d ++ a ++ b ++ 0x2#10 = w
  obtain ⟨hw0, hw1, hw2, hw3, hw4⟩ := layout1 0x1#7 d a b 0x2#10 w hww
  simp [decodeWords, isAssigned, isTwoWord, decodeOne, decodeAlu, h, hw0, hw1, hw2, hw3, hw4]

theorem aluMul (d : BitVec 5) (a : BitVec 5) (b : BitVec 5) : Statement (.aluMul d a b) := by
  intro h
  generalize hww : 0x1#7 ++ d ++ a ++ b ++ 0x3#10 = w
  obtain ⟨hw0, hw1, hw2, hw3, hw4⟩ := layout1 0x1#7 d a b 0x3#10 w hww
  simp [decodeWords, isAssigned, isTwoWord, decodeOne, decodeAlu, h, hw0, hw1, hw2, hw3, hw4]

theorem aluMulhs (d : BitVec 5) (a : BitVec 5) (b : BitVec 5) : Statement (.aluMulhs d a b) := by
  intro h
  generalize hww : 0x1#7 ++ d ++ a ++ b ++ 0x4#10 = w
  obtain ⟨hw0, hw1, hw2, hw3, hw4⟩ := layout1 0x1#7 d a b 0x4#10 w hww
  simp [decodeWords, isAssigned, isTwoWord, decodeOne, decodeAlu, h, hw0, hw1, hw2, hw3, hw4]

theorem aluMulhu (d : BitVec 5) (a : BitVec 5) (b : BitVec 5) : Statement (.aluMulhu d a b) := by
  intro h
  generalize hww : 0x1#7 ++ d ++ a ++ b ++ 0x5#10 = w
  obtain ⟨hw0, hw1, hw2, hw3, hw4⟩ := layout1 0x1#7 d a b 0x5#10 w hww
  simp [decodeWords, isAssigned, isTwoWord, decodeOne, decodeAlu, h, hw0, hw1, hw2, hw3, hw4]

theorem aluDivs (d : BitVec 5) (a : BitVec 5) (b : BitVec 5) : Statement (.aluDivs d a b) := by
  intro h
  generalize hww : 0x1#7 ++ d ++ a ++ b ++ 0x6#10 = w
  obtain ⟨hw0, hw1, hw2, hw3, hw4⟩ := layout1 0x1#7 d a b 0x6#10 w hww
  simp [decodeWords, isAssigned, isTwoWord, decodeOne, decodeAlu, h, hw0, hw1, hw2, hw3, hw4]

theorem aluDivu (d : BitVec 5) (a : BitVec 5) (b : BitVec 5) : Statement (.aluDivu d a b) := by
  intro h
  generalize hww : 0x1#7 ++ d ++ a ++ b ++ 0x7#10 = w
  obtain ⟨hw0, hw1, hw2, hw3, hw4⟩ := layout1 0x1#7 d a b 0x7#10 w hww
  simp [decodeWords, isAssigned, isTwoWord, decodeOne, decodeAlu, h, hw0, hw1, hw2, hw3, hw4]

theorem aluRems (d : BitVec 5) (a : BitVec 5) (b : BitVec 5) : Statement (.aluRems d a b) := by
  intro h
  generalize hww : 0x1#7 ++ d ++ a ++ b ++ 0x8#10 = w
  obtain ⟨hw0, hw1, hw2, hw3, hw4⟩ := layout1 0x1#7 d a b 0x8#10 w hww
  simp [decodeWords, isAssigned, isTwoWord, decodeOne, decodeAlu, h, hw0, hw1, hw2, hw3, hw4]

theorem aluRemu (d : BitVec 5) (a : BitVec 5) (b : BitVec 5) : Statement (.aluRemu d a b) := by
  intro h
  generalize hww : 0x1#7 ++ d ++ a ++ b ++ 0x9#10 = w
  obtain ⟨hw0, hw1, hw2, hw3, hw4⟩ := layout1 0x1#7 d a b 0x9#10 w hww
  simp [decodeWords, isAssigned, isTwoWord, decodeOne, decodeAlu, h, hw0, hw1, hw2, hw3, hw4]

theorem aluAnd (d : BitVec 5) (a : BitVec 5) (b : BitVec 5) : Statement (.aluAnd d a b) := by
  intro h
  generalize hww : 0x1#7 ++ d ++ a ++ b ++ 0x10#10 = w
  obtain ⟨hw0, hw1, hw2, hw3, hw4⟩ := layout1 0x1#7 d a b 0x10#10 w hww
  simp [decodeWords, isAssigned, isTwoWord, decodeOne, decodeAlu, h, hw0, hw1, hw2, hw3, hw4]

theorem aluOr (d : BitVec 5) (a : BitVec 5) (b : BitVec 5) : Statement (.aluOr d a b) := by
  intro h
  generalize hww : 0x1#7 ++ d ++ a ++ b ++ 0x11#10 = w
  obtain ⟨hw0, hw1, hw2, hw3, hw4⟩ := layout1 0x1#7 d a b 0x11#10 w hww
  simp [decodeWords, isAssigned, isTwoWord, decodeOne, decodeAlu, h, hw0, hw1, hw2, hw3, hw4]

theorem aluXor (d : BitVec 5) (a : BitVec 5) (b : BitVec 5) : Statement (.aluXor d a b) := by
  intro h
  generalize hww : 0x1#7 ++ d ++ a ++ b ++ 0x12#10 = w
  obtain ⟨hw0, hw1, hw2, hw3, hw4⟩ := layout1 0x1#7 d a b 0x12#10 w hww
  simp [decodeWords, isAssigned, isTwoWord, decodeOne, decodeAlu, h, hw0, hw1, hw2, hw3, hw4]

theorem aluAndn (d : BitVec 5) (a : BitVec 5) (b : BitVec 5) : Statement (.aluAndn d a b) := by
  intro h
  generalize hww : 0x1#7 ++ d ++ a ++ b ++ 0x13#10 = w
  obtain ⟨hw0, hw1, hw2, hw3, hw4⟩ := layout1 0x1#7 d a b 0x13#10 w hww
  simp [decodeWords, isAssigned, isTwoWord, decodeOne, decodeAlu, h, hw0, hw1, hw2, hw3, hw4]

theorem aluMin (d : BitVec 5) (a : BitVec 5) (b : BitVec 5) : Statement (.aluMin d a b) := by
  intro h
  generalize hww : 0x1#7 ++ d ++ a ++ b ++ 0x20#10 = w
  obtain ⟨hw0, hw1, hw2, hw3, hw4⟩ := layout1 0x1#7 d a b 0x20#10 w hww
  simp [decodeWords, isAssigned, isTwoWord, decodeOne, decodeAlu, h, hw0, hw1, hw2, hw3, hw4]

theorem aluMax (d : BitVec 5) (a : BitVec 5) (b : BitVec 5) : Statement (.aluMax d a b) := by
  intro h
  generalize hww : 0x1#7 ++ d ++ a ++ b ++ 0x21#10 = w
  obtain ⟨hw0, hw1, hw2, hw3, hw4⟩ := layout1 0x1#7 d a b 0x21#10 w hww
  simp [decodeWords, isAssigned, isTwoWord, decodeOne, decodeAlu, h, hw0, hw1, hw2, hw3, hw4]

theorem aluMinu (d : BitVec 5) (a : BitVec 5) (b : BitVec 5) : Statement (.aluMinu d a b) := by
  intro h
  generalize hww : 0x1#7 ++ d ++ a ++ b ++ 0x22#10 = w
  obtain ⟨hw0, hw1, hw2, hw3, hw4⟩ := layout1 0x1#7 d a b 0x22#10 w hww
  simp [decodeWords, isAssigned, isTwoWord, decodeOne, decodeAlu, h, hw0, hw1, hw2, hw3, hw4]

theorem aluMaxu (d : BitVec 5) (a : BitVec 5) (b : BitVec 5) : Statement (.aluMaxu d a b) := by
  intro h
  generalize hww : 0x1#7 ++ d ++ a ++ b ++ 0x23#10 = w
  obtain ⟨hw0, hw1, hw2, hw3, hw4⟩ := layout1 0x1#7 d a b 0x23#10 w hww
  simp [decodeWords, isAssigned, isTwoWord, decodeOne, decodeAlu, h, hw0, hw1, hw2, hw3, hw4]

theorem addi (d : BitVec 5) (a : BitVec 5) (i : BitVec 15) : Statement (.addi d a i) := by
  intro h
  generalize hww : 0x8#7 ++ d ++ a ++ i = w
  obtain ⟨hw0, hw1, hw2, hw3⟩ := layout2 0x8#7 d a i w hww
  simp [decodeWords, isAssigned, isTwoWord, decodeOne, h, hw0, hw1, hw2, hw3]

theorem andi (d : BitVec 5) (a : BitVec 5) (i : BitVec 15) : Statement (.andi d a i) := by
  intro h
  generalize hww : 0x9#7 ++ d ++ a ++ i = w
  obtain ⟨hw0, hw1, hw2, hw3⟩ := layout2 0x9#7 d a i w hww
  simp [decodeWords, isAssigned, isTwoWord, decodeOne, h, hw0, hw1, hw2, hw3]

theorem ori (d : BitVec 5) (a : BitVec 5) (i : BitVec 15) : Statement (.ori d a i) := by
  intro h
  generalize hww : 0xA#7 ++ d ++ a ++ i = w
  obtain ⟨hw0, hw1, hw2, hw3⟩ := layout2 0xA#7 d a i w hww
  simp [decodeWords, isAssigned, isTwoWord, decodeOne, h, hw0, hw1, hw2, hw3]

theorem xori (d : BitVec 5) (a : BitVec 5) (i : BitVec 15) : Statement (.xori d a i) := by
  intro h
  generalize hww : 0xB#7 ++ d ++ a ++ i = w
  obtain ⟨hw0, hw1, hw2, hw3⟩ := layout2 0xB#7 d a i w hww
  simp [decodeWords, isAssigned, isTwoWord, decodeOne, h, hw0, hw1, hw2, hw3]

theorem shli (d : BitVec 5) (a : BitVec 5) (n : BitVec 6) : Statement (.shli d a n) := by
  intro h
  generalize hww : 0xC#7 ++ d ++ a ++ 0x0#9 ++ n = w
  obtain ⟨hw0, hw1, hw2, hw3, hw4⟩ := layout3 0xC#7 d a 0x0#9 n w hww
  simp [decodeWords, isAssigned, isTwoWord, decodeOne, h, hw0, hw1, hw2, hw3, hw4]

theorem shri (d : BitVec 5) (a : BitVec 5) (n : BitVec 6) : Statement (.shri d a n) := by
  intro h
  generalize hww : 0xD#7 ++ d ++ a ++ 0x0#9 ++ n = w
  obtain ⟨hw0, hw1, hw2, hw3, hw4⟩ := layout3 0xD#7 d a 0x0#9 n w hww
  simp [decodeWords, isAssigned, isTwoWord, decodeOne, h, hw0, hw1, hw2, hw3, hw4]

theorem sari (d : BitVec 5) (a : BitVec 5) (n : BitVec 6) : Statement (.sari d a n) := by
  intro h
  generalize hww : 0xE#7 ++ d ++ a ++ 0x0#9 ++ n = w
  obtain ⟨hw0, hw1, hw2, hw3, hw4⟩ := layout3 0xE#7 d a 0x0#9 n w hww
  simp [decodeWords, isAssigned, isTwoWord, decodeOne, h, hw0, hw1, hw2, hw3, hw4]

theorem liSx (d : BitVec 5) (imm : BitVec 32) : Statement (.liSx d imm) := by
  intro h
  generalize hww : 0x06#7 ++ d ++ 0x1#5 ++ 0#15 = w
  obtain ⟨hw0, hw1, hw2, hw3⟩ := layout4 0x06#7 d 0x1#5 0#15 w hww
  simp [decodeWords, isAssigned, isTwoWord, decodeTwo, h, hw0, hw1, hw2, hw3]

theorem liZx (d : BitVec 5) (imm : BitVec 32) : Statement (.liZx d imm) := by
  intro h
  generalize hww : 0x06#7 ++ d ++ 0x2#5 ++ 0#15 = w
  obtain ⟨hw0, hw1, hw2, hw3⟩ := layout4 0x06#7 d 0x2#5 0#15 w hww
  simp [decodeWords, isAssigned, isTwoWord, decodeTwo, h, hw0, hw1, hw2, hw3]

theorem liHi (d : BitVec 5) (imm : BitVec 32) : Statement (.liHi d imm) := by
  intro h
  generalize hww : 0x06#7 ++ d ++ 0x3#5 ++ 0#15 = w
  obtain ⟨hw0, hw1, hw2, hw3⟩ := layout4 0x06#7 d 0x3#5 0#15 w hww
  simp [decodeWords, isAssigned, isTwoWord, decodeTwo, h, hw0, hw1, hw2, hw3]

theorem cmpEq (c : BitVec 3) (a : BitVec 5) (b : BitVec 5) : Statement (.cmpEq c a b) := by
  intro h
  generalize hww : 0x8#9 ++ c ++ a ++ b ++ 0x1#10 = w
  obtain ⟨hw0, hw1, hw2, hw3, hw4, hw5⟩ := layout5 0x8#9 c a b 0x1#10 w hww
  simp [decodeWords, isAssigned, isTwoWord, decodeOne, decodeCmp, h, hw0, hw1, hw2, hw3, hw4, hw5]

theorem cmpNe (c : BitVec 3) (a : BitVec 5) (b : BitVec 5) : Statement (.cmpNe c a b) := by
  intro h
  generalize hww : 0x8#9 ++ c ++ a ++ b ++ 0x2#10 = w
  obtain ⟨hw0, hw1, hw2, hw3, hw4, hw5⟩ := layout5 0x8#9 c a b 0x2#10 w hww
  simp [decodeWords, isAssigned, isTwoWord, decodeOne, decodeCmp, h, hw0, hw1, hw2, hw3, hw4, hw5]

theorem cmpLt (c : BitVec 3) (a : BitVec 5) (b : BitVec 5) : Statement (.cmpLt c a b) := by
  intro h
  generalize hww : 0x8#9 ++ c ++ a ++ b ++ 0x3#10 = w
  obtain ⟨hw0, hw1, hw2, hw3, hw4, hw5⟩ := layout5 0x8#9 c a b 0x3#10 w hww
  simp [decodeWords, isAssigned, isTwoWord, decodeOne, decodeCmp, h, hw0, hw1, hw2, hw3, hw4, hw5]

theorem cmpLtu (c : BitVec 3) (a : BitVec 5) (b : BitVec 5) : Statement (.cmpLtu c a b) := by
  intro h
  generalize hww : 0x8#9 ++ c ++ a ++ b ++ 0x4#10 = w
  obtain ⟨hw0, hw1, hw2, hw3, hw4, hw5⟩ := layout5 0x8#9 c a b 0x4#10 w hww
  simp [decodeWords, isAssigned, isTwoWord, decodeOne, decodeCmp, h, hw0, hw1, hw2, hw3, hw4, hw5]

theorem cmpLe (c : BitVec 3) (a : BitVec 5) (b : BitVec 5) : Statement (.cmpLe c a b) := by
  intro h
  generalize hww : 0x8#9 ++ c ++ a ++ b ++ 0x5#10 = w
  obtain ⟨hw0, hw1, hw2, hw3, hw4, hw5⟩ := layout5 0x8#9 c a b 0x5#10 w hww
  simp [decodeWords, isAssigned, isTwoWord, decodeOne, decodeCmp, h, hw0, hw1, hw2, hw3, hw4, hw5]

theorem cmpLeu (c : BitVec 3) (a : BitVec 5) (b : BitVec 5) : Statement (.cmpLeu c a b) := by
  intro h
  generalize hww : 0x8#9 ++ c ++ a ++ b ++ 0x6#10 = w
  obtain ⟨hw0, hw1, hw2, hw3, hw4, hw5⟩ := layout5 0x8#9 c a b 0x6#10 w hww
  simp [decodeWords, isAssigned, isTwoWord, decodeOne, decodeCmp, h, hw0, hw1, hw2, hw3, hw4, hw5]

theorem cmpFeq (c : BitVec 3) (a : BitVec 5) (b : BitVec 5) : Statement (.cmpFeq c a b) := by
  intro h
  generalize hww : 0x8#9 ++ c ++ a ++ b ++ 0x10#10 = w
  obtain ⟨hw0, hw1, hw2, hw3, hw4, hw5⟩ := layout5 0x8#9 c a b 0x10#10 w hww
  simp [decodeWords, isAssigned, isTwoWord, decodeOne, decodeCmp, h, hw0, hw1, hw2, hw3, hw4, hw5]

theorem cmpFlt (c : BitVec 3) (a : BitVec 5) (b : BitVec 5) : Statement (.cmpFlt c a b) := by
  intro h
  generalize hww : 0x8#9 ++ c ++ a ++ b ++ 0x11#10 = w
  obtain ⟨hw0, hw1, hw2, hw3, hw4, hw5⟩ := layout5 0x8#9 c a b 0x11#10 w hww
  simp [decodeWords, isAssigned, isTwoWord, decodeOne, decodeCmp, h, hw0, hw1, hw2, hw3, hw4, hw5]

theorem cmpFle (c : BitVec 3) (a : BitVec 5) (b : BitVec 5) : Statement (.cmpFle c a b) := by
  intro h
  generalize hww : 0x8#9 ++ c ++ a ++ b ++ 0x12#10 = w
  obtain ⟨hw0, hw1, hw2, hw3, hw4, hw5⟩ := layout5 0x8#9 c a b 0x12#10 w hww
  simp [decodeWords, isAssigned, isTwoWord, decodeOne, decodeCmp, h, hw0, hw1, hw2, hw3, hw4, hw5]

theorem cmpFun (c : BitVec 3) (a : BitVec 5) (b : BitVec 5) : Statement (.cmpFun c a b) := by
  intro h
  generalize hww : 0x8#9 ++ c ++ a ++ b ++ 0x13#10 = w
  obtain ⟨hw0, hw1, hw2, hw3, hw4, hw5⟩ := layout5 0x8#9 c a b 0x13#10 w hww
  simp [decodeWords, isAssigned, isTwoWord, decodeOne, decodeCmp, h, hw0, hw1, hw2, hw3, hw4, hw5]

theorem cndAnd (c : BitVec 3) (a : BitVec 3) (b : BitVec 3) : Statement (.cndAnd c a b) := by
  intro h
  generalize hww : 0x14#9 ++ c ++ 0x0#2 ++ a ++ 0x0#2 ++ b ++ 0x1#10 = w
  obtain ⟨hw0, hw1, hw2, hw3, hw4, hw5, hw6, hw7⟩ := layout6 0x14#9 c 0x0#2 a 0x0#2 b 0x1#10 w hww
  simp [decodeWords, isAssigned, isTwoWord, decodeOne, decodeCnd, h, hw0, hw1, hw2, hw3, hw4, hw5, hw6, hw7]

theorem cndOr (c : BitVec 3) (a : BitVec 3) (b : BitVec 3) : Statement (.cndOr c a b) := by
  intro h
  generalize hww : 0x14#9 ++ c ++ 0x0#2 ++ a ++ 0x0#2 ++ b ++ 0x2#10 = w
  obtain ⟨hw0, hw1, hw2, hw3, hw4, hw5, hw6, hw7⟩ := layout6 0x14#9 c 0x0#2 a 0x0#2 b 0x2#10 w hww
  simp [decodeWords, isAssigned, isTwoWord, decodeOne, decodeCnd, h, hw0, hw1, hw2, hw3, hw4, hw5, hw6, hw7]

theorem cndXor (c : BitVec 3) (a : BitVec 3) (b : BitVec 3) : Statement (.cndXor c a b) := by
  intro h
  generalize hww : 0x14#9 ++ c ++ 0x0#2 ++ a ++ 0x0#2 ++ b ++ 0x3#10 = w
  obtain ⟨hw0, hw1, hw2, hw3, hw4, hw5, hw6, hw7⟩ := layout6 0x14#9 c 0x0#2 a 0x0#2 b 0x3#10 w hww
  simp [decodeWords, isAssigned, isTwoWord, decodeOne, decodeCnd, h, hw0, hw1, hw2, hw3, hw4, hw5, hw6, hw7]

theorem cndAndn (c : BitVec 3) (a : BitVec 3) (b : BitVec 3) : Statement (.cndAndn c a b) := by
  intro h
  generalize hww : 0x14#9 ++ c ++ 0x0#2 ++ a ++ 0x0#2 ++ b ++ 0x4#10 = w
  obtain ⟨hw0, hw1, hw2, hw3, hw4, hw5, hw6, hw7⟩ := layout6 0x14#9 c 0x0#2 a 0x0#2 b 0x4#10 w hww
  simp [decodeWords, isAssigned, isTwoWord, decodeOne, decodeCnd, h, hw0, hw1, hw2, hw3, hw4, hw5, hw6, hw7]

theorem cndSetg (d : BitVec 5) (a : BitVec 3) : Statement (.cndSetg d a) := by
  intro h
  generalize hww : 0x5#7 ++ d ++ 0x0#2 ++ a ++ 0x8#15 = w
  obtain ⟨hw0, hw1, hw2, hw3, hw4, hw5⟩ := layout7 0x5#7 d 0x0#2 a 0x8#15 w hww
  simp [decodeWords, isAssigned, isTwoWord, decodeOne, decodeCnd, h, hw0, hw1, hw2, hw3, hw4, hw5]

theorem cndFromg (c : BitVec 3) (a : BitVec 5) : Statement (.cndFromg c a) := by
  intro h
  generalize hww : 0x14#9 ++ c ++ a ++ 0x9#15 = w
  obtain ⟨hw0, hw1, hw2, hw3, hw4, hw5⟩ := layout8 0x14#9 c a 0x9#15 w hww
  simp [decodeWords, isAssigned, isTwoWord, decodeOne, decodeCnd, h, hw0, hw1, hw2, hw3, hw4, hw5]

theorem cndSel (d : BitVec 5) (a : BitVec 5) (b : BitVec 5) (n : BitVec 3) : Statement (.cndSel d a b n) := by
  intro h
  generalize hww : 0x5#7 ++ d ++ a ++ b ++ 0x2#7 ++ n = w
  obtain ⟨hw0, hw1, hw2, hw3, hw4, hw5⟩ := layoutSel 0x5#7 d a b 0x2#7 n w hww
  have hn : 16 ≤ (fld w 9 0).toNat := by
    have e := congrArg BitVec.toNat hw1
    simp only [fld, BitVec.extractLsb, BitVec.extractLsb'_toNat, Nat.shiftRight_eq_div_pow] at e ⊢
    simp at e ⊢
    omega
  have hd : decodeCnd w = some (.cndSel d a b n) := by
    unfold decodeCnd
    split <;> first | omega | simp [hw1, hw2, hw3, hw4, hw5]
  simp [decodeWords, isAssigned, isTwoWord, decodeOne, hw0, hd, h]

theorem fpuAdd (d : BitVec 5) (a : BitVec 5) (b : BitVec 5) (r : BitVec 2) : Statement (.fpuAdd d a b r) := by
  intro h
  generalize hww : 0x3#7 ++ d ++ a ++ b ++ r ++ 0x1#8 = w
  obtain ⟨hw0, hw1, hw2, hw3, hw4, hw5, hw6⟩ := layout9 0x3#7 d a b r 0x1#8 w hww
  simp [decodeWords, isAssigned, isTwoWord, decodeOne, decodeFpu, h, hw0, hw1, hw2, hw3, hw4, hw5, hw6]

theorem fpuSub (d : BitVec 5) (a : BitVec 5) (b : BitVec 5) (r : BitVec 2) : Statement (.fpuSub d a b r) := by
  intro h
  generalize hww : 0x3#7 ++ d ++ a ++ b ++ r ++ 0x2#8 = w
  obtain ⟨hw0, hw1, hw2, hw3, hw4, hw5, hw6⟩ := layout9 0x3#7 d a b r 0x2#8 w hww
  simp [decodeWords, isAssigned, isTwoWord, decodeOne, decodeFpu, h, hw0, hw1, hw2, hw3, hw4, hw5, hw6]

theorem fpuMul (d : BitVec 5) (a : BitVec 5) (b : BitVec 5) (r : BitVec 2) : Statement (.fpuMul d a b r) := by
  intro h
  generalize hww : 0x3#7 ++ d ++ a ++ b ++ r ++ 0x3#8 = w
  obtain ⟨hw0, hw1, hw2, hw3, hw4, hw5, hw6⟩ := layout9 0x3#7 d a b r 0x3#8 w hww
  simp [decodeWords, isAssigned, isTwoWord, decodeOne, decodeFpu, h, hw0, hw1, hw2, hw3, hw4, hw5, hw6]

theorem fpuDiv (d : BitVec 5) (a : BitVec 5) (b : BitVec 5) (r : BitVec 2) : Statement (.fpuDiv d a b r) := by
  intro h
  generalize hww : 0x3#7 ++ d ++ a ++ b ++ r ++ 0x4#8 = w
  obtain ⟨hw0, hw1, hw2, hw3, hw4, hw5, hw6⟩ := layout9 0x3#7 d a b r 0x4#8 w hww
  simp [decodeWords, isAssigned, isTwoWord, decodeOne, decodeFpu, h, hw0, hw1, hw2, hw3, hw4, hw5, hw6]

theorem fpuSqrt (d : BitVec 5) (a : BitVec 5) (r : BitVec 2) : Statement (.fpuSqrt d a r) := by
  intro h
  generalize hww : 0x3#7 ++ d ++ a ++ 0x0#5 ++ r ++ 0x5#8 = w
  obtain ⟨hw0, hw1, hw2, hw3, hw4, hw5, hw6⟩ := layout10 0x3#7 d a 0x0#5 r 0x5#8 w hww
  simp [decodeWords, isAssigned, isTwoWord, decodeOne, decodeFpu, h, hw0, hw1, hw2, hw3, hw4, hw5, hw6]

theorem fpuFma (d : BitVec 5) (a : BitVec 5) (b : BitVec 5) (r : BitVec 2) : Statement (.fpuFma d a b r) := by
  intro h
  generalize hww : 0x3#7 ++ d ++ a ++ b ++ r ++ 0x6#8 = w
  obtain ⟨hw0, hw1, hw2, hw3, hw4, hw5, hw6⟩ := layout9 0x3#7 d a b r 0x6#8 w hww
  simp [decodeWords, isAssigned, isTwoWord, decodeOne, decodeFpu, h, hw0, hw1, hw2, hw3, hw4, hw5, hw6]

theorem fpuMin (d : BitVec 5) (a : BitVec 5) (b : BitVec 5) : Statement (.fpuMin d a b) := by
  intro h
  generalize hww : 0x3#7 ++ d ++ a ++ b ++ 0x10#10 = w
  obtain ⟨hw0, hw1, hw2, hw3, hw4, hw5⟩ := layout11 0x3#7 d a b 0x10#10 w hww
  simp [decodeWords, isAssigned, isTwoWord, decodeOne, decodeFpu, h, hw0, hw1, hw2, hw3, hw4, hw5]

theorem fpuMax (d : BitVec 5) (a : BitVec 5) (b : BitVec 5) : Statement (.fpuMax d a b) := by
  intro h
  generalize hww : 0x3#7 ++ d ++ a ++ b ++ 0x11#10 = w
  obtain ⟨hw0, hw1, hw2, hw3, hw4, hw5⟩ := layout11 0x3#7 d a b 0x11#10 w hww
  simp [decodeWords, isAssigned, isTwoWord, decodeOne, decodeFpu, h, hw0, hw1, hw2, hw3, hw4, hw5]

theorem fpuAbs (d : BitVec 5) (a : BitVec 5) : Statement (.fpuAbs d a) := by
  intro h
  generalize hww : 0x3#7 ++ d ++ a ++ 0x12#15 = w
  obtain ⟨hw0, hw1, hw2, hw3, hw4⟩ := layout12 0x3#7 d a 0x12#15 w hww
  simp [decodeWords, isAssigned, isTwoWord, decodeOne, decodeFpu, h, hw0, hw1, hw2, hw3, hw4]

theorem fpuNeg (d : BitVec 5) (a : BitVec 5) : Statement (.fpuNeg d a) := by
  intro h
  generalize hww : 0x3#7 ++ d ++ a ++ 0x13#15 = w
  obtain ⟨hw0, hw1, hw2, hw3, hw4⟩ := layout12 0x3#7 d a 0x13#15 w hww
  simp [decodeWords, isAssigned, isTwoWord, decodeOne, decodeFpu, h, hw0, hw1, hw2, hw3, hw4]

theorem fpuCvto (d : BitVec 5) (a : BitVec 5) (f : BitVec 5) (r : BitVec 2) (s : BitVec 1) : Statement (.fpuCvto d a f r s) := by
  intro h
  generalize hww : 0x3#7 ++ d ++ a ++ f ++ r ++ s ++ 0x20#7 = w
  obtain ⟨hw0, hw1, hw2, hw3, hw4, hw5, hw6⟩ := layout13 0x3#7 d a f r s 0x20#7 w hww
  simp [decodeWords, isAssigned, isTwoWord, decodeOne, decodeFpu, h, hw0, hw1, hw2, hw3, hw4, hw5, hw6]

theorem fpuCvfrom (d : BitVec 5) (a : BitVec 5) (f : BitVec 5) (r : BitVec 2) : Statement (.fpuCvfrom d a f r) := by
  intro h
  generalize hww : 0x3#7 ++ d ++ a ++ f ++ r ++ 0x21#8 = w
  obtain ⟨hw0, hw1, hw2, hw3, hw4, hw5, hw6⟩ := layout9 0x3#7 d a f r 0x21#8 w hww
  simp [decodeWords, isAssigned, isTwoWord, decodeOne, decodeFpu, h, hw0, hw1, hw2, hw3, hw4, hw5, hw6]

theorem fpuFlags (d : BitVec 5) : Statement (.fpuFlags d) := by
  intro h
  generalize hww : 0x3#7 ++ d ++ 0x30#20 = w
  obtain ⟨hw0, hw1, hw2, hw3⟩ := layout14 0x3#7 d 0x30#20 w hww
  simp [decodeWords, isAssigned, isTwoWord, decodeOne, decodeFpu, h, hw0, hw1, hw2, hw3]

theorem bitShl (d : BitVec 5) (a : BitVec 5) (b : BitVec 5) : Statement (.bitShl d a b) := by
  intro h
  generalize hww : 0x4#7 ++ d ++ a ++ b ++ 0x1#10 = w
  obtain ⟨hw0, hw1, hw2, hw3, hw4⟩ := layout1 0x4#7 d a b 0x1#10 w hww
  simp [decodeWords, isAssigned, isTwoWord, decodeOne, decodeBit, h, hw0, hw1, hw2, hw3, hw4]

theorem bitShr (d : BitVec 5) (a : BitVec 5) (b : BitVec 5) : Statement (.bitShr d a b) := by
  intro h
  generalize hww : 0x4#7 ++ d ++ a ++ b ++ 0x2#10 = w
  obtain ⟨hw0, hw1, hw2, hw3, hw4⟩ := layout1 0x4#7 d a b 0x2#10 w hww
  simp [decodeWords, isAssigned, isTwoWord, decodeOne, decodeBit, h, hw0, hw1, hw2, hw3, hw4]

theorem bitSar (d : BitVec 5) (a : BitVec 5) (b : BitVec 5) : Statement (.bitSar d a b) := by
  intro h
  generalize hww : 0x4#7 ++ d ++ a ++ b ++ 0x3#10 = w
  obtain ⟨hw0, hw1, hw2, hw3, hw4⟩ := layout1 0x4#7 d a b 0x3#10 w hww
  simp [decodeWords, isAssigned, isTwoWord, decodeOne, decodeBit, h, hw0, hw1, hw2, hw3, hw4]

theorem bitRol (d : BitVec 5) (a : BitVec 5) (b : BitVec 5) : Statement (.bitRol d a b) := by
  intro h
  generalize hww : 0x4#7 ++ d ++ a ++ b ++ 0x4#10 = w
  obtain ⟨hw0, hw1, hw2, hw3, hw4⟩ := layout1 0x4#7 d a b 0x4#10 w hww
  simp [decodeWords, isAssigned, isTwoWord, decodeOne, decodeBit, h, hw0, hw1, hw2, hw3, hw4]

theorem bitRor (d : BitVec 5) (a : BitVec 5) (b : BitVec 5) : Statement (.bitRor d a b) := by
  intro h
  generalize hww : 0x4#7 ++ d ++ a ++ b ++ 0x5#10 = w
  obtain ⟨hw0, hw1, hw2, hw3, hw4⟩ := layout1 0x4#7 d a b 0x5#10 w hww
  simp [decodeWords, isAssigned, isTwoWord, decodeOne, decodeBit, h, hw0, hw1, hw2, hw3, hw4]

theorem bitClz (d : BitVec 5) (a : BitVec 5) : Statement (.bitClz d a) := by
  intro h
  generalize hww : 0x4#7 ++ d ++ a ++ 0x10#15 = w
  obtain ⟨hw0, hw1, hw2, hw3, hw4⟩ := layout15 0x4#7 d a 0x10#15 w hww
  simp [decodeWords, isAssigned, isTwoWord, decodeOne, decodeBit, h, hw0, hw1, hw2, hw3, hw4]

theorem bitCtz (d : BitVec 5) (a : BitVec 5) : Statement (.bitCtz d a) := by
  intro h
  generalize hww : 0x4#7 ++ d ++ a ++ 0x11#15 = w
  obtain ⟨hw0, hw1, hw2, hw3, hw4⟩ := layout15 0x4#7 d a 0x11#15 w hww
  simp [decodeWords, isAssigned, isTwoWord, decodeOne, decodeBit, h, hw0, hw1, hw2, hw3, hw4]

theorem bitPopc (d : BitVec 5) (a : BitVec 5) : Statement (.bitPopc d a) := by
  intro h
  generalize hww : 0x4#7 ++ d ++ a ++ 0x12#15 = w
  obtain ⟨hw0, hw1, hw2, hw3, hw4⟩ := layout15 0x4#7 d a 0x12#15 w hww
  simp [decodeWords, isAssigned, isTwoWord, decodeOne, decodeBit, h, hw0, hw1, hw2, hw3, hw4]

theorem bitBswap (d : BitVec 5) (a : BitVec 5) : Statement (.bitBswap d a) := by
  intro h
  generalize hww : 0x4#7 ++ d ++ a ++ 0x13#15 = w
  obtain ⟨hw0, hw1, hw2, hw3, hw4⟩ := layout15 0x4#7 d a 0x13#15 w hww
  simp [decodeWords, isAssigned, isTwoWord, decodeOne, decodeBit, h, hw0, hw1, hw2, hw3, hw4]

theorem bitExtu (d : BitVec 5) (a : BitVec 5) (b : BitVec 5) : Statement (.bitExtu d a b) := by
  intro h
  generalize hww : 0x4#7 ++ d ++ a ++ b ++ 0x20#10 = w
  obtain ⟨hw0, hw1, hw2, hw3, hw4⟩ := layout1 0x4#7 d a b 0x20#10 w hww
  simp [decodeWords, isAssigned, isTwoWord, decodeOne, decodeBit, h, hw0, hw1, hw2, hw3, hw4]

theorem bitExts (d : BitVec 5) (a : BitVec 5) (b : BitVec 5) : Statement (.bitExts d a b) := by
  intro h
  generalize hww : 0x4#7 ++ d ++ a ++ b ++ 0x21#10 = w
  obtain ⟨hw0, hw1, hw2, hw3, hw4⟩ := layout1 0x4#7 d a b 0x21#10 w hww
  simp [decodeWords, isAssigned, isTwoWord, decodeOne, decodeBit, h, hw0, hw1, hw2, hw3, hw4]

theorem bitIns (d : BitVec 5) (a : BitVec 5) (b : BitVec 5) : Statement (.bitIns d a b) := by
  intro h
  generalize hww : 0x4#7 ++ d ++ a ++ b ++ 0x22#10 = w
  obtain ⟨hw0, hw1, hw2, hw3, hw4⟩ := layout1 0x4#7 d a b 0x22#10 w hww
  simp [decodeWords, isAssigned, isTwoWord, decodeOne, decodeBit, h, hw0, hw1, hw2, hw3, hw4]

theorem br (c : BitVec 3) (s : BitVec 1) (o : BitVec 21) : Statement (.br c s o) := by
  intro h
  generalize hww : 0x10#7 ++ c ++ s ++ o = w
  obtain ⟨hw0, hw1, hw2, hw3⟩ := layout16 0x10#7 c s o w hww
  simp [decodeWords, isAssigned, isTwoWord, decodeOne, h, hw0, hw1, hw2, hw3]

theorem call (c : BitVec 3) (s : BitVec 1) (o : BitVec 21) : Statement (.call c s o) := by
  intro h
  generalize hww : 0x11#7 ++ c ++ s ++ o = w
  obtain ⟨hw0, hw1, hw2, hw3⟩ := layout16 0x11#7 c s o w hww
  simp [decodeWords, isAssigned, isTwoWord, decodeOne, h, hw0, hw1, hw2, hw3]

theorem jmpJr (a : BitVec 5) : Statement (.jmpJr a) := by
  intro h
  generalize hww : 0x240#12 ++ a ++ 0x1#15 = w
  obtain ⟨hw0, hw1, hw2, hw3, hw4⟩ := layout17 0x240#12 a 0x1#15 w hww
  simp [decodeWords, isAssigned, isTwoWord, decodeOne, decodeJmp, h, hw0, hw1, hw2, hw3, hw4]

theorem jmpJalr (d : BitVec 5) (a : BitVec 5) : Statement (.jmpJalr d a) := by
  intro h
  generalize hww : 0x12#7 ++ d ++ a ++ 0x2#15 = w
  obtain ⟨hw0, hw1, hw2, hw3, hw4⟩ := layout15 0x12#7 d a 0x2#15 w hww
  simp [decodeWords, isAssigned, isTwoWord, decodeOne, decodeJmp, h, hw0, hw1, hw2, hw3, hw4]

theorem rep (n : BitVec 6) (d : BitVec 6) (a : BitVec 6) (b : BitVec 6) : Statement (.rep n d a b) := by
  intro h
  generalize hww : 0x38#7 ++ n ++ d ++ a ++ b ++ 0x0#1 = w
  obtain ⟨hw0, hw1, hw2, hw3, hw4, hw5⟩ := layout18 0x38#7 n d a b 0x0#1 w hww
  simp [decodeWords, isAssigned, isTwoWord, decodeOne, h, hw0, hw1, hw2, hw3, hw4, hw5]

theorem capMov (d : BitVec 4) (k : BitVec 4) : Statement (.capMov d k) := by
  intro h
  generalize hww : 0x20#7 ++ d ++ k ++ 0x1#17 = w
  obtain ⟨hw0, hw1, hw2, hw3, hw4⟩ := layout19 0x20#7 d k 0x1#17 w hww
  simp [decodeWords, isAssigned, isTwoWord, decodeOne, decodeCap, h, hw0, hw1, hw2, hw3, hw4]

theorem capNull (d : BitVec 4) : Statement (.capNull d) := by
  intro h
  generalize hww : 0x20#7 ++ d ++ 0x2#21 = w
  obtain ⟨hw0, hw1, hw2, hw3⟩ := layout20 0x20#7 d 0x2#21 w hww
  simp [decodeWords, isAssigned, isTwoWord, decodeOne, decodeCap, h, hw0, hw1, hw2, hw3]

theorem capBase (d : BitVec 4) (k : BitVec 4) (a : BitVec 5) : Statement (.capBase d k a) := by
  intro h
  generalize hww : 0x20#7 ++ d ++ k ++ a ++ 0x3#12 = w
  obtain ⟨hw0, hw1, hw2, hw3, hw4, hw5⟩ := layout21 0x20#7 d k a 0x3#12 w hww
  simp [decodeWords, isAssigned, isTwoWord, decodeOne, decodeCap, h, hw0, hw1, hw2, hw3, hw4, hw5]

theorem capLen (d : BitVec 4) (k : BitVec 4) (a : BitVec 5) : Statement (.capLen d k a) := by
  intro h
  generalize hww : 0x20#7 ++ d ++ k ++ a ++ 0x4#12 = w
  obtain ⟨hw0, hw1, hw2, hw3, hw4, hw5⟩ := layout21 0x20#7 d k a 0x4#12 w hww
  simp [decodeWords, isAssigned, isTwoWord, decodeOne, decodeCap, h, hw0, hw1, hw2, hw3, hw4, hw5]

theorem capAnd (d : BitVec 4) (k : BitVec 4) (r : BitVec 8) : Statement (.capAnd d k r) := by
  intro h
  generalize hww : 0x20#7 ++ d ++ k ++ 0x0#5 ++ r ++ 0x5#4 = w
  obtain ⟨hw0, hw1, hw2, hw3, hw4, hw5⟩ := layout22 0x20#7 d k 0x0#5 r 0x5#4 w hww
  simp [decodeWords, isAssigned, isTwoWord, decodeOne, decodeCap, h, hw0, hw1, hw2, hw3, hw4, hw5]

theorem capTest (c : BitVec 3) (k : BitVec 4) (a : BitVec 5) (r : BitVec 8) : Statement (.capTest c k a r) := by
  intro h
  generalize hww : 0x40#8 ++ c ++ k ++ a ++ r ++ 0x6#4 = w
  obtain ⟨hw0, hw1, hw2, hw3, hw4, hw5, hw6⟩ := layout23 0x40#8 c k a r 0x6#4 w hww
  simp [decodeWords, isAssigned, isTwoWord, decodeOne, decodeCap, h, hw0, hw1, hw2, hw3, hw4, hw5, hw6]

theorem capGbase (k : BitVec 4) (a : BitVec 5) : Statement (.capGbase k a) := by
  intro h
  generalize hww : 0x200#11 ++ k ++ a ++ 0x7#12 = w
  obtain ⟨hw0, hw1, hw2, hw3, hw4, hw5⟩ := layout24 0x200#11 k a 0x7#12 w hww
  simp [decodeWords, isAssigned, isTwoWord, decodeOne, decodeCap, h, hw0, hw1, hw2, hw3, hw4, hw5]

theorem capGlimit (k : BitVec 4) (a : BitVec 5) : Statement (.capGlimit k a) := by
  intro h
  generalize hww : 0x200#11 ++ k ++ a ++ 0x8#12 = w
  obtain ⟨hw0, hw1, hw2, hw3, hw4, hw5⟩ := layout24 0x200#11 k a 0x8#12 w hww
  simp [decodeWords, isAssigned, isTwoWord, decodeOne, decodeCap, h, hw0, hw1, hw2, hw3, hw4, hw5]

theorem capGmeta (k : BitVec 4) (a : BitVec 5) : Statement (.capGmeta k a) := by
  intro h
  generalize hww : 0x200#11 ++ k ++ a ++ 0x9#12 = w
  obtain ⟨hw0, hw1, hw2, hw3, hw4, hw5⟩ := layout24 0x200#11 k a 0x9#12 w hww
  simp [decodeWords, isAssigned, isTwoWord, decodeOne, decodeCap, h, hw0, hw1, hw2, hw3, hw4, hw5]

theorem capLd (d : BitVec 4) (k : BitVec 4) (a : BitVec 5) : Statement (.capLd d k a) := by
  intro h
  generalize hww : 0x20#7 ++ d ++ k ++ a ++ 0xA#12 = w
  obtain ⟨hw0, hw1, hw2, hw3, hw4, hw5⟩ := layout21 0x20#7 d k a 0xA#12 w hww
  simp [decodeWords, isAssigned, isTwoWord, decodeOne, decodeCap, h, hw0, hw1, hw2, hw3, hw4, hw5]

theorem capSt (d : BitVec 4) (k : BitVec 4) (a : BitVec 5) : Statement (.capSt d k a) := by
  intro h
  generalize hww : 0x20#7 ++ d ++ k ++ a ++ 0xB#12 = w
  obtain ⟨hw0, hw1, hw2, hw3, hw4, hw5⟩ := layout21 0x20#7 d k a 0xB#12 w hww
  simp [decodeWords, isAssigned, isTwoWord, decodeOne, decodeCap, h, hw0, hw1, hw2, hw3, hw4, hw5]

theorem stepBegin (a : BitVec 5) : Statement (.stepBegin a) := by
  intro h
  generalize hww : 0x600#12 ++ a ++ 0x1#15 = w
  obtain ⟨hw0, hw1, hw2, hw3, hw4⟩ := layout17 0x600#12 a 0x1#15 w hww
  simp [decodeWords, isAssigned, isTwoWord, decodeOne, decodeStep, h, hw0, hw1, hw2, hw3, hw4]

theorem stepNext (c : BitVec 3) : Statement (.stepNext c) := by
  intro h
  generalize hww : 0xC0#9 ++ c ++ 0x2#20 = w
  obtain ⟨hw0, hw1, hw2, hw3, hw4⟩ := layout25 0xC0#9 c 0x2#20 w hww
  simp [decodeWords, isAssigned, isTwoWord, decodeOne, decodeStep, h, hw0, hw1, hw2, hw3, hw4]

theorem stepDone (a : BitVec 5) : Statement (.stepDone a) := by
  intro h
  generalize hww : 0x600#12 ++ a ++ 0x4#15 = w
  obtain ⟨hw0, hw1, hw2, hw3, hw4⟩ := layout17 0x600#12 a 0x4#15 w hww
  simp [decodeWords, isAssigned, isTwoWord, decodeOne, decodeStep, h, hw0, hw1, hw2, hw3, hw4]

theorem stepSig (a : BitVec 5) (b : BitVec 5) : Statement (.stepSig a b) := by
  intro h
  generalize hww : 0x600#12 ++ a ++ b ++ 0x10#10 = w
  obtain ⟨hw0, hw1, hw2, hw3, hw4⟩ := layout26 0x600#12 a b 0x10#10 w hww
  simp [decodeWords, isAssigned, isTwoWord, decodeOne, decodeStep, h, hw0, hw1, hw2, hw3, hw4]

theorem stepRcv (d : BitVec 5) : Statement (.stepRcv d) := by
  intro h
  generalize hww : 0x30#7 ++ d ++ 0x11#20 = w
  obtain ⟨hw0, hw1, hw2, hw3⟩ := layout27 0x30#7 d 0x11#20 w hww
  simp [decodeWords, isAssigned, isTwoWord, decodeOne, decodeStep, h, hw0, hw1, hw2, hw3]

theorem sysRd (d : BitVec 5) (s : BitVec 12) : Statement (.sysRd d s) := by
  intro h
  generalize hww : 0x3C#7 ++ d ++ s ++ 0x1#8 = w
  obtain ⟨hw0, hw1, hw2, hw3⟩ := layout28 0x3C#7 d s 0x1#8 w hww
  simp [decodeWords, isAssigned, isTwoWord, decodeOne, decodeSys, h, hw0, hw1, hw2, hw3]

theorem sysWr (d : BitVec 5) (s : BitVec 12) : Statement (.sysWr d s) := by
  intro h
  generalize hww : 0x3C#7 ++ d ++ s ++ 0x2#8 = w
  obtain ⟨hw0, hw1, hw2, hw3⟩ := layout28 0x3C#7 d s 0x2#8 w hww
  simp [decodeWords, isAssigned, isTwoWord, decodeOne, decodeSys, h, hw0, hw1, hw2, hw3]

theorem memLdH (d : BitVec 5) (a : BitVec 5) (k : BitVec 4) (f : BitVec 2) (o : BitVec 4) : Statement (.memLdH d a k f o) := by
  intro h
  generalize hww : 0x18#7 ++ d ++ a ++ k ++ 0x1#5 ++ f ++ o = w
  obtain ⟨hw0, hw1, hw2, hw3, hw4, hw5, hw6⟩ := layout29 0x18#7 d a k 0x1#5 f o w hww
  simp [decodeWords, isAssigned, isTwoWord, decodeOne, decodeMem, h, hw0, hw1, hw2, hw3, hw4, hw5, hw6]

theorem memLdHs (d : BitVec 5) (a : BitVec 5) (k : BitVec 4) (f : BitVec 2) (o : BitVec 4) : Statement (.memLdHs d a k f o) := by
  intro h
  generalize hww : 0x18#7 ++ d ++ a ++ k ++ 0x2#5 ++ f ++ o = w
  obtain ⟨hw0, hw1, hw2, hw3, hw4, hw5, hw6⟩ := layout29 0x18#7 d a k 0x2#5 f o w hww
  simp [decodeWords, isAssigned, isTwoWord, decodeOne, decodeMem, h, hw0, hw1, hw2, hw3, hw4, hw5, hw6]

theorem memLdW (d : BitVec 5) (a : BitVec 5) (k : BitVec 4) (f : BitVec 2) (o : BitVec 4) : Statement (.memLdW d a k f o) := by
  intro h
  generalize hww : 0x18#7 ++ d ++ a ++ k ++ 0x3#5 ++ f ++ o = w
  obtain ⟨hw0, hw1, hw2, hw3, hw4, hw5, hw6⟩ := layout29 0x18#7 d a k 0x3#5 f o w hww
  simp [decodeWords, isAssigned, isTwoWord, decodeOne, decodeMem, h, hw0, hw1, hw2, hw3, hw4, hw5, hw6]

theorem memLdWs (d : BitVec 5) (a : BitVec 5) (k : BitVec 4) (f : BitVec 2) (o : BitVec 4) : Statement (.memLdWs d a k f o) := by
  intro h
  generalize hww : 0x18#7 ++ d ++ a ++ k ++ 0x4#5 ++ f ++ o = w
  obtain ⟨hw0, hw1, hw2, hw3, hw4, hw5, hw6⟩ := layout29 0x18#7 d a k 0x4#5 f o w hww
  simp [decodeWords, isAssigned, isTwoWord, decodeOne, decodeMem, h, hw0, hw1, hw2, hw3, hw4, hw5, hw6]

theorem memLdD (d : BitVec 5) (a : BitVec 5) (k : BitVec 4) (f : BitVec 2) (o : BitVec 4) : Statement (.memLdD d a k f o) := by
  intro h
  generalize hww : 0x18#7 ++ d ++ a ++ k ++ 0x5#5 ++ f ++ o = w
  obtain ⟨hw0, hw1, hw2, hw3, hw4, hw5, hw6⟩ := layout29 0x18#7 d a k 0x5#5 f o w hww
  simp [decodeWords, isAssigned, isTwoWord, decodeOne, decodeMem, h, hw0, hw1, hw2, hw3, hw4, hw5, hw6]

theorem memLdQ (d : BitVec 5) (a : BitVec 5) (k : BitVec 4) (f : BitVec 2) (o : BitVec 4) : Statement (.memLdQ d a k f o) := by
  intro h
  generalize hww : 0x18#7 ++ d ++ a ++ k ++ 0x6#5 ++ f ++ o = w
  obtain ⟨hw0, hw1, hw2, hw3, hw4, hw5, hw6⟩ := layout29 0x18#7 d a k 0x6#5 f o w hww
  simp [decodeWords, isAssigned, isTwoWord, decodeOne, decodeMem, h, hw0, hw1, hw2, hw3, hw4, hw5, hw6]

theorem memStH (d : BitVec 5) (a : BitVec 5) (k : BitVec 4) (f : BitVec 2) (o : BitVec 4) : Statement (.memStH d a k f o) := by
  intro h
  generalize hww : 0x18#7 ++ d ++ a ++ k ++ 0x9#5 ++ f ++ o = w
  obtain ⟨hw0, hw1, hw2, hw3, hw4, hw5, hw6⟩ := layout29 0x18#7 d a k 0x9#5 f o w hww
  simp [decodeWords, isAssigned, isTwoWord, decodeOne, decodeMem, h, hw0, hw1, hw2, hw3, hw4, hw5, hw6]

theorem memStW (d : BitVec 5) (a : BitVec 5) (k : BitVec 4) (f : BitVec 2) (o : BitVec 4) : Statement (.memStW d a k f o) := by
  intro h
  generalize hww : 0x18#7 ++ d ++ a ++ k ++ 0xA#5 ++ f ++ o = w
  obtain ⟨hw0, hw1, hw2, hw3, hw4, hw5, hw6⟩ := layout29 0x18#7 d a k 0xA#5 f o w hww
  simp [decodeWords, isAssigned, isTwoWord, decodeOne, decodeMem, h, hw0, hw1, hw2, hw3, hw4, hw5, hw6]

theorem memStD (d : BitVec 5) (a : BitVec 5) (k : BitVec 4) (f : BitVec 2) (o : BitVec 4) : Statement (.memStD d a k f o) := by
  intro h
  generalize hww : 0x18#7 ++ d ++ a ++ k ++ 0xB#5 ++ f ++ o = w
  obtain ⟨hw0, hw1, hw2, hw3, hw4, hw5, hw6⟩ := layout29 0x18#7 d a k 0xB#5 f o w hww
  simp [decodeWords, isAssigned, isTwoWord, decodeOne, decodeMem, h, hw0, hw1, hw2, hw3, hw4, hw5, hw6]

theorem memStQ (d : BitVec 5) (a : BitVec 5) (k : BitVec 4) (f : BitVec 2) (o : BitVec 4) : Statement (.memStQ d a k f o) := by
  intro h
  generalize hww : 0x18#7 ++ d ++ a ++ k ++ 0xC#5 ++ f ++ o = w
  obtain ⟨hw0, hw1, hw2, hw3, hw4, hw5, hw6⟩ := layout29 0x18#7 d a k 0xC#5 f o w hww
  simp [decodeWords, isAssigned, isTwoWord, decodeOne, decodeMem, h, hw0, hw1, hw2, hw3, hw4, hw5, hw6]

theorem rmemLdH (d : BitVec 5) (a : BitVec 5) (k : BitVec 4) (f : BitVec 2) (o : BitVec 4) : Statement (.rmemLdH d a k f o) := by
  intro h
  generalize hww : 0x19#7 ++ d ++ a ++ k ++ 0x1#5 ++ f ++ o = w
  obtain ⟨hw0, hw1, hw2, hw3, hw4, hw5, hw6⟩ := layout29 0x19#7 d a k 0x1#5 f o w hww
  simp [decodeWords, isAssigned, isTwoWord, decodeOne, decodeRmem, h, hw0, hw1, hw2, hw3, hw4, hw5, hw6]

theorem rmemLdHs (d : BitVec 5) (a : BitVec 5) (k : BitVec 4) (f : BitVec 2) (o : BitVec 4) : Statement (.rmemLdHs d a k f o) := by
  intro h
  generalize hww : 0x19#7 ++ d ++ a ++ k ++ 0x2#5 ++ f ++ o = w
  obtain ⟨hw0, hw1, hw2, hw3, hw4, hw5, hw6⟩ := layout29 0x19#7 d a k 0x2#5 f o w hww
  simp [decodeWords, isAssigned, isTwoWord, decodeOne, decodeRmem, h, hw0, hw1, hw2, hw3, hw4, hw5, hw6]

theorem rmemLdW (d : BitVec 5) (a : BitVec 5) (k : BitVec 4) (f : BitVec 2) (o : BitVec 4) : Statement (.rmemLdW d a k f o) := by
  intro h
  generalize hww : 0x19#7 ++ d ++ a ++ k ++ 0x3#5 ++ f ++ o = w
  obtain ⟨hw0, hw1, hw2, hw3, hw4, hw5, hw6⟩ := layout29 0x19#7 d a k 0x3#5 f o w hww
  simp [decodeWords, isAssigned, isTwoWord, decodeOne, decodeRmem, h, hw0, hw1, hw2, hw3, hw4, hw5, hw6]

theorem rmemLdWs (d : BitVec 5) (a : BitVec 5) (k : BitVec 4) (f : BitVec 2) (o : BitVec 4) : Statement (.rmemLdWs d a k f o) := by
  intro h
  generalize hww : 0x19#7 ++ d ++ a ++ k ++ 0x4#5 ++ f ++ o = w
  obtain ⟨hw0, hw1, hw2, hw3, hw4, hw5, hw6⟩ := layout29 0x19#7 d a k 0x4#5 f o w hww
  simp [decodeWords, isAssigned, isTwoWord, decodeOne, decodeRmem, h, hw0, hw1, hw2, hw3, hw4, hw5, hw6]

theorem rmemLdD (d : BitVec 5) (a : BitVec 5) (k : BitVec 4) (f : BitVec 2) (o : BitVec 4) : Statement (.rmemLdD d a k f o) := by
  intro h
  generalize hww : 0x19#7 ++ d ++ a ++ k ++ 0x5#5 ++ f ++ o = w
  obtain ⟨hw0, hw1, hw2, hw3, hw4, hw5, hw6⟩ := layout29 0x19#7 d a k 0x5#5 f o w hww
  simp [decodeWords, isAssigned, isTwoWord, decodeOne, decodeRmem, h, hw0, hw1, hw2, hw3, hw4, hw5, hw6]

theorem rmemLdQ (d : BitVec 5) (a : BitVec 5) (k : BitVec 4) (f : BitVec 2) (o : BitVec 4) : Statement (.rmemLdQ d a k f o) := by
  intro h
  generalize hww : 0x19#7 ++ d ++ a ++ k ++ 0x6#5 ++ f ++ o = w
  obtain ⟨hw0, hw1, hw2, hw3, hw4, hw5, hw6⟩ := layout29 0x19#7 d a k 0x6#5 f o w hww
  simp [decodeWords, isAssigned, isTwoWord, decodeOne, decodeRmem, h, hw0, hw1, hw2, hw3, hw4, hw5, hw6]

theorem rmemStH (d : BitVec 5) (a : BitVec 5) (k : BitVec 4) (f : BitVec 2) (o : BitVec 4) : Statement (.rmemStH d a k f o) := by
  intro h
  generalize hww : 0x19#7 ++ d ++ a ++ k ++ 0x9#5 ++ f ++ o = w
  obtain ⟨hw0, hw1, hw2, hw3, hw4, hw5, hw6⟩ := layout29 0x19#7 d a k 0x9#5 f o w hww
  simp [decodeWords, isAssigned, isTwoWord, decodeOne, decodeRmem, h, hw0, hw1, hw2, hw3, hw4, hw5, hw6]

theorem rmemStW (d : BitVec 5) (a : BitVec 5) (k : BitVec 4) (f : BitVec 2) (o : BitVec 4) : Statement (.rmemStW d a k f o) := by
  intro h
  generalize hww : 0x19#7 ++ d ++ a ++ k ++ 0xA#5 ++ f ++ o = w
  obtain ⟨hw0, hw1, hw2, hw3, hw4, hw5, hw6⟩ := layout29 0x19#7 d a k 0xA#5 f o w hww
  simp [decodeWords, isAssigned, isTwoWord, decodeOne, decodeRmem, h, hw0, hw1, hw2, hw3, hw4, hw5, hw6]

theorem rmemStD (d : BitVec 5) (a : BitVec 5) (k : BitVec 4) (f : BitVec 2) (o : BitVec 4) : Statement (.rmemStD d a k f o) := by
  intro h
  generalize hww : 0x19#7 ++ d ++ a ++ k ++ 0xB#5 ++ f ++ o = w
  obtain ⟨hw0, hw1, hw2, hw3, hw4, hw5, hw6⟩ := layout29 0x19#7 d a k 0xB#5 f o w hww
  simp [decodeWords, isAssigned, isTwoWord, decodeOne, decodeRmem, h, hw0, hw1, hw2, hw3, hw4, hw5, hw6]

theorem rmemStQ (d : BitVec 5) (a : BitVec 5) (k : BitVec 4) (f : BitVec 2) (o : BitVec 4) : Statement (.rmemStQ d a k f o) := by
  intro h
  generalize hww : 0x19#7 ++ d ++ a ++ k ++ 0xC#5 ++ f ++ o = w
  obtain ⟨hw0, hw1, hw2, hw3, hw4, hw5, hw6⟩ := layout29 0x19#7 d a k 0xC#5 f o w hww
  simp [decodeWords, isAssigned, isTwoWord, decodeOne, decodeRmem, h, hw0, hw1, hw2, hw3, hw4, hw5, hw6]

theorem amoAdd (d : BitVec 5) (a : BitVec 5) (k : BitVec 4) (f : BitVec 2) (o : BitVec 4) : Statement (.amoAdd d a k f o) := by
  intro h
  generalize hww : 0x1A#7 ++ d ++ a ++ k ++ 0x2#5 ++ f ++ o = w
  obtain ⟨hw0, hw1, hw2, hw3, hw4, hw5, hw6⟩ := layout29 0x1A#7 d a k 0x2#5 f o w hww
  simp [decodeWords, isAssigned, isTwoWord, decodeOne, decodeAmo, h, hw0, hw1, hw2, hw3, hw4, hw5, hw6]

theorem amoMin (d : BitVec 5) (a : BitVec 5) (k : BitVec 4) (f : BitVec 2) (o : BitVec 4) : Statement (.amoMin d a k f o) := by
  intro h
  generalize hww : 0x1A#7 ++ d ++ a ++ k ++ 0x3#5 ++ f ++ o = w
  obtain ⟨hw0, hw1, hw2, hw3, hw4, hw5, hw6⟩ := layout29 0x1A#7 d a k 0x3#5 f o w hww
  simp [decodeWords, isAssigned, isTwoWord, decodeOne, decodeAmo, h, hw0, hw1, hw2, hw3, hw4, hw5, hw6]

theorem amoMax (d : BitVec 5) (a : BitVec 5) (k : BitVec 4) (f : BitVec 2) (o : BitVec 4) : Statement (.amoMax d a k f o) := by
  intro h
  generalize hww : 0x1A#7 ++ d ++ a ++ k ++ 0x4#5 ++ f ++ o = w
  obtain ⟨hw0, hw1, hw2, hw3, hw4, hw5, hw6⟩ := layout29 0x1A#7 d a k 0x4#5 f o w hww
  simp [decodeWords, isAssigned, isTwoWord, decodeOne, decodeAmo, h, hw0, hw1, hw2, hw3, hw4, hw5, hw6]

theorem amoAmax (d : BitVec 5) (a : BitVec 5) (k : BitVec 4) (f : BitVec 2) (o : BitVec 4) : Statement (.amoAmax d a k f o) := by
  intro h
  generalize hww : 0x1A#7 ++ d ++ a ++ k ++ 0x5#5 ++ f ++ o = w
  obtain ⟨hw0, hw1, hw2, hw3, hw4, hw5, hw6⟩ := layout29 0x1A#7 d a k 0x5#5 f o w hww
  simp [decodeWords, isAssigned, isTwoWord, decodeOne, decodeAmo, h, hw0, hw1, hw2, hw3, hw4, hw5, hw6]

theorem amoAmaxr (d : BitVec 5) (a : BitVec 5) (k : BitVec 4) (f : BitVec 2) (o : BitVec 4) : Statement (.amoAmaxr d a k f o) := by
  intro h
  generalize hww : 0x1A#7 ++ d ++ a ++ k ++ 0x6#5 ++ f ++ o = w
  obtain ⟨hw0, hw1, hw2, hw3, hw4, hw5, hw6⟩ := layout29 0x1A#7 d a k 0x6#5 f o w hww
  simp [decodeWords, isAssigned, isTwoWord, decodeOne, decodeAmo, h, hw0, hw1, hw2, hw3, hw4, hw5, hw6]

theorem amoFaddW (d : BitVec 5) (a : BitVec 5) (k : BitVec 4) (f : BitVec 2) (o : BitVec 4) : Statement (.amoFaddW d a k f o) := by
  intro h
  generalize hww : 0x1A#7 ++ d ++ a ++ k ++ 0x7#5 ++ f ++ o = w
  obtain ⟨hw0, hw1, hw2, hw3, hw4, hw5, hw6⟩ := layout29 0x1A#7 d a k 0x7#5 f o w hww
  simp [decodeWords, isAssigned, isTwoWord, decodeOne, decodeAmo, h, hw0, hw1, hw2, hw3, hw4, hw5, hw6]

theorem amoFaddH (d : BitVec 5) (a : BitVec 5) (k : BitVec 4) (f : BitVec 2) (o : BitVec 4) : Statement (.amoFaddH d a k f o) := by
  intro h
  generalize hww : 0x1A#7 ++ d ++ a ++ k ++ 0xC#5 ++ f ++ o = w
  obtain ⟨hw0, hw1, hw2, hw3, hw4, hw5, hw6⟩ := layout29 0x1A#7 d a k 0xC#5 f o w hww
  simp [decodeWords, isAssigned, isTwoWord, decodeOne, decodeAmo, h, hw0, hw1, hw2, hw3, hw4, hw5, hw6]

theorem amoAnd (d : BitVec 5) (a : BitVec 5) (k : BitVec 4) (f : BitVec 2) (o : BitVec 4) : Statement (.amoAnd d a k f o) := by
  intro h
  generalize hww : 0x1A#7 ++ d ++ a ++ k ++ 0x8#5 ++ f ++ o = w
  obtain ⟨hw0, hw1, hw2, hw3, hw4, hw5, hw6⟩ := layout29 0x1A#7 d a k 0x8#5 f o w hww
  simp [decodeWords, isAssigned, isTwoWord, decodeOne, decodeAmo, h, hw0, hw1, hw2, hw3, hw4, hw5, hw6]

theorem amoOr (d : BitVec 5) (a : BitVec 5) (k : BitVec 4) (f : BitVec 2) (o : BitVec 4) : Statement (.amoOr d a k f o) := by
  intro h
  generalize hww : 0x1A#7 ++ d ++ a ++ k ++ 0x9#5 ++ f ++ o = w
  obtain ⟨hw0, hw1, hw2, hw3, hw4, hw5, hw6⟩ := layout29 0x1A#7 d a k 0x9#5 f o w hww
  simp [decodeWords, isAssigned, isTwoWord, decodeOne, decodeAmo, h, hw0, hw1, hw2, hw3, hw4, hw5, hw6]

theorem amoXchg (d : BitVec 5) (a : BitVec 5) (k : BitVec 4) (f : BitVec 2) (o : BitVec 4) : Statement (.amoXchg d a k f o) := by
  intro h
  generalize hww : 0x1A#7 ++ d ++ a ++ k ++ 0xA#5 ++ f ++ o = w
  obtain ⟨hw0, hw1, hw2, hw3, hw4, hw5, hw6⟩ := layout29 0x1A#7 d a k 0xA#5 f o w hww
  simp [decodeWords, isAssigned, isTwoWord, decodeOne, decodeAmo, h, hw0, hw1, hw2, hw3, hw4, hw5, hw6]

theorem amoCas (d : BitVec 5) (a : BitVec 5) (k : BitVec 4) (f : BitVec 2) (o : BitVec 4) : Statement (.amoCas d a k f o) := by
  intro h
  generalize hww : 0x1A#7 ++ d ++ a ++ k ++ 0xB#5 ++ f ++ o = w
  obtain ⟨hw0, hw1, hw2, hw3, hw4, hw5, hw6⟩ := layout29 0x1A#7 d a k 0xB#5 f o w hww
  simp [decodeWords, isAssigned, isTwoWord, decodeOne, decodeAmo, h, hw0, hw1, hw2, hw3, hw4, hw5, hw6]

theorem amoAddPosted (d : BitVec 5) (a : BitVec 5) (k : BitVec 4) (f : BitVec 2) (o : BitVec 4) : Statement (.amoAddPosted d a k f o) := by
  intro h
  generalize hww : 0x1A#7 ++ d ++ a ++ k ++ 0x12#5 ++ f ++ o = w
  obtain ⟨hw0, hw1, hw2, hw3, hw4, hw5, hw6⟩ := layout29 0x1A#7 d a k 0x12#5 f o w hww
  simp [decodeWords, isAssigned, isTwoWord, decodeOne, decodeAmo, h, hw0, hw1, hw2, hw3, hw4, hw5, hw6]

theorem amoMinPosted (d : BitVec 5) (a : BitVec 5) (k : BitVec 4) (f : BitVec 2) (o : BitVec 4) : Statement (.amoMinPosted d a k f o) := by
  intro h
  generalize hww : 0x1A#7 ++ d ++ a ++ k ++ 0x13#5 ++ f ++ o = w
  obtain ⟨hw0, hw1, hw2, hw3, hw4, hw5, hw6⟩ := layout29 0x1A#7 d a k 0x13#5 f o w hww
  simp [decodeWords, isAssigned, isTwoWord, decodeOne, decodeAmo, h, hw0, hw1, hw2, hw3, hw4, hw5, hw6]

theorem amoMaxPosted (d : BitVec 5) (a : BitVec 5) (k : BitVec 4) (f : BitVec 2) (o : BitVec 4) : Statement (.amoMaxPosted d a k f o) := by
  intro h
  generalize hww : 0x1A#7 ++ d ++ a ++ k ++ 0x14#5 ++ f ++ o = w
  obtain ⟨hw0, hw1, hw2, hw3, hw4, hw5, hw6⟩ := layout29 0x1A#7 d a k 0x14#5 f o w hww
  simp [decodeWords, isAssigned, isTwoWord, decodeOne, decodeAmo, h, hw0, hw1, hw2, hw3, hw4, hw5, hw6]

theorem amoAmaxPosted (d : BitVec 5) (a : BitVec 5) (k : BitVec 4) (f : BitVec 2) (o : BitVec 4) : Statement (.amoAmaxPosted d a k f o) := by
  intro h
  generalize hww : 0x1A#7 ++ d ++ a ++ k ++ 0x15#5 ++ f ++ o = w
  obtain ⟨hw0, hw1, hw2, hw3, hw4, hw5, hw6⟩ := layout29 0x1A#7 d a k 0x15#5 f o w hww
  simp [decodeWords, isAssigned, isTwoWord, decodeOne, decodeAmo, h, hw0, hw1, hw2, hw3, hw4, hw5, hw6]

theorem amoFaddWPosted (d : BitVec 5) (a : BitVec 5) (k : BitVec 4) (f : BitVec 2) (o : BitVec 4) : Statement (.amoFaddWPosted d a k f o) := by
  intro h
  generalize hww : 0x1A#7 ++ d ++ a ++ k ++ 0x17#5 ++ f ++ o = w
  obtain ⟨hw0, hw1, hw2, hw3, hw4, hw5, hw6⟩ := layout29 0x1A#7 d a k 0x17#5 f o w hww
  simp [decodeWords, isAssigned, isTwoWord, decodeOne, decodeAmo, h, hw0, hw1, hw2, hw3, hw4, hw5, hw6]

theorem amoFaddHPosted (d : BitVec 5) (a : BitVec 5) (k : BitVec 4) (f : BitVec 2) (o : BitVec 4) : Statement (.amoFaddHPosted d a k f o) := by
  intro h
  generalize hww : 0x1A#7 ++ d ++ a ++ k ++ 0x1C#5 ++ f ++ o = w
  obtain ⟨hw0, hw1, hw2, hw3, hw4, hw5, hw6⟩ := layout29 0x1A#7 d a k 0x1C#5 f o w hww
  simp [decodeWords, isAssigned, isTwoWord, decodeOne, decodeAmo, h, hw0, hw1, hw2, hw3, hw4, hw5, hw6]

theorem amoAndPosted (d : BitVec 5) (a : BitVec 5) (k : BitVec 4) (f : BitVec 2) (o : BitVec 4) : Statement (.amoAndPosted d a k f o) := by
  intro h
  generalize hww : 0x1A#7 ++ d ++ a ++ k ++ 0x18#5 ++ f ++ o = w
  obtain ⟨hw0, hw1, hw2, hw3, hw4, hw5, hw6⟩ := layout29 0x1A#7 d a k 0x18#5 f o w hww
  simp [decodeWords, isAssigned, isTwoWord, decodeOne, decodeAmo, h, hw0, hw1, hw2, hw3, hw4, hw5, hw6]

theorem amoOrPosted (d : BitVec 5) (a : BitVec 5) (k : BitVec 4) (f : BitVec 2) (o : BitVec 4) : Statement (.amoOrPosted d a k f o) := by
  intro h
  generalize hww : 0x1A#7 ++ d ++ a ++ k ++ 0x19#5 ++ f ++ o = w
  obtain ⟨hw0, hw1, hw2, hw3, hw4, hw5, hw6⟩ := layout29 0x1A#7 d a k 0x19#5 f o w hww
  simp [decodeWords, isAssigned, isTwoWord, decodeOne, decodeAmo, h, hw0, hw1, hw2, hw3, hw4, hw5, hw6]

theorem syncPhbar (a : BitVec 5) (b : BitVec 5) : Statement (.syncPhbar a b) := by
  intro h
  generalize hww : 0x5A0#12 ++ a ++ b ++ 0x11#10 = w
  obtain ⟨hw0, hw1, hw2, hw3, hw4⟩ := layout26 0x5A0#12 a b 0x11#10 w hww
  simp [decodeWords, isAssigned, isTwoWord, decodeOne, decodeSync, h, hw0, hw1, hw2, hw3, hw4]

theorem syncSparge (a : BitVec 5) : Statement (.syncSparge a) := by
  intro h
  generalize hww : 0x5A0#12 ++ a ++ 0x20#15 = w
  obtain ⟨hw0, hw1, hw2, hw3, hw4⟩ := layout17 0x5A0#12 a 0x20#15 w hww
  simp [decodeWords, isAssigned, isTwoWord, decodeOne, decodeSync, h, hw0, hw1, hw2, hw3, hw4]

theorem strmDld (dsc : BitVec 4) (a : BitVec 5) : Statement (.strmDld dsc a) := by
  intro h
  generalize hww : 0x28#7 ++ dsc ++ 0#5 ++ a ++ 0x1#5 ++ 0#6 = w
  obtain ⟨hw0, hw1, hw2, hw3, hw4, hw5⟩ := layout30 0x28#7 dsc 0#5 a 0x1#5 0#6 w hww
  simp [decodeWords, isAssigned, isTwoWord, decodeTwo, h, hw0, hw1, hw2, hw3, hw4, hw5]

theorem strmBind (dsc : BitVec 4) (ch : BitVec 5) (a : BitVec 5) (die : BitVec 4) (row : BitVec 7) (col : BitVec 8) (port : BitVec 3) : Statement (.strmBind dsc ch a die row col port) := by
  intro h
  generalize hww : 0x28#7 ++ dsc ++ ch ++ a ++ 0x2#5 ++ 0#6 = w
  obtain ⟨hw0, hw1, hw2, hw3, hw4, hw5⟩ := layout31 0x28#7 dsc ch a 0x2#5 0#6 w hww
  generalize hwv : die ++ row ++ col ++ port ++ 0#10 = v
  obtain ⟨hv0, hv1, hv2, hv3, hv4⟩ := layout32 die row col port 0#10 v hwv
  simp [decodeWords, isAssigned, isTwoWord, decodeTwo, h, hw0, hw1, hw2, hw3, hw4, hw5, hv0, hv1, hv2, hv3, hv4]

theorem strmPbar (die : BitVec 4) (row : BitVec 7) (col : BitVec 8) (port : BitVec 3) : Statement (.strmPbar die row col port) := by
  intro h
  generalize hww : 0x28#7 ++ 0#14 ++ 0x3#5 ++ 0#6 = w
  obtain ⟨hw0, hw1, hw2, hw3⟩ := layout33 0x28#7 0#14 0x3#5 0#6 w hww
  generalize hwv : die ++ row ++ col ++ port ++ 0#10 = v
  obtain ⟨hv0, hv1, hv2, hv3, hv4⟩ := layout32 die row col port 0#10 v hwv
  simp [decodeWords, isAssigned, isTwoWord, decodeTwo, h, hw0, hw1, hw2, hw3, hv0, hv1, hv2, hv3, hv4]

theorem strmDinv (dsc : BitVec 4) : Statement (.strmDinv dsc) := by
  intro h
  generalize hww : 0x28#7 ++ dsc ++ 0#10 ++ 0x4#5 ++ 0#6 = w
  obtain ⟨hw0, hw1, hw2, hw3, hw4⟩ := layout34 0x28#7 dsc 0#10 0x4#5 0#6 w hww
  simp [decodeWords, isAssigned, isTwoWord, decodeTwo, h, hw0, hw1, hw2, hw3, hw4]

theorem engSteep (u : BitVec 3) (a : BitVec 5) : Statement (.engSteep u a) := by
  intro h
  generalize hww : 0xA4#9 ++ u ++ a ++ 0x1#15 = w
  obtain ⟨hw0, hw1, hw2, hw3, hw4, hw5⟩ := layout8 0xA4#9 u a 0x1#15 w hww
  simp [decodeWords, isAssigned, isTwoWord, decodeOne, decodeEng, h, hw0, hw1, hw2, hw3, hw4, hw5]

theorem engMtok (u : BitVec 3) (a : BitVec 5) : Statement (.engMtok u a) := by
  intro h
  generalize hww : 0xA4#9 ++ u ++ a ++ 0x2#15 = w
  obtain ⟨hw0, hw1, hw2, hw3, hw4, hw5⟩ := layout8 0xA4#9 u a 0x2#15 w hww
  simp [decodeWords, isAssigned, isTwoWord, decodeOne, decodeEng, h, hw0, hw1, hw2, hw3, hw4, hw5]

theorem engCopy (a : BitVec 5) : Statement (.engCopy a) := by
  intro h
  generalize hww : 0x532#12 ++ a ++ 0x3#15 = w
  obtain ⟨hw0, hw1, hw2, hw3, hw4⟩ := layout17 0x532#12 a 0x3#15 w hww
  simp [decodeWords, isAssigned, isTwoWord, decodeOne, decodeEng, h, hw0, hw1, hw2, hw3, hw4]

theorem engRo (u : BitVec 2) (a : BitVec 5) (b : BitVec 5) : Statement (.engRo u a b) := by
  intro h
  generalize hww : 0x14A#10 ++ u ++ a ++ b ++ 0x10#10 = w
  obtain ⟨hw0, hw1, hw2, hw3, hw4, hw5⟩ := layout35 0x14A#10 u a b 0x10#10 w hww
  simp [decodeWords, isAssigned, isTwoWord, decodeOne, decodeEng, h, hw0, hw1, hw2, hw3, hw4, hw5]

theorem engSel (u : BitVec 1) (a : BitVec 5) (b : BitVec 5) : Statement (.engSel u a b) := by
  intro h
  generalize hww : 0x296#11 ++ u ++ a ++ b ++ 0x11#10 = w
  obtain ⟨hw0, hw1, hw2, hw3, hw4, hw5⟩ := layout36 0x296#11 u a b 0x11#10 w hww
  simp [decodeWords, isAssigned, isTwoWord, decodeOne, decodeEng, h, hw0, hw1, hw2, hw3, hw4, hw5]

theorem engMon (u : BitVec 1) (a : BitVec 5) (b : BitVec 5) : Statement (.engMon u a b) := by
  intro h
  generalize hww : 0x297#11 ++ u ++ a ++ b ++ 0x12#10 = w
  obtain ⟨hw0, hw1, hw2, hw3, hw4, hw5⟩ := layout36 0x297#11 u a b 0x12#10 w hww
  simp [decodeWords, isAssigned, isTwoWord, decodeOne, decodeEng, h, hw0, hw1, hw2, hw3, hw4, hw5]

theorem engDec (u : BitVec 1) (a : BitVec 5) (b : BitVec 5) : Statement (.engDec u a b) := by
  intro h
  generalize hww : 0x298#11 ++ u ++ a ++ b ++ 0x13#10 = w
  obtain ⟨hw0, hw1, hw2, hw3, hw4, hw5⟩ := layout36 0x298#11 u a b 0x13#10 w hww
  simp [decodeWords, isAssigned, isTwoWord, decodeOne, decodeEng, h, hw0, hw1, hw2, hw3, hw4, hw5]

theorem rackSave (a : BitVec 5) (b : BitVec 5) : Statement (.rackSave a b) := by
  intro h
  generalize hww : 0x540#12 ++ a ++ b ++ 0x1#10 = w
  obtain ⟨hw0, hw1, hw2, hw3, hw4⟩ := layout26 0x540#12 a b 0x1#10 w hww
  simp [decodeWords, isAssigned, isTwoWord, decodeOne, decodeRack, h, hw0, hw1, hw2, hw3, hw4]

theorem rackLoad (d : BitVec 5) (a : BitVec 5) (b : BitVec 5) : Statement (.rackLoad d a b) := by
  intro h
  generalize hww : 0x2A#7 ++ d ++ a ++ b ++ 0x2#10 = w
  obtain ⟨hw0, hw1, hw2, hw3, hw4⟩ := layout1 0x2A#7 d a b 0x2#10 w hww
  simp [decodeWords, isAssigned, isTwoWord, decodeOne, decodeRack, h, hw0, hw1, hw2, hw3, hw4]

theorem wait (l : BitVec 6) (s : BitVec 6) (c : BitVec 6) (t : BitVec 6) : Statement (.wait l s c t) := by
  intro h
  generalize hww : 0x2C#7 ++ l ++ s ++ c ++ t ++ 0x0#1 = w
  obtain ⟨hw0, hw1, hw2, hw3, hw4, hw5⟩ := layout18 0x2C#7 l s c t 0x0#1 w hww
  simp [decodeWords, isAssigned, isTwoWord, decodeOne, h, hw0, hw1, hw2, hw3, hw4, hw5]

theorem schedPitch (a : BitVec 5) : Statement (.schedPitch a) := by
  intro h
  generalize hww : 0x5C0#12 ++ a ++ 0x1#15 = w
  obtain ⟨hw0, hw1, hw2, hw3, hw4⟩ := layout17 0x5C0#12 a 0x1#15 w hww
  simp [decodeWords, isAssigned, isTwoWord, decodeOne, decodeSched, h, hw0, hw1, hw2, hw3, hw4]

theorem schedClaim (a : BitVec 5) : Statement (.schedClaim a) := by
  intro h
  generalize hww : 0x5C0#12 ++ a ++ 0x2#15 = w
  obtain ⟨hw0, hw1, hw2, hw3, hw4⟩ := layout17 0x5C0#12 a 0x2#15 w hww
  simp [decodeWords, isAssigned, isTwoWord, decodeOne, decodeSched, h, hw0, hw1, hw2, hw3, hw4]

theorem schedLevel (d : BitVec 5) : Statement (.schedLevel d) := by
  intro h
  generalize hww : 0x2E#7 ++ d ++ 0x3#20 = w
  obtain ⟨hw0, hw1, hw2, hw3⟩ := layout27 0x2E#7 d 0x3#20 w hww
  simp [decodeWords, isAssigned, isTwoWord, decodeOne, decodeSched, h, hw0, hw1, hw2, hw3]

theorem schedPerfsel (a : BitVec 5) (b : BitVec 5) : Statement (.schedPerfsel a b) := by
  intro h
  generalize hww : 0x5C0#12 ++ a ++ b ++ 0x4#10 = w
  obtain ⟨hw0, hw1, hw2, hw3, hw4⟩ := layout26 0x5C0#12 a b 0x4#10 w hww
  simp [decodeWords, isAssigned, isTwoWord, decodeOne, decodeSched, h, hw0, hw1, hw2, hw3, hw4]

theorem mgmtDrd (d : BitVec 5) (n : BitVec 8) : Statement (.mgmtDrd d n) := by
  intro h
  generalize hww : 0x3D#7 ++ d ++ 0x0#4 ++ n ++ 0x1#8 = w
  obtain ⟨hw0, hw1, hw2, hw3, hw4⟩ := layout37 0x3D#7 d 0x0#4 n 0x1#8 w hww
  simp [decodeWords, isAssigned, isTwoWord, decodeOne, decodeMgmt, h, hw0, hw1, hw2, hw3, hw4]

theorem mgmtDwr (d : BitVec 5) (n : BitVec 8) : Statement (.mgmtDwr d n) := by
  intro h
  generalize hww : 0x3D#7 ++ d ++ 0x0#4 ++ n ++ 0x2#8 = w
  obtain ⟨hw0, hw1, hw2, hw3, hw4⟩ := layout37 0x3D#7 d 0x0#4 n 0x2#8 w hww
  simp [decodeWords, isAssigned, isTwoWord, decodeOne, decodeMgmt, h, hw0, hw1, hw2, hw3, hw4]

theorem mgmtSint (d : BitVec 5) : Statement (.mgmtSint d) := by
  intro h
  generalize hww : 0x3D#7 ++ d ++ 0x3#20 = w
  obtain ⟨hw0, hw1, hw2, hw3⟩ := layout38 0x3D#7 d 0x3#20 w hww
  simp [decodeWords, isAssigned, isTwoWord, decodeOne, decodeMgmt, h, hw0, hw1, hw2, hw3]

theorem mgmtCrypto (d : BitVec 5) : Statement (.mgmtCrypto d) := by
  intro h
  generalize hww : 0x3D#7 ++ d ++ 0x10#20 = w
  obtain ⟨hw0, hw1, hw2, hw3⟩ := layout38 0x3D#7 d 0x10#20 w hww
  simp [decodeWords, isAssigned, isTwoWord, decodeOne, decodeMgmt, h, hw0, hw1, hw2, hw3]

theorem illegalWord (w : BitVec 32) : Statement (.illegalWord w) := trivial

theorem firing (e : Nat) : Statement (.firing e) := trivial

theorem routerForward (e : Nat) (link : Nat) (ch : Nat) : Statement (.routerForward e link ch) := trivial

theorem mtRouterForward (e : Nat) (link : Nat) (ch : Nat) : Statement (.mtRouterForward e link ch) := trivial

theorem tokenKindFault (e : Nat) (link : Nat) (ch : Nat) : Statement (.tokenKindFault e link ch) := trivial

theorem reconfig (e : Nat) (link : Nat) (ch : Nat) : Statement (.reconfig e link ch) := trivial

theorem configFetch (e : Nat) : Statement (.configFetch e) := trivial

theorem resume (d : Nat) : Statement (.resume d) := trivial

theorem doneToken (d : Nat) (link : Nat) (ch : Nat) : Statement (.doneToken d link ch) := trivial

theorem sealToken (d : Nat) : Statement (.sealToken d) := trivial

theorem bindTimeout (e : Nat) (link : Nat) (ch : Nat) : Statement (.bindTimeout e link ch) := trivial

theorem operandStage (e : Nat) : Statement (.operandStage e) := trivial

theorem admitStray (e : Nat) : Statement (.admitStray e) := trivial

theorem headVisit (e : Nat) : Statement (.headVisit e) := trivial

theorem rotationSave (e : Nat) : Statement (.rotationSave e) := trivial

theorem rotationLoad (e : Nat) : Statement (.rotationLoad e) := trivial

theorem mtReadStream (e : Nat) (port : Nat) : Statement (.mtReadStream e port) := trivial

theorem mtWriteStream (e : Nat) (port : Nat) : Statement (.mtWriteStream e port) := trivial

theorem tileRequest (e : Nat) (link : Nat) (ch : Nat) : Statement (.tileRequest e link ch) := trivial

theorem requestApply (e : Nat) (bank : Nat) : Statement (.requestApply e bank) := trivial

theorem waiterServe (e : Nat) : Statement (.waiterServe e) := trivial

theorem feTimeout (e : Nat) (port : Nat) : Statement (.feTimeout e port) := trivial

theorem pageRequest (d : Nat) (link : Nat) (ch : Nat) : Statement (.pageRequest d link ch) := trivial

theorem portAccess (d : Nat) (n : Nat) : Statement (.portAccess d n) := trivial

theorem portStreamElement (d : Nat) : Statement (.portStreamElement d) := trivial

theorem cutEdgeTransfer (d : Nat) (link : Nat) (ch : Nat) : Statement (.cutEdgeTransfer d link ch) := trivial

theorem streamCommandStart (e : Nat) (port : Nat) : Statement (.streamCommandStart e port) := trivial

theorem mnMul (e : Nat) : Statement (.mnMul e) := trivial

theorem mnMulacc (e : Nat) : Statement (.mnMulacc e) := trivial

theorem mnSwap (e : Nat) : Statement (.mnSwap e) := trivial

theorem mnRead (e : Nat) : Statement (.mnRead e) := trivial

theorem mnClear (e : Nat) : Statement (.mnClear e) := trivial

theorem mnDrain (e : Nat) : Statement (.mnDrain e) := trivial

theorem mnSetzp (e : Nat) : Statement (.mnSetzp e) := trivial

theorem shadowFillToken (e : Nat) : Statement (.shadowFillToken e) := trivial

theorem steep (e : Nat) : Statement (.steep e) := trivial

theorem roInput (e : Nat) : Statement (.roInput e) := trivial

theorem roOutput (e : Nat) : Statement (.roOutput e) := trivial

theorem roShape (e : Nat) : Statement (.roShape e) := trivial

theorem roFlush (e : Nat) : Statement (.roFlush e) := trivial

theorem selKeyToken (e : Nat) (weight : Bool) : Statement (.selKeyToken e weight) := trivial

theorem selKth (e : Nat) : Statement (.selKth e) := trivial

theorem selQuant (e : Nat) : Statement (.selQuant e) := trivial

theorem selWquant (e : Nat) : Statement (.selWquant e) := trivial

theorem selClear (e : Nat) : Statement (.selClear e) := trivial

theorem monArm (e : Nat) : Statement (.monArm e) := trivial

theorem monDisarm (e : Nat) : Statement (.monDisarm e) := trivial

theorem monSetref (e : Nat) : Statement (.monSetref e) := trivial

theorem monSetabs (e : Nat) : Statement (.monSetabs e) := trivial

theorem monSetrel (e : Nat) : Statement (.monSetrel e) := trivial

theorem monClear (e : Nat) : Statement (.monClear e) := trivial

theorem monRead (e : Nat) : Statement (.monRead e) := trivial

theorem decRun (e : Nat) : Statement (.decRun e) := trivial

theorem decBlock (e : Nat) : Statement (.decBlock e) := trivial

theorem copyRun (d : Nat) : Statement (.copyRun d) := trivial

theorem seqReply (c : Nat) (src : Nat) (ch : Nat) : Statement (.seqReply c src ch) := trivial

theorem trapEntry (c : Nat) : Statement (.trapEntry c) := trivial

theorem rbarComplete (load : BitVec 32) : Statement (.rbarComplete load) := trivial

theorem phbarComplete (load : BitVec 32) (group : BitVec 4) : Statement (.phbarComplete load group) := trivial

theorem spargeRelease (load : BitVec 32) : Statement (.spargeRelease load) := trivial

theorem cfgBegin (d : Nat) (w : BitVec 32) : Statement (.cfgBegin d w) := trivial

theorem cfgAddr (d : Nat) (w : BitVec 32) : Statement (.cfgAddr d w) := trivial

theorem cfgField (d : Nat) (w : BitVec 32) : Statement (.cfgField d w) := trivial

theorem cfgExtend (d : Nat) (w : BitVec 32) : Statement (.cfgExtend d w) := trivial

theorem cfgSpargeawait (d : Nat) (w : BitVec 32) : Statement (.cfgSpargeawait d w) := trivial

theorem cfgCommit (d : Nat) (w : BitVec 32) : Statement (.cfgCommit d w) := trivial

theorem sensorRefresh (shown : List (Nat × BitVec 64)) (watts : BitVec 16) : Statement (.sensorRefresh shown watts) := trivial

theorem boostBoundary (w0 : BitVec 16) (w1 : BitVec 16) (w2 : BitVec 16) (w3 : BitVec 16) : Statement (.boostBoundary w0 w1 w2 w3) := trivial

theorem boardReport (inlet : BitVec 16) (flow : BitVec 16) (medium : BitVec 4) : Statement (.boardReport inlet flow medium) := trivial

theorem districtRetired (d : Nat) : Statement (.districtRetired d) := trivial

theorem loadcmd (w : BitVec 512) : Statement (.loadcmd w) := trivial

theorem trigger (bank : Nat) (whole : Bool) (w : BitVec 512) : Statement (.trigger bank whole w) := trivial

theorem launch (n : Nat) : Statement (.launch n) := trivial

theorem caskSave (load : BitVec 32) : Statement (.caskSave load) := trivial

theorem caskRestore (load : BitVec 32) : Statement (.caskRestore load) := trivial

theorem pagerResolve (fsn : BitVec 24) : Statement (.pagerResolve fsn) := trivial

theorem reclaimRetry (fsn : BitVec 24) : Statement (.reclaimRetry fsn) := trivial

theorem pageExhausted (fsn : BitVec 24) : Statement (.pageExhausted fsn) := trivial

theorem huskSeal (soft : Option Nat) : Statement (.huskSeal soft) := trivial

theorem replyLateDrop (d : Nat) : Statement (.replyLateDrop d) := trivial

theorem hostAccess (addr : Nat) (size : Nat) (wr : Option (BitVec 512)) : Statement (.hostAccess addr size wr) := trivial

theorem registerWrite (bar : Nat) (off : Nat) (v : List Byte) : Statement (.registerWrite bar off v) := trivial

theorem supplyRampEnd (load : BitVec 32) : Statement (.supplyRampEnd load) := trivial

theorem alertstWrite (v : BitVec 64) : Statement (.alertstWrite v) := trivial

theorem alertenWrite (v : BitVec 64) : Statement (.alertenWrite v) := trivial

theorem goready (v : BitVec 64) : Statement (.goready v) := trivial

theorem limtabWrite (key : Nat) (v : BitVec 64) : Statement (.limtabWrite key v) := trivial

theorem retire (v : BitVec 64) : Statement (.retire v) := trivial

theorem attestreq (v : BitVec 64) : Statement (.attestreq v) := trivial

theorem unload (v : BitVec 64) : Statement (.unload v) := trivial

theorem dependenceValidSet (n : Nat) (v : BitVec 64) : Statement (.dependenceValidSet n v) := trivial

theorem dependenceValidClear (n : Nat) (v : BitVec 64) : Statement (.dependenceValidClear n v) := trivial

theorem batchCommit (n : Nat) (v : BitVec 64) : Statement (.batchCommit n v) := trivial

theorem bankcfgWrite (bank : Nat) (v : BitVec 64) : Statement (.bankcfgWrite bank v) := trivial

theorem partwsWrite (p : Nat) (v : BitVec 64) : Statement (.partwsWrite p v) := trivial

theorem gangstatWrite (v : BitVec 64) : Statement (.gangstatWrite v) := trivial

theorem bindcmd (v : BitVec 64) : Statement (.bindcmd v) := trivial

theorem doorbell (v : BitVec 64) : Statement (.doorbell v) := trivial

theorem dbstWrite (v : BitVec 64) : Statement (.dbstWrite v) := trivial

theorem tlbinv (v : BitVec 64) : Statement (.tlbinv v) := trivial

theorem pgresolve (v : BitVec 64) : Statement (.pgresolve v) := trivial

theorem fppush (v : BitVec 64) : Statement (.fppush v) := trivial

theorem migrationStart (v : BitVec 64) : Statement (.migrationStart v) := trivial

theorem perfsel (v : BitVec 64) : Statement (.perfsel v) := trivial

theorem ctrq (v : BitVec 64) : Statement (.ctrq v) := trivial

theorem cpcap (v : BitVec 64) : Statement (.cpcap v) := trivial

theorem replthWrite (v : BitVec 64) : Statement (.replthWrite v) := trivial

theorem jmpRet : Statement .jmpRet := by
  intro _; rfl

theorem stepEnd : Statement .stepEnd := by
  intro _; rfl

theorem sysTret : Statement .sysTret := by
  intro _; rfl

theorem sysHalt : Statement .sysHalt := by
  intro _; rfl

theorem sysIdle : Statement .sysIdle := by
  intro _; rfl

theorem syncFenceElem : Statement .syncFenceElem := by
  intro _; rfl

theorem syncFenceRegion : Statement .syncFenceRegion := by
  intro _; rfl

theorem syncFenceDie : Statement .syncFenceDie := by
  intro _; rfl

theorem syncFenceModule : Statement .syncFenceModule := by
  intro _; rfl

theorem syncFenceSystem : Statement .syncFenceSystem := by
  intro _; rfl

theorem syncRbar : Statement .syncRbar := by
  intro _; rfl

theorem fetchRange : Statement .fetchRange := trivial

theorem powerInterval : Statement .powerInterval := trivial

theorem wsRefreshPeriod : Statement .wsRefreshPeriod := trivial

theorem coolantStale : Statement .coolantStale := trivial

theorem coldReset : Statement .coldReset := trivial

theorem cryptoHash : Statement .cryptoHash := trivial

theorem cryptoVerify : Statement .cryptoVerify := trivial

theorem cryptoSign : Statement .cryptoSign := trivial

theorem cryptoExtend : Statement .cryptoExtend := trivial

theorem cryptoIdekey : Statement .cryptoIdekey := trivial

theorem loadComplete : Statement .loadComplete := trivial

theorem scheduleTrigger : Statement .scheduleTrigger := trivial

theorem priorityTokenRefill : Statement .priorityTokenRefill := trivial

theorem gangHalt : Statement .gangHalt := trivial

theorem gangInstant : Statement .gangInstant := trivial

theorem tlbinvComplete : Statement .tlbinvComplete := trivial

theorem migrationCopyDone : Statement .migrationCopyDone := trivial

theorem perfselApply : Statement .perfselApply := trivial

theorem ctrqLatch : Statement .ctrqLatch := trivial

theorem tracePcSample : Statement .tracePcSample := trivial

theorem sysfault : Statement .sysfault := trivial

end Sys2Proof.Laws.Encoding
end

