-- ==== Sys2Proof/Tests/Slice0.lean ====
section
/-! SUPPORT. Tests of the model's own: ill-formed terms that WellFormed refuses, words written out from the spec's
encodings, single steps on small states with results worked from the spec, and for each statement states and operands
that meet its hypotheses, clause by clause, at the ends of their ranges. -/

namespace Sys2Proof.Tests

set_option Elab.async false

open Sys2Proof Sys2Proof.Machine Sys2Proof.Spec

/-! ### Small states -/

/-- A launched region of district 1 alone. -/
def one : Region := { loadId := 1, districts := [1], nodes := [{ dist := 1 }], status := .running, started := true, pool := 9 }

/-- The SEQ of district 1 acts in that region. -/
def on (x : District) : State := { districts := [(1, x)], regions := [one], core := 1, boot := { state := 3 } }

/-- The same with a core. -/
def run (c : Core) : State := on { core := { c with running := true } }

/-- The management core acts. -/
def mgmt (c : Core) : State := { State.reset with districts := [(1023, { core := { c with level1 := true, running := true } })] }

/-- A core with two general registers set. -/
def two (a : BitVec 5) (v : Word) (b : BitVec 5) (w : Word) : Core := (({} : Core).wrG a v).wrG b w

/-- The state after an instruction that ends in a next state. -/
def after (i : Instr) (s : State) : State :=
  match exec i s with
  | .next t => t
  | _ => s

/-- The whole tile space of the region, and an object of one page, with every right. -/
def tiles : Cap := capMake 0x7D00000 0 0xFF 0xFFFFFF
def object : Cap := capMake 0x10000 0 0xFF 5

/-! ### Ill-formed terms -/

theorem test_ill_formed_fpu_format : ([.fpuCvto 0 0 5 0 0, .fpuCvto 0 0 2 0 1, .fpuCvfrom 0 0 5 0] : List Instr).all (fun i => !i.wf) = true := by decide

theorem test_ill_formed_load_fe : ([.memLdH 0 0 0 3 0, .memLdHs 0 0 0 3 0, .memLdW 0 0 0 3 0, .memLdWs 0 0 0 3 0, .memLdD 0 0 0 3 0,
    .memLdQ 0 0 0 3 0, .rmemLdH 0 0 0 3 0, .rmemLdHs 0 0 0 3 0, .rmemLdW 0 0 0 3 0, .rmemLdWs 0 0 0 3 0,
    .rmemLdD 0 0 0 3 0, .rmemLdQ 0 0 0 3 0] : List Instr).all (fun i => !i.wf) = true := by decide

theorem test_ill_formed_load_ord : ([.memLdH 0 0 0 0 6, .memLdHs 0 0 0 0 6, .memLdW 0 0 0 0 6, .memLdWs 0 0 0 0 6, .memLdD 0 0 0 0 6,
    .memLdQ 0 0 0 0 6, .rmemLdH 0 0 0 0 6, .rmemLdHs 0 0 0 0 6, .rmemLdW 0 0 0 0 6, .rmemLdWs 0 0 0 0 6,
    .rmemLdD 0 0 0 0 6, .rmemLdQ 0 0 0 0 6] : List Instr).all (fun i => !i.wf) = true := by decide

theorem test_ill_formed_even_register : ([.memLdQ 3 0 0 0 0, .memStQ 3 0 0 0 0, .rmemLdQ 3 0 0 0 0, .rmemStQ 3 0 0 0 0, .mgmtDwr 3 0] : List Instr).all (fun i => !i.wf) = true := by decide

theorem test_ill_formed_store_fe : ([.memStH 0 0 0 1 0, .memStW 0 0 0 1 0, .memStD 0 0 0 1 0, .memStQ 0 0 0 1 0, .rmemStH 0 0 0 1 0,
    .rmemStW 0 0 0 1 0, .rmemStD 0 0 0 1 0, .rmemStQ 0 0 0 1 0] : List Instr).all (fun i => !i.wf) = true := by decide

theorem test_ill_formed_store_ord : ([.memStH 0 0 0 0 5, .memStW 0 0 0 0 5, .memStD 0 0 0 0 5, .memStQ 0 0 0 0 5, .rmemStH 0 0 0 0 5,
    .rmemStW 0 0 0 0 5, .rmemStD 0 0 0 0 5, .rmemStQ 0 0 0 0 5] : List Instr).all (fun i => !i.wf) = true := by decide

theorem test_ill_formed_amo_fe : ([.amoAdd 0 0 0 2 0, .amoMin 0 0 0 2 0, .amoMax 0 0 0 2 0, .amoAmax 0 0 0 2 0, .amoAmaxr 0 0 0 2 0,
    .amoFaddW 0 0 0 2 0, .amoFaddH 0 0 0 2 0, .amoAnd 0 0 0 2 0, .amoOr 0 0 0 2 0, .amoXchg 0 0 0 2 0,
    .amoCas 0 0 0 2 0] : List Instr).all (fun i => !i.wf) = true := by decide

theorem test_ill_formed_amo_ord : ([.amoAdd 0 0 0 0 11, .amoMin 0 0 0 0 11, .amoMax 0 0 0 0 11, .amoAmax 0 0 0 0 11, .amoAmaxr 0 0 0 0 11,
    .amoFaddW 0 0 0 0 11, .amoFaddH 0 0 0 0 11, .amoAnd 0 0 0 0 11, .amoOr 0 0 0 0 11, .amoXchg 0 0 0 0 11,
    .amoCas 0 0 0 0 11] : List Instr).all (fun i => !i.wf) = true := by decide

theorem test_ill_formed_posted_fe : ([.amoAddPosted 0 0 0 2 0, .amoMinPosted 0 0 0 2 0, .amoMaxPosted 0 0 0 2 0, .amoAmaxPosted 0 0 0 2 0, .amoFaddWPosted 0 0 0 2 0,
    .amoFaddHPosted 0 0 0 2 0, .amoAndPosted 0 0 0 2 0, .amoOrPosted 0 0 0 2 0] : List Instr).all (fun i => !i.wf) = true := by decide

theorem test_ill_formed_posted_ord : ([.amoAddPosted 0 0 0 0 5, .amoMinPosted 0 0 0 0 5, .amoMaxPosted 0 0 0 0 5, .amoAmaxPosted 0 0 0 0 5, .amoFaddWPosted 0 0 0 0 5,
    .amoFaddHPosted 0 0 0 0 5, .amoAndPosted 0 0 0 0 5, .amoOrPosted 0 0 0 0 5] : List Instr).all (fun i => !i.wf) = true := by decide

theorem test_ill_formed_stream_port : ([.strmBind 0 0 0 0 0 0 6, .strmPbar 0 0 0 6] : List Instr).all (fun i => !i.wf) = true := by decide

theorem test_ill_formed_element : ([.firing 332800, .routerForward 332800 0 0, .mtRouterForward 332800 0 0, .tokenKindFault 332800 0 0, .reconfig 332800 0 0,
    .configFetch 332800, .bindTimeout 332800 0 0, .operandStage 332800, .admitStray 332800, .headVisit 332800,
    .rotationSave 332800, .rotationLoad 332800, .mtReadStream 332800 0, .mtWriteStream 332800 0, .tileRequest 332800 0 0,
    .requestApply 332800 0, .waiterServe 332800, .feTimeout 332800 0, .streamCommandStart 332800 0, .mnMul 332800,
    .mnMulacc 332800, .mnSwap 332800, .mnRead 332800, .mnClear 332800, .mnDrain 332800,
    .mnSetzp 332800, .shadowFillToken 332800, .steep 332800, .roInput 332800, .roOutput 332800,
    .roShape 332800, .roFlush 332800, .selKeyToken 332800 false, .selKth 332800, .selQuant 332800,
    .selWquant 332800, .selClear 332800, .monArm 332800, .monDisarm 332800, .monSetref 332800,
    .monSetabs 332800, .monSetrel 332800, .monClear 332800, .monRead 332800, .decRun 332800,
    .decBlock 332800] : List Instr).all (fun i => !i.wf) = true := by decide

theorem test_ill_formed_link : ([.routerForward 0 5 0, .mtRouterForward 0 5 0, .tokenKindFault 0 5 0, .reconfig 0 5 0, .doneToken 0 5 0,
    .bindTimeout 0 5 0, .tileRequest 0 5 0, .pageRequest 0 5 0, .cutEdgeTransfer 0 5 0, .seqReply 0 6 0] : List Instr).all (fun i => !i.wf) = true := by decide

theorem test_ill_formed_channel : ([.routerForward 0 0 32, .mtRouterForward 0 0 32, .tokenKindFault 0 0 32, .reconfig 0 0 32, .doneToken 0 0 32,
    .bindTimeout 0 0 32, .tileRequest 0 0 32, .pageRequest 0 0 32, .cutEdgeTransfer 0 0 32, .seqReply 0 0 32] : List Instr).all (fun i => !i.wf) = true := by decide

theorem test_ill_formed_district : ([.resume 640, .doneToken 640 0 0, .sealToken 640, .pageRequest 640 0 0, .portAccess 640 0,
    .portStreamElement 640, .cutEdgeTransfer 640 0 0, .copyRun 640, .cfgBegin 640 0, .cfgAddr 640 0,
    .cfgField 640 0, .cfgExtend 640 0, .cfgSpargeawait 640 0, .cfgCommit 640 0,
    .districtRetired 640, .replyLateDrop 640] : List Instr).all (fun i => !i.wf) = true := by decide

theorem test_ill_formed_tile_port : ([.mtReadStream 0 6, .mtWriteStream 0 6, .feTimeout 0 6, .streamCommandStart 0 6] : List Instr).all (fun i => !i.wf) = true := by decide

theorem test_ill_formed_bank : ([.requestApply 0 8, .trigger 64 true 0, .bankcfgWrite 64 0] : List Instr).all (fun i => !i.wf) = true := by decide

theorem test_ill_formed_core : ([.seqReply 640 0 0, .trapEntry 640] : List Instr).all (fun i => !i.wf) = true := by decide

theorem test_ill_formed_named_entry : ([.launch 4096, .dependenceValidSet 4096 0, .dependenceValidClear 4096 0, .batchCommit 1024 0, .partwsWrite 64 0,
    .limtabWrite 24 0, .hostAccess 0 65 none, .registerWrite 1 0 [0], .registerWrite 0 0 (List.replicate 65 0), .registerWrite 4 0 [], .huskSeal (some 332800), .sensorRefresh [(640, 0)] 0] : List Instr).all (fun i => !i.wf) = true := by decide
theorem test_decode_alu1 :
    means 0x0319D401 none (.aluAdd 17 19 21) ∧
    means 0x0319D402 none (.aluSub 17 19 21) ∧
    means 0x0319D403 none (.aluMul 17 19 21) ∧
    means 0x0319D404 none (.aluMulhs 17 19 21) ∧
    means 0x0319D405 none (.aluMulhu 17 19 21) ∧
    means 0x0319D406 none (.aluDivs 17 19 21) ∧
    means 0x0319D407 none (.aluDivu 17 19 21) ∧
    means 0x0319D408 none (.aluRems 17 19 21) ∧
    means 0x0319D409 none (.aluRemu 17 19 21) ∧
    means 0x0319D410 none (.aluAnd 17 19 21) ∧
    means 0x0319D411 none (.aluOr 17 19 21) ∧
    means 0x0319D412 none (.aluXor 17 19 21) :=
  ⟨rfl, rfl, rfl, rfl, rfl, rfl, rfl, rfl, rfl, rfl, rfl, rfl⟩

theorem test_decode_alu2 :
    means 0x0319D413 none (.aluAndn 17 19 21) ∧
    means 0x0319D420 none (.aluMin 17 19 21) ∧
    means 0x0319D421 none (.aluMax 17 19 21) ∧
    means 0x0319D422 none (.aluMinu 17 19 21) ∧
    means 0x0319D423 none (.aluMaxu 17 19 21) :=
  ⟨rfl, rfl, rfl, rfl, rfl⟩

theorem test_decode_imm :
    means 0x1119C005 none (.addi 17 19 16389) ∧
    means 0x1319C005 none (.andi 17 19 16389) ∧
    means 0x1519C005 none (.ori 17 19 16389) ∧
    means 0x1719C005 none (.xori 17 19 16389) ∧
    means 0x19198025 none (.shli 17 19 37) ∧
    means 0x1B198025 none (.shri 17 19 37) ∧
    means 0x1D198025 none (.sari 17 19 37) :=
  ⟨rfl, rfl, rfl, rfl, rfl, rfl, rfl⟩

theorem test_decode_cmp :
    means 0x0459D401 none (.cmpEq 5 19 21) ∧
    means 0x0459D402 none (.cmpNe 5 19 21) ∧
    means 0x0459D403 none (.cmpLt 5 19 21) ∧
    means 0x0459D404 none (.cmpLtu 5 19 21) ∧
    means 0x0459D405 none (.cmpLe 5 19 21) ∧
    means 0x0459D406 none (.cmpLeu 5 19 21) ∧
    means 0x0459D410 none (.cmpFeq 5 19 21) ∧
    means 0x0459D411 none (.cmpFlt 5 19 21) ∧
    means 0x0459D412 none (.cmpFle 5 19 21) ∧
    means 0x0459D413 none (.cmpFun 5 19 21) :=
  ⟨rfl, rfl, rfl, rfl, rfl, rfl, rfl, rfl, rfl, rfl⟩

theorem test_decode_cnd :
    means 0x0A539401 none (.cndAnd 5 7 5) ∧
    means 0x0A539402 none (.cndOr 5 7 5) ∧
    means 0x0A539403 none (.cndXor 5 7 5) ∧
    means 0x0A539404 none (.cndAndn 5 7 5) ∧
    means 0x0B138008 none (.cndSetg 17 7) ∧
    means 0x0A598009 none (.cndFromg 5 19) ∧
    means 0x0B19D417 none (.cndSel 17 19 21 7) :=
  ⟨rfl, rfl, rfl, rfl, rfl, rfl, rfl⟩

theorem test_decode_fpu1 :
    means 0x0719D701 none (.fpuAdd 17 19 21 3) ∧
    means 0x0719D702 none (.fpuSub 17 19 21 3) ∧
    means 0x0719D703 none (.fpuMul 17 19 21 3) ∧
    means 0x0719D704 none (.fpuDiv 17 19 21 3) ∧
    means 0x07198305 none (.fpuSqrt 17 19 3) ∧
    means 0x0719D706 none (.fpuFma 17 19 21 3) ∧
    means 0x0719D410 none (.fpuMin 17 19 21) ∧
    means 0x0719D411 none (.fpuMax 17 19 21) ∧
    means 0x07198012 none (.fpuAbs 17 19) ∧
    means 0x07198013 none (.fpuNeg 17 19) ∧
    means 0x07198FA0 none (.fpuCvto 17 19 3 3 1) ∧
    means 0x07198F21 none (.fpuCvfrom 17 19 3 3) :=
  ⟨rfl, rfl, rfl, rfl, rfl, rfl, rfl, rfl, rfl, rfl, rfl, rfl⟩

theorem test_decode_fpu2 :
    means 0x07100030 none (.fpuFlags 17) :=
  rfl

theorem test_decode_bit :
    means 0x0919D401 none (.bitShl 17 19 21) ∧
    means 0x0919D402 none (.bitShr 17 19 21) ∧
    means 0x0919D403 none (.bitSar 17 19 21) ∧
    means 0x0919D404 none (.bitRol 17 19 21) ∧
    means 0x0919D405 none (.bitRor 17 19 21) ∧
    means 0x09198010 none (.bitClz 17 19) ∧
    means 0x09198011 none (.bitCtz 17 19) ∧
    means 0x09198012 none (.bitPopc 17 19) ∧
    means 0x09198013 none (.bitBswap 17 19) ∧
    means 0x0919D420 none (.bitExtu 17 19 21) ∧
    means 0x0919D421 none (.bitExts 17 19 21) ∧
    means 0x0919D422 none (.bitIns 17 19 21) :=
  ⟨rfl, rfl, rfl, rfl, rfl, rfl, rfl, rfl, rfl, rfl, rfl, rfl⟩

theorem test_decode_jmp :
    means 0x21700005 none (.br 5 1 1048581) ∧
    means 0x23700005 none (.call 5 1 1048581) ∧
    means 0x24088001 none (.jmpJr 17) ∧
    means 0x25198002 none (.jmpJalr 17 19) ∧
    means 0x24000003 none .jmpRet :=
  ⟨rfl, rfl, rfl, rfl, rfl⟩

theorem test_decode_rep :
    means 0x710C72CE none (.rep 33 35 37 39) :=
  rfl

theorem test_decode_cap :
    means 0x41360001 none (.capMov 9 11) ∧
    means 0x41200002 none (.capNull 9) ∧
    means 0x41375003 none (.capBase 9 11 21) ∧
    means 0x41375004 none (.capLen 9 11 21) ∧
    means 0x41360855 none (.capAnd 9 11 133) ∧
    means 0x40B75876 none (.capTest 5 11 21 135) ∧
    means 0x40133007 none (.capGbase 9 19) ∧
    means 0x40133008 none (.capGlimit 9 19) ∧
    means 0x40133009 none (.capGmeta 9 19) ∧
    means 0x4137500A none (.capLd 9 11 21) ∧
    means 0x4137500B none (.capSt 9 11 21) :=
  ⟨rfl, rfl, rfl, rfl, rfl, rfl, rfl, rfl, rfl, rfl, rfl⟩

theorem test_decode_step :
    means 0x60088001 none (.stepBegin 17) ∧
    means 0x60500002 none (.stepNext 5) ∧
    means 0x60000003 none .stepEnd ∧
    means 0x60088004 none (.stepDone 17) ∧
    means 0x6008CC10 none (.stepSig 17 19) ∧
    means 0x61100011 none (.stepRcv 17) :=
  ⟨rfl, rfl, rfl, rfl, rfl, rfl⟩

theorem test_decode_sys :
    means 0x79180301 none (.sysRd 17 2051) ∧
    means 0x79180302 none (.sysWr 17 2051) ∧
    means 0x78000010 none .sysTret ∧
    means 0x78000020 none .sysHalt ∧
    means 0x78000021 none .sysIdle :=
  ⟨rfl, rfl, rfl, rfl, rfl⟩

theorem test_decode_mem1 :
    means 0x3119E840 none (.memLdH 17 19 13 0 0) ∧
    means 0x3119E880 none (.memLdHs 17 19 13 0 0) ∧
    means 0x3119E8C0 none (.memLdW 17 19 13 0 0) ∧
    means 0x3119E900 none (.memLdWs 17 19 13 0 0) ∧
    means 0x3119E940 none (.memLdD 17 19 13 0 0) ∧
    means 0x3129E980 none (.memLdQ 18 19 13 0 0) ∧
    means 0x3119EA40 none (.memStH 17 19 13 0 0) ∧
    means 0x3119EA80 none (.memStW 17 19 13 0 0) ∧
    means 0x3119EAC0 none (.memStD 17 19 13 0 0) ∧
    means 0x3129EB00 none (.memStQ 18 19 13 0 0) ∧
    means 0x3319E840 none (.rmemLdH 17 19 13 0 0) ∧
    means 0x3319E880 none (.rmemLdHs 17 19 13 0 0) :=
  ⟨rfl, rfl, rfl, rfl, rfl, rfl, rfl, rfl, rfl, rfl, rfl, rfl⟩

theorem test_decode_mem2 :
    means 0x3319E8C0 none (.rmemLdW 17 19 13 0 0) ∧
    means 0x3319E900 none (.rmemLdWs 17 19 13 0 0) ∧
    means 0x3319E940 none (.rmemLdD 17 19 13 0 0) ∧
    means 0x3329E980 none (.rmemLdQ 18 19 13 0 0) ∧
    means 0x3319EA40 none (.rmemStH 17 19 13 0 0) ∧
    means 0x3319EA80 none (.rmemStW 17 19 13 0 0) ∧
    means 0x3319EAC0 none (.rmemStD 17 19 13 0 0) ∧
    means 0x3329EB00 none (.rmemStQ 18 19 13 0 0) :=
  ⟨rfl, rfl, rfl, rfl, rfl, rfl, rfl, rfl⟩

theorem test_decode_amo1 :
    means 0x3519E880 none (.amoAdd 17 19 13 0 0) ∧
    means 0x3519E8C0 none (.amoMin 17 19 13 0 0) ∧
    means 0x3519E900 none (.amoMax 17 19 13 0 0) ∧
    means 0x3519E940 none (.amoAmax 17 19 13 0 0) ∧
    means 0x3519E980 none (.amoAmaxr 17 19 13 0 0) ∧
    means 0x3519E9C0 none (.amoFaddW 17 19 13 0 0) ∧
    means 0x3519EB00 none (.amoFaddH 17 19 13 0 0) ∧
    means 0x3519EA00 none (.amoAnd 17 19 13 0 0) ∧
    means 0x3519EA40 none (.amoOr 17 19 13 0 0) ∧
    means 0x3519EA80 none (.amoXchg 17 19 13 0 0) ∧
    means 0x3519EAC0 none (.amoCas 17 19 13 0 0) ∧
    means 0x3519EC80 none (.amoAddPosted 17 19 13 0 0) :=
  ⟨rfl, rfl, rfl, rfl, rfl, rfl, rfl, rfl, rfl, rfl, rfl, rfl⟩

theorem test_decode_amo2 :
    means 0x3519ECC0 none (.amoMinPosted 17 19 13 0 0) ∧
    means 0x3519ED00 none (.amoMaxPosted 17 19 13 0 0) ∧
    means 0x3519ED40 none (.amoAmaxPosted 17 19 13 0 0) ∧
    means 0x3519EDC0 none (.amoFaddWPosted 17 19 13 0 0) ∧
    means 0x3519EF00 none (.amoFaddHPosted 17 19 13 0 0) ∧
    means 0x3519EE00 none (.amoAndPosted 17 19 13 0 0) ∧
    means 0x3519EE40 none (.amoOrPosted 17 19 13 0 0) :=
  ⟨rfl, rfl, rfl, rfl, rfl, rfl, rfl⟩

theorem test_decode_sync :
    means 0x5A000001 none .syncFenceElem ∧
    means 0x5A000002 none .syncFenceRegion ∧
    means 0x5A000003 none .syncFenceDie ∧
    means 0x5A000004 none .syncFenceModule ∧
    means 0x5A000005 none .syncFenceSystem ∧
    means 0x5A000010 none .syncRbar ∧
    means 0x5A08CC11 none (.syncPhbar 17 19) ∧
    means 0x5A088020 none (.syncSparge 17) :=
  ⟨rfl, rfl, rfl, rfl, rfl, rfl, rfl, rfl⟩

theorem test_decode_eng :
    means 0x52598001 none (.engSteep 5 19) ∧
    means 0x52598002 none (.engMtok 5 19) ∧
    means 0x53288003 none (.engCopy 17) ∧
    means 0x52B9D410 none (.engRo 3 19 21) ∧
    means 0x52D9D411 none (.engSel 1 19 21) ∧
    means 0x52F9D412 none (.engMon 1 19 21) ∧
    means 0x5319D413 none (.engDec 1 19 21) :=
  ⟨rfl, rfl, rfl, rfl, rfl, rfl, rfl⟩

theorem test_decode_rack :
    means 0x5408CC01 none (.rackSave 17 19) ∧
    means 0x5519D402 none (.rackLoad 17 19 21) :=
  ⟨rfl, rfl⟩

theorem test_decode_wait :
    means 0x590C72CE none (.wait 33 35 37 39) :=
  rfl

theorem test_decode_sched :
    means 0x5C088001 none (.schedPitch 17) ∧
    means 0x5C088002 none (.schedClaim 17) ∧
    means 0x5D100003 none (.schedLevel 17) ∧
    means 0x5C08CC04 none (.schedPerfsel 17 19) :=
  ⟨rfl, rfl, rfl, rfl⟩

theorem test_decode_mgmt :
    means 0x7B108301 none (.mgmtDrd 17 131) ∧
    means 0x7B208302 none (.mgmtDwr 18 131) ∧
    means 0x7B100003 none (.mgmtSint 17) ∧
    means 0x7B100010 none (.mgmtCrypto 17) :=
  ⟨rfl, rfl, rfl, rfl⟩
theorem test_decode_li : means 0x0C508000 (some 0xFFFFFFFF) (.liSx 5 0xFFFFFFFF) ∧
    means 0x0DF10000 (some 0x80000001) (.liZx 31 0x80000001) ∧ means 0x0C118000 (some 7) (.liHi 1 7) :=
  ⟨rfl, rfl, rfl⟩

/-- strm: dsc in [24:21], ch in [20:16], a in [15:11], func in [10:6] (08 Table K-84); the second word names the port. -/
theorem test_decode_strm : means 0x50A0A040 (some 0) (.strmDld 5 20) ∧
    means 0x50440080 (some 0x37737400) (.strmBind 2 4 0 3 59 155 5) ∧
    means 0x500000C0 (some 0x37737400) (.strmPbar 3 59 155 5) ∧ means 0x51200100 (some 0) (.strmDinv 9) :=
  ⟨rfl, rfl, rfl, rfl⟩

/-- The worked engine words of 10. -/
theorem test_decode_worked_engines : means 0x52829810 none (.engRo 0 5 6) ∧ means 0x52C29811 none (.engSel 0 5 6) ∧
    means 0x52E29812 none (.engMon 0 5 6) ∧ means 0x53029813 none (.engDec 0 5 6) :=
  ⟨rfl, rfl, rfl, rfl⟩

/-- Bytes lie low first, and what follows a word is left. -/
theorem test_decode_bytes : decode [0x01, 0xA4, 0xB2, 0x02, 9, 9] = .ok (.aluAdd 11 5 9, [9, 9]) ∧
    decode [0x00, 0x00, 0x51, 0x0C, 0x78, 0x56, 0x34, 0x12, 7] = .ok (.liZx 5 0x12345678, [7]) ∧
    decode [0x00, 0x00, 0x51, 0x0C] = .error .short ∧ decode [1, 2, 3] = .error .short :=
  ⟨rfl, rfl, rfl, rfl⟩

/-- A func value that no row has, a zero field that is not zero, a value that an entry does not allow, and an opcode that is
not assigned. -/
theorem test_decode_refuses : decodeWords 0x02B2A40A none = .error (.badWord 0x02B2A40A) ∧
    decodeWords 0x18528044 none = .error (.badWord 0x18528044) ∧ decodeWords 0x78000012 none = .error (.badWord 0x78000012) ∧
    decodeWords 0x305300F2 none = .error (.badWord 0x305300F2) ∧ decodeWords 0 none = .error (.unassignedOpcode 0) :=
  ⟨rfl, rfl, rfl, rfl, rfl⟩


/-! ### States and operands that meet the hypotheses of the statements -/

/-- A capability of a limit, base, rights and object. -/
def cap (limit base : Nat) (rights : BitVec 8) (obj : BitVec 24) : Cap :=
  capMake (BitVec.ofNat 40 limit) (BitVec.ofNat 40 base) rights obj

theorem witness_EncodingsDecodeBack : (Instr.liZx 31 0xFFFFFFFF).wf = true ∧ encode (.liZx 31 0xFFFFFFFF) ≠ [] ∧
    (Instr.memLdQ 30 31 15 2 5).wf = true ∧ encode (.memLdQ 30 31 15 2 5) ≠ [] := by decide +kernel

/-- A word whose func value is in no list. -/
theorem witness_onlyFuncs : fld 0x02B2A40A 31 25 = 0x01#7 ∧ (fld 0x02B2A40A 9 0).toNat = 10 ∧
    decodeWords 0x02B2A40A none = .error (.badWord 0x02B2A40A) ∧ fld 0x0C508040 31 25 ∈ [0x0C#7, 0x0D#7, 0x0E#7, 6] ∧
    fld 0x0C508040 14 6 ≠ 0 := ⟨rfl, rfl, rfl, by decide, by decide⟩

theorem witness_FpuRoundsOnceAndRaisesFlags : 1 ≤ (1 : BitVec 4).toNat ∧ (4 : BitVec 4).toNat ≤ 4 := by decide

/-- A branch to address 0 and to the last word is taken, one below and one past the store traps, and one is not taken; the
jump targets likewise, and a target off a word. -/
theorem witness_BranchesCallsAndJumpsGoToTheirTarget :
    let t (pc : Word) (o : BitVec 21) : Int := pc.toNat + 4 * o.toInt
    (run {}).cr.rdC 0 = true ∧ (run {}).cr.rdC 1 = false ∧ t 8 (-2) = 0 ∧ t 0x3FFF8 1 = 0x3FFFC ∧ t 0 (-1) = -4 ∧
    t 0x3FFFC 1 = 0x40000 ∧ (0x3FFFC : Word).toNat % 4 = 0 ∧ (0x3FFFC : Word).toNat < 0x40000 ∧
    ¬ (0x40000 : Word).toNat < 0x40000 ∧ (2 : Word).toNat % 4 ≠ 0 := by decide +kernel

/-- Formed with DERIVE; ill-formed (BASE over LIMIT, object 0, a reserved bit); without DERIVE; a sum at LIMIT and past it. -/
theorem witness_CapabilityOperationsOfTableK69 :
    let formed (k : Cap) : Bool := k.extractLsb' 112 16 == 0 && decide ((k.extractLsb' 32 40).toNat ≤ (k.extractLsb' 72 40).toNat) &&
      k.extractLsb' 0 24 != 0
    let sum (k : Cap) (a : Nat) := (k.extractLsb' 32 40).toNat + a
    formed (cap 64 16 0xFF 5) = true ∧ (cap 64 16 0xFF 5).getLsbD 29 = true ∧ sum (cap 64 16 0xFF 5) 48 = 64 ∧
    formed (cap 15 16 0xFF 5) = false ∧ formed (cap 64 16 0xFF 0) = false ∧ formed (cap 64 16 0xFF 5 ||| 1 <<< 127) = false ∧
    (cap 64 16 0xDF 5).getLsbD 29 = false ∧ 64 < sum (cap 64 16 0xFF 5) 49 ∧
    (let s := run ((({} : Core).wrK 1 (cap 64 16 0xFF 5)).wrG 3 48)
     let t := after (.capBase 2 1 3) s
     t.cr.pc = s.cr.pc + 4 ∧ s.cr.pc ≠ -4 ∧ s.cr.active = false ∧ s.cr.trapping = none ∧ t.cr.trapping = none ∧
       t.cr.halted = s.cr.halted ∧ (capBase (t.cr.rdK 2)).toNat = 64) := by decide +kernel

/-- A core at the last place of a rep with its word behind it: the last repeat (REMAIN 0 left), the first of 64, and one whose
register number leaves 0 to 31. -/
theorem witness_RepRunsTheNextWordStepped :
    let s (r : Word) := on { core := { pc := 0x3FFF8, remain := r, running := true }, istore := mputN 0x3FFFC 4 0x02B2A401 [] }
    (s 0).cr.pc.toNat + 8 ≤ 0x40000 ∧ (s 0).cr.ops = [] ∧ (s 64).cr.remain.toNat ≤ 63 + 1 ∧
    [(s 0).storeWord 1 0x3FFFC] = encode (.aluAdd 11 5 9) ∧
    (after (.rep 0 1 1 1) (s 0)).cr.past = true ∧ (after (.rep 63 0 0 0) (s 0)).cr.remain = 63 ∧
    ¬ (11 + (63 : Int) * (1 : BitVec 6).toInt < 32) ∧ (after (.rep 63 1 0 0) (s 1)).cr.trapcause.toNat % 256 = 1 := by
  decide +kernel

/-- The step states: none, open at its last count, open with counts left; a signal inside the region and outside it. -/
theorem witness_StepInstructionsFollowTheCounter :
    let st : CurStep := { leaf := 7, trip := #v[1, 0, 0, 0] }
    let s (c : Core) : State := { run c with regions := [{ one with districts := [1, 2] }] }
    (s {}).core ≠ 1023 ∧ (s {}).fleet.trcctl.getLsbD 0 = false ∧
    (s {}).cr.step = none ∧ (s {}).cr.stepcfgHi.extractLsb' 48 2 = (s {}).planeAt 1 ∧
    (s { stepcfgHi := 1 <<< 48 }).cr.stepcfgHi.extractLsb' 48 2 ≠ (s { stepcfgHi := 1 <<< 48 }).planeAt 1 ∧
    (let x := (s { step := some st }).cr
     (∀ j : Fin 4, j < 0 → x.iter[j] = st.trip[j]) ∧ x.iter[(0 : Fin 4)] ≠ st.trip[(0 : Fin 4)]) ∧
    (let x := (s { step := some st, iter := #v[1, 0, 0, 0] }).cr
     ∀ j : Fin 4, x.iter[j] = st.trip[j]) ∧
    (s { doneQ := [3, 7, 7] }).cr.doneQ = [3] ++ 7 :: [7] ∧ (7 : BitVec 24) ∉ [(3 : BitVec 24)] ∧ (s { doneQ := [3] }).cr.doneWait = [] ∧
    ((s { doneQ := [3], doneWait := [(4, 7)] }).settleDone 1).cr.doneQ = [3] ++ 7 :: [] ∧
    (s {}).regionAt 1 = some { one with districts := [1, 2] } ∧ (s {}).cr.ops = [] ∧ ((s {}).coreOf 2).sigQ.length < 8 ∧
    [1, 2].contains 3 = false ∧ (s { sigQ := [(2, 5)] }).cr.sigQ = (2, 5) :: [] := by decide +kernel

theorem witness_SystemRegistersReadAndWrite :
    (run {}).cr.inRep = false ∧ (run {}).cr.level1 = false ∧ (mgmt {}).cr.level1 = true ∧
    (0x7FF#12).toNat < 0x800 ∧ (0x7FF#12).toNat ∉ [0, 1, 2, 3, 4, 0x40] ∧ 0x800 ≤ (0x800#12).toNat ∧ 3 < 4 ∧ 23 < 24 ∧
    (mgmt {}).kiln.modStep < 8 ∧ (0xFFF#12).toNat ∉ [0x800, 0x80B, 0x810, 0x811] ∧ ¬ ((0xFFF#12).toNat < 0xA18) ∧
    vget (run {}).hot ((run {}).core / 40) = false ∧ vget ({ run {} with hot := Vector.replicate 16 true }).hot 0 = true := by
  decide +kernel

/-- A core with a trap frame at the top of its tile, TRAPQ.BASE g tiles on, and an unfinished load. -/
def framed (base : Nat) (c : Core) : State := run { c with trapq := BitVec.ofNat 64 base }

theorem witness_TrapEntryWritesTheFrame :
    let op : MemOp := { id := 1, pc := 8, word := 0x305300E2, addr := 0x40, status := .errored }
    let s := framed 0x5FF80 { ops := [op], ldc := 1 }
    let k : Cause := { cause := 0x15, sub := 2 }
    (s.coreOf 1).active = false ∧ s.mayEnter 1 { cause := 0x01 } = true ∧ (framed 0 {}).mayEnter 1 k = true ∧ (∀ o ∈ (s.coreOf 1).ops, o.status ≠ .sent) ∧
    ((s.coreOf 1).entries { cause := 0x01 }).length = 1 ∧ ({ status := .held } : MemOp).stays { cause := 0x01 } = true ∧
    ({ status := .held } : MemOp).stays k = false ∧ ({ status := .logged } : MemOp).stays k = true ∧
    s.frameLoc 1 (64 + 64 * 1) = some (0, 0x5FF80) ∧ (framed 0x5FFC0 {}).frameLoc 1 64 = some (0, 0x5FFC0) ∧
    s.fleet.trcctl.getLsbD 0 = false := by decide +kernel

theorem witness_DoubleTrapHalts :
    (run { trapcause := 1 <<< 32 }).cr.active = true ∧ (framed 0x5FFC0 {}).cr.active = false ∧
    (framed 0x60000 {}).cr.ops = [] ∧ (framed 0x60000 {}).frameLoc 1 64 = none ∧
    (mgmt { trapcause := 1 <<< 32 }).cr.active = true := by decide +kernel

/-- ACTIVE clear; a frame of one entry as an entry is written (VALID set, a load word, WAITING), one whose entry is not valid. -/
theorem witness_TrapReturnResumes :
    let s (v : Nat) (w : Nat := 0x305300E2) : State := on { core := { running := true, trapcause := 1 <<< 32, trapq := 1 <<< 40 }
                                                            tileMem := mputN 68 4 w (mputN 72 4 v []) }
    let es (v : Nat) (w : Nat := 0x305300E2) := (List.range (s v w).cr.frameCount).filterMap (replayOp (s v w) 1 0 0)
    (run {}).cr.active = false ∧ (s 0).cr.active = true ∧ (s 0).cr.ops = [] ∧
    (s 0).frameLoc 1 (64 + 64 * (s 0).cr.frameCount) = some (0, 0) ∧ (es (2 ^ 31 + 1)).all (·.isSome) = true ∧
    (es (2 ^ 31 + 1)).length = 1 ∧ (es (2 ^ 31 + 1) 0x02B2A401).all (·.isSome) = false ∧
    (∀ i, i < (s 1).cr.frameCount → leNat (((s 1).dist 1).tileRead 0 (64 + 64 * i + 8) 4) < 2 ^ 31) ∧
    (s 0).wakingSpan (elemAt 1 (tileIdx 0)) 0 (64 + 64 * (s 0).cr.frameCount) = false ∧
    (let r : TileReq := { op := 1, feq := 2, offset := 0x70 }
     let d : State := on { core := (s 0).cr, tiles := [(tileIdx 0, { ports := #v[{}, {}, {}, {}, { waiters := [r] }] })] }
     d.wakingSpan (elemAt 1 (tileIdx 0)) 0 (64 + 64 * d.cr.frameCount) = true) := by decide +kernel

theorem witness_IllegalWordsAndFetchesTrap :
    (run { pc := 0x3FFFC }).cr.pc.toNat < 0x40000 ∧ 0x40000 ≤ (run { pc := 0x40000 }).cr.pc.toNat ∧
    (run {}).cr.active = false ∧ (run {}).cr.ops = [] ∧ (run {}).cr.reissue = [] ∧ ((run {}).frameLoc 1 64) = some (0, 0) ∧
    (run {}).wakingSpan (elemAt 1 (tileIdx 0)) 0 64 = false := by
  decide +kernel

/-- Counters at a limit and one past it, zero and not; a signal, a token, a cause, a counter fallen since idle began. -/
theorem witness_WaitIdleAndHalt :
    (run { ldc := 5 }).cr.ldc ≤ (5 : BitVec 6).toNat ∧ ¬ (run { ldc := 6 }).cr.ldc ≤ (5 : BitVec 6).toNat ∧
    (run { sigQ := [(2, 5)] }).cr.sigQ ≠ [] ∧ (run { doneQ := [1] }).cr.doneQ ≠ [] ∧ (run { pending := [{}] }).cr.pending ≠ [] ∧
    (run { ldc := 1, idleSeen := some (2, 0, 0, 0) }).cr.ldc < 2 ∧ (run {}).cr.remote = false ∧
    (run { remote := true }).cr.remote = true ∧ (run { remote := true }).cr.toc = 0 ∧ (run { toc := 1 }).cr.toc ≠ 0 := by decide +kernel

/-- A word, a half word and 16 bytes at the end of the SEQ's own tiles; 8 bytes of an object; a capability with K to store. -/
theorem witness_LoadsAndStoresIssue :
    let s : State := run (((({} : Core).wrK 1 tiles).wrK 2 object).wrG 6 0x7CDFFF0)
    let o := s.cr.rdG 6
    capCause (s.cr.rdK 1) o.toNat 16 (1 ||| 8 ||| 2) = none ∧ o.toNat % 16 = 0 ∧ namesTiles (s.cr.rdK 1) ∧
    s.regionAt 1 = some one ∧ o.toNat / 2 ^ 19 % 2 ^ 18 / 250 = one.districts.idxOf 1 ∧ s.tileAddr 1 o.toNat = some (1, 249, 0x5FFF0) ∧
    s.cr.ldc < 62 ∧ s.cr.ops = [] ∧ s.cr.trapping = none ∧ capCause (s.cr.rdK 2) 0xFFF8 8 1 = none ∧ ¬ namesTiles (s.cr.rdK 2) ∧
    s.core ≠ 1023 ∧ (s.cr.rdK 1).getLsbD 31 = true ∧ (Instr.memLdQ 30 6 1 2 0).wf = true ∧
    (Instr.memStD 31 6 2 0 9).wf = true ∧ ¬ (run { ldc := 62 }).cr.ldc < 62 := by decide +kernel

/-- A region of two districts; an address of the second, whose request leaves the SEQ by link 0, where no buffer has room. -/
def pair : Region := { one with districts := [1, 2], nodes := [{ dist := 1 }, { dist := 2 }] }

def full2 : List Held := [{}, {}]

/-- Two districts of one region, the first with its core. -/
def both (c : Core) (x : District) : State :=
  { districts := [(1, { core := { c with running := true } }), (2, x)], regions := [pair], core := 1, boot := { state := 3 } }

theorem witness_RemoteRequestsAndUpdatesIssue :
    let near := (both {} {}).setDist 1 { core := (({} : Core).wrK 1 (cap 0xFA00000 0 0xFF 0xFFFFFF)).wrG 6 0x7D5FFF0, skid := [] }
    let x := near.cr
    near.core ≠ 1023 ∧ capCause (x.rdK 1) 0x7D5FFF0 16 (1 ||| 8 ||| 2) = none ∧ 0x7D5FFF0 % 16 = 0 ∧ namesTiles (x.rdK 1) ∧
    (near.tileAddr 1 0x7D5FFF0) = some (2, 0, 0x5FFF0) ∧ 0x7D5FFF0 / 2 ^ 19 % 2 ^ 18 / 250 ≠ pair.districts.idxOf 1 ∧
    x.ldc < 62 ∧ x.ops.length < 64 ∧ x.ops = [] ∧ x.trapping = none ∧ near.outOf (520 * 1 + 493) = [] ∧
    (Instr.amoCas 31 6 1 1 0).wf = true ∧ (Instr.rmemStQ 30 6 1 2 0).wf = true ∧
    capCause (x.rdK 1) 0x7D5FFF8 8 1 = none ∧ near.regionAt 1 = some pair := by decide +kernel

/-- One failing check each: form, rights, bounds (one byte past LIMIT), alignment, 8 bytes, another district, PAGE forms. -/
theorem witness_MemoryChecksTrapInOrder :
    capCause 0 0 4 1 = some 0x04 ∧ capCause (cap 64 0 2 5) 0 4 1 = some 0x05 ∧ capCause (cap 64 0 1 5) 61 4 1 = some 0x06 ∧
    capCause (cap 64 0 1 5) 60 4 1 = none ∧ capCause (cap 64 0 1 5) 58 4 1 = none ∧ 58 % 4 ≠ 0 ∧ ¬ namesTiles (cap 64 0 1 5) ∧
    capCause tiles 8 8 1 = none ∧ namesTiles tiles ∧ (2 : BitVec 2) ≠ 0 ∧
    (both {} {}).core ≠ 1023 ∧ (both {} {}).regionAt 1 = some pair ∧ 0x7D00000 / 2 ^ 19 % 2 ^ 18 / 250 ≠ pair.districts.idxOf 1 ∧
    0x7CFFFFC / 2 ^ 19 % 2 ^ 18 / 250 = pair.districts.idxOf 1 := by decide +kernel

theorem witness_FencesAndBarriersIssue :
    let s : State := both {} {}
    let x (c : Core) := (both c {}).cr
    (∀ o ∈ (x {}).ops, o.status = .errored) ∧ (∃ o ∈ (x { ops := [{}] }).ops, o.status ≠ .errored) ∧ s.core ≠ 1023 ∧
    (x { barDone := true }).barDone = true ∧ (x {}).barDone = false ∧ 1024 % 1024 = 0 ∧ 1023 % 1024 ≠ 0 ∧
    (15 : BitVec 4) ∈ (x { phDone := [15] }).phDone ∧ (15 : BitVec 4) ∉ (x {}).phDone ∧
    (15 : BitVec 4) ∈ (x { phArrived := [15] }).phArrived ∧ s.regionAt 1 = some pair ∧ pair.districts.head? = some s.core ∧
    (x { spargeDone := true }).spargeDone = true ∧ (x { step := some {} }).step ≠ none ∧ (x {}).step = none ∧
    (x {}).spargeWait = none ∧ ({ s with core := 2 }).regionAt 2 = some pair ∧ pair.districts.head? ≠ some 2 ∧
    pair.districts ≠ [] := by decide +kernel

/-- The MT of row 0, column 1 of district 1 with port 3 streaming in plane 0, and the descriptors of one granule. -/
def gran1 (dir : BitVec 2) (k : Cap) : Descriptor := { dir := dir, esz := 4, cap := k }

def strmed (c : Core) (q : Option Descriptor) : State :=
  on { core := ({ c with running := true } : Core).wrD 2 q
       images := [(4, { fields := [(36, 1)], resident := true })] }

theorem witness_StreamInstructionsIssue :
    let k : Cap := cap 16 0 0x11 0xFFFFFF
    let s := strmed {} (some (gran1 0 k))
    let e := 521
    let d := gran1 0 k
    s.strmTarget 0 0 27 3 = some (e, 3) ∧ s.strmTarget 0 0 27 6 = none ∧ s.strmTarget 0 19 51 5 = some (520 + 519, 5) ∧
    s.core ≠ 1023 ∧ s.cr.rdD 2 = some d ∧ s.cr.rdD 3 = none ∧ s.cr.ops = [] ∧
    (run { ops := [{ dld := some 2 }] }).cr.ops.any (fun o => o.dld == some 2) = true ∧
    capWellFormed d.cap = true ∧ capWellFormed 0 = false ∧ capRights d.cap &&& 0x11 = 0x11 ∧
    capRights (cap 16 0 1 5) &&& 0x11 ≠ 0x11 ∧ (capBase d.cap).toNat ≤ d.low 0 ∧ d.high 0 ≤ (capLimit d.cap).toNat ∧
    ¬ d.high 1 ≤ (capLimit d.cap).toNat ∧ s.patternFits e 3 d = true ∧ s.planeField 1 1 0 36 0 = 1 ∧
    s.planeField 1 1 0 24 0 ≠ 1 ∧ s.patternFits e 3 { d with esz := 3 } = false ∧ (s.scoreOf e 3).length < 4 ∧
    1 ∉ (s.dist 1).sealed ∧ (∀ o ∈ s.cr.ops, o.status = .errored) ∧ s.cr.cpc < 62 ∧
    (let s := run ((({} : Core).wrK 0 (cap 0x7D00000 0 1 0xFFFFFF)).wrG 4 0x5FFC0)
     capCause (s.cr.rdK 0) 0x5FFC0 64 1 = none ∧ 0x5FFC0 % 16 = 0 ∧ namesTiles (s.cr.rdK 0) ∧
       (∀ i ∈ [0, 1, 2, 3], (s.tileAddr s.core (0x5FFC0 + 16 * i)).isSome = true) ∧
       capCause (s.cr.rdK 0) 0x5FFC8 64 1 = none ∧ 0x5FFC8 % 16 ≠ 0 ∧ capCause (s.cr.rdK 0) 0x7CFFFC8 64 1 = some 0x06) := by
  decide +kernel

/-- Command words at the ends of their ranges, a granted shadow row, and descriptors that a copy and a DEC run take. -/
theorem witness_EngineCommandsIssue :
    let k : Cap := cap 32 0 0x13 0xFFFFFF
    let a (dir : BitVec 2) (fmt : BitVec 4) (n : BitVec 24) : Descriptor :=
      { dir := dir, fmt := fmt, cap := k, cnt := #v[n, 0, 0, 0], str := #v[1, 0, 0, 0] }
    let s : State := { run (((({} : Core).wrD 1 (some (a 0 8 31))).wrD 2 (some (a 1 8 31))).wrD 3 (some (a 1 8 30))) with
                       parts := [(0, { ws := 0x8000000100000000 })] }
    s.core ≠ 1023 ∧ (∀ o ∈ s.cr.ops, o.status = .errored) ∧ s.cr.cpc < 62 ∧ 25 ∉ (s.dist 1).sealed ∧
    (tgetD 0 (s.dist 1).mns).steepQ.length < 4 ∧ s.regionAt 1 = some one ∧ one.part = 0 ∧
    2 ^ 63 ≤ (tgetD 0 s.parts).ws.toNat ∧ (tgetD 0 s.parts).ws.toNat % 2 ^ 18 = 0 ∧
    61440 + 4096 ≤ (tgetD 0 s.parts).ws.toNat / 2 ^ 32 % 2 ^ 18 * 65536 ∧ 61440 % 64 = 0 ∧ 61441 % 64 ≠ 0 ∧
    (0x7FF1 % 16 = 1 ∧ 0x7FF1 < 2 ^ 15) ∧ (31 % 16 = 15 ∧ 17 % 16 = 1 ∧ 0x7F % 16 = 15 ∧ 0x73 % 16 = 3 ∧ 0xF6 % 16 = 6) ∧
    s.cr.rdD 1 = some (a 0 8 31) ∧ s.cr.rdD 2 = some (a 1 8 31) ∧ s.cr.rdD 4 = none ∧ namesTiles k ∧
    (a 0 8 31).check 0 = none ∧ (a 1 8 31).check 0 = none ∧ (a 0 8 32).check 0 = some 0x06 ∧
    (a 0 8 31).elements = (a 1 8 31).elements ∧ (a 0 8 31).elements ≠ (a 1 8 30).elements ∧
    (a 0 0 31).values = (a 1 1 31).values ∧ (a 0 0 31).values ≠ (a 1 1 30).values ∧ 8 ≤ (8 : BitVec 4).toNat ∧
    (s.dist 1).copier.queue.length < 4 ∧ 520 ∉ (s.dist 1).sealed ∧ (tgetD 16 (s.dist 1).decs).queue.length < 4 ∧
    (0x1011 % 16 = 1 ∧ 2 ^ 12 ≤ 0x1011 ∧ 0x1011 < 2 ^ 13 ∧ 0x1011 / 2 ^ 8 % 2 ^ 4 = 0) ∧
    (0x211 % 16 = 1 ∧ 0x211 < 2 ^ 12) := by decide +kernel

/-- A PE of the region, 520; a place that is no PE; a record address off a granule; a reserved bit; both forms of rm. -/
theorem witness_RotationCommandsIssue :
    let s := run {}
    s.core ≠ 1023 ∧ 16 % 16 = 0 ∧ 24 % 16 ≠ 0 ∧ elemOf 0 0 26 = some 520 ∧ idxKind (520 % 520) = .pe ∧
    (∃ g, s.regionAt s.core = some g ∧ 520 / 520 ∈ g.districts) ∧ elemOf 0 0 27 = some 521 ∧ idxKind (521 % 520) ≠ .pe ∧
    (0x0F7F00FF : Word).getLsbD 8 = false ∧ (0x10000011A : Word).getLsbD 8 = true ∧
    (0x2000000000 : Word).getLsbD 37 = true ∧ (0x1000000000 : Word).getLsbD 37 = false :=
  ⟨by decide, by decide, by decide, by decide +kernel, by decide, ⟨one, by decide +kernel, by decide⟩, by decide +kernel,
    by decide, by decide, by decide, by decide, by decide⟩

/-- A valid entry of the region's partition with 2 counts left, with 1, of another partition, and none. -/
theorem witness_SchedulerInstructions :
    let s (p n : Nat) (c : Core) : State := { run c with
      sched := mputN (128 * 4095) 4 (2 ^ 31 + p * 2 ^ 16) (mputN (128 * 4095 + 4) 2 5 (mputN (128 * 4095 + 6) 2 n [])) }
    let entry (t : State) (e off n : Nat) := mgetN (128 * e + off) n t.sched
    (s 0 2 {}).core ≠ 1023 ∧ (s 0 2 {}).regionAt 1 = some one ∧ 2 ^ 31 ≤ entry (s 0 2 {}) 4095 0 4 ∧
    ¬ 2 ^ 31 ≤ entry (s 0 2 {}) 4094 0 4 ∧ entry (s 0 2 {}) 4095 0 4 / 2 ^ 16 % 64 = one.part.toNat ∧
    entry (s 1 2 {}) 4095 0 4 / 2 ^ 16 % 64 ≠ one.part.toNat ∧ 2 ≤ entry (s 0 2 {}) 4095 6 2 ∧
    entry (s 0 1 {}) 4095 6 2 ≤ 1 ∧ (s 0 1 {}).hasInstance 4095 = false ∧ (s 0 1 {}).cr.toc < 62 ∧
    62 ≤ (s 0 1 { toc := 62 }).cr.toc ∧ (after (.schedPitch 0) (s 0 2 {})).cr.toc = 0 := by decide +kernel

/-- The management core and another; a command block at the top of its last tile, one past it, and one at its base. -/
theorem witness_ManagementInstructions :
    let s := mgmt {}
    (run {}).cr.level1 = false ∧ s.cr.level1 = true ∧ s.boot.cbusy = none ∧
    ({ s with boot := { s.boot with cbusy := some [] } }).boot.cbusy.isSome = true ∧
    (let v := 3 * 2 ^ 19 + 0x5FFC0
     v % 16 = 0 ∧ v / 2 ^ 19 < 4 ∧ v % 2 ^ 19 + 64 ≤ 0x60000) ∧ ¬ (0x5FFD0 % 2 ^ 19 + 64 ≤ 0x60000) ∧ ¬ (4 * 2 ^ 19 / 2 ^ 19 < 4) ∧
    (let t := { s with districts := [(1023, { core := s.cr, tileMem := mput 0 1 (mput 8 64 []) })] }
     cryptoErr t (mgets 0 64 (t.dist 1023).tileMem) = 0) ∧ cryptoErr s (mgets 0 64 (s.dist 1023).tileMem) ≠ 0 := by
  decide +kernel

/-- A load of each kind of answer: by the inbox, by a reply token on link 0, by the PORT; an error; an engine's completion. -/
theorem witness_RepliesFinishInstructions :
    let i : Instr := .memLdW 5 6 0 2 2
    let o : MemOp := { id := 3, word := nth 0 (encode i), status := .sent }
    let c (b : List Completion) : Core := { ops := [o], ldc := 1, inbox := b }
    let tok : Token := { kind := 2, channel := 31, data := 9, tag := some (1, 3) }
    let s : State := on { core := c [{ op := some 3, words := [9] }], skid := [(4 * 493 * 32 + 31, [{ tok := tok }])]
                          images := [(4 * 493, { fields := [(7, 0x5000)], resident := true })] }
    let acc : Access := { issuer := .seq 1, op := 3 }
    let p : State := on { core := c [], port := { replyQ := [(0, acc, [9], 0)] } }
    o ∈ (c []).ops ∧ (c []).ops.Pairwise (·.id ≠ ·.id) ∧ (∀ q ∈ (c []).ops, q.status = .sent) ∧ (c []).trapping = none ∧
    i.wf = true ∧ o.dld = none ∧ o.reply = [] ∧
    (s.coreOf 1).inbox = { op := some o.id, counter := .ldc, words := [9] } :: [] ∧ ((after (.seqReply 1 4 0) s).coreOf 1).rdG 5 = 9 ∧
    (p.dist 1).port.replyQ = ((p.distReg 1).incarnation, acc, [9], 0) :: [] ∧ ((after (.seqReply 1 5 0) p).coreOf 1).rdG 5 = 9 ∧
    (c [{ op := some 3, esub := 1 }]).inbox = { op := some o.id, esub := 1 } :: [] ∧ (1 : BitVec 8) ≠ 0 ∧
    (c [{ counter := .cpc }]).inbox = { counter := .cpc } :: [] ∧ (s.dist 1).buf 493 0 31 = [{ tok := tok }] ∧ (s.dist 1).route 493 0 31 = 5 ∧
    493 ∉ (s.dist 1).sealed := by decide +kernel

theorem witness_TrapsEnterWhenRequestsSettle :
    let k : Cause := { cause := 0x15, sub := 2 }
    let e (n : Nat) : MemOp := { id := n, status := .errored, cap := tiles }
    let s (c : Core) := run c
    let two := s { trapping := some k, ops := [e 4, { e 3 with status := .logged }, e 5], pending := [k] }
    (s {}).cr.running = true ∧ (s {}).regionAt 1 = some one ∧ one.gangHalt = false ∧ ((s {}).frameLoc 1 64) = some (0, 0) ∧
    (s { trapping := some k }).cr.trapping = some k ∧ (s { trapping := some k }).mayEnter 1 k = true ∧ k.sync = false ∧
    ({ k with sync := true } : Cause).sync = true ∧ k.opId = none ∧
    (two.mayEnter 1 (e 4).cause = true ∧ two.frameLoc 1 (64 + 64 * 2) = some (0, 0) ∧ (∀ p ∈ two.cr.ops, p.status = .errored →
      p = e 4 ∨ (e 4).id < p.id) ∧ namesTiles (e 4).cap ∧ (e 4).stays (e 4).cause = false ∧ ¬ namesTiles object) ∧
    (s { pending := [k] }).cr.pending = [k] ∧ (s { pending := [k] }).cr.trapping = none ∧ (s {}).cr.spargeWait = none ∧
    (s {}).cr.past = false ∧ (s {}).cr.idleSeen = none ∧ (s {}).cr.ops = [] ∧ (s {}).cr.active = false ∧ (s {}).cr.noInt = false ∧
    (s { trapcause := 1 <<< 32 }).cr.active = true ∧ (s { noInt := true }).cr.noInt = true := by decide +kernel

/-- One member missing; all arrived; a group complete, one short, and with an arrival left over; a slot drained and one not. -/
theorem witness_BarriersCompleteForTheirMembers :
    let s (c d : Core) (r : Region) : State :=
      { districts := [(1, { core := c }), (2, { core := d })], regions := [r], core := 1, boot := { state := 3 } }
    let there : Core := { barArrived := true }
    pair.fires = true ∧ pair.districts.Nodup ∧ (s there {} pair).regionOf 1 = some pair ∧
    (∃ d ∈ pair.districts, ((s there {} pair).coreOf d).halted = false ∧ ((s there {} pair).coreOf d).barArrived = false) ∧
    (∀ d ∈ pair.districts, ¬ (((s there there pair).coreOf d).halted = false ∧ ((s there there pair).coreOf d).barArrived = false)) ∧
    (∃ d ∈ pair.districts, ((s there there pair).coreOf d).barArrived = true) ∧
    (∀ d ∈ pair.districts, ((s there there pair).coreOf d).ops = []) ∧
    (∀ d ∈ pair.districts, ∀ u ∈ [14, 15], (tgetD u ((s there there pair).dist d).mons).armer = none) ∧
    (let r (l : List (Nat × Nat)) := { pair with phase := [(15, l)] }
     let l := [(1, 2), (2, 2), (1, 1)]
     tgetD (15 : BitVec 4).toNat (r l).phase = (1, 2) :: [(2, 2), (1, 1)] ∧ 2 ≤ l.length ∧ l.drop 2 = [(1, 1)] ∧
       ((l.take 2).map (·.1)).Nodup ∧ tgetD (15 : BitVec 4).toNat (r [(1, 2)]).phase = (1, 2) :: [] ∧ [(1, 2)].length < 2) ∧
    (let t := s { spargeWait := some 3 } {} pair
     pair.districts.head? = some 1 ∧ (t.coreOf 1).spargeWait = some 3 ∧ (t.coreOf 1).spargeDone = false ∧
       ∀ d ∈ pair.districts, (t.dist d).drained = true) ∧
    (({ copier := { queue := [{}] } } : District).drained = false) := by decide +kernel

/-- A district whose element of an index has these fields in plane slot 0. -/
def imaged (i : Nat) (f : List (Nat × W32)) (x : District := {}) : District :=
  { x with images := [(4 * i, { fields := f, resident := true })] }

/-- Tokens at a link's channel of an element index. -/
def tokens (i link ch : Nat) (l : List Token) (x : District) : District :=
  { x with skid := [((4 * i + link) * 32 + ch, l.map fun t => { tok := t })] }

/-- A token on the last channel. -/
def t31 (kind : BitVec 3) (data : W32) (marker : BitVec 2 := 0) : Token := { kind := kind, channel := 31, data := data, marker := marker }

/-- Link 3, channel 31 of PE 27 or MT 28, with the route r there. -/
def routed (i r : Nat) (k : Token) (x : District := {}) : State :=
  on (tokens i 3 31 [k] (imaged i [((if i = 27 then 320 else 64) + 31, BitVec.ofNat 32 (4096 * r))] x))

/-- Each route to a link with its neighbour, delivery, no route and one past delivery; a buffer of two; a sealed element; a
token that has not left. -/
theorem witness_RoutersForwardTokens :
    let k := t31 0 9
    let s (i r : Nat) := routed i r k
    (∀ i ∈ [27, 28], (bufAt (s i 1) (520 + i) 3 31 = { tok := k } :: [] ∧ k.channel.toNat = 31 ∧ k.code ≠ 1 ∧
      (s i 1).accepts 1 = true ∧ (s i 1).routeOf (520 + i) 3 31 = 1 ∧ (s i 4).routeOf (520 + i) 3 31 = 4 ∧
      (s i 5).routeOf (520 + i) 3 31 = 5 ∧ (s i 0).routeOf (520 + i) 3 31 = 0 ∧ (s i 6).routeOf (520 + i) 3 31 = 6 ∧
      (s i 5).isSealed (520 + i) = false ∧ (s i 5).carried (520 + i) 31 = false ∧
      (routed i 5 k { sealed := [i] }).isSealed (520 + i) = true ∧
      ∀ r ∈ [1, 2, 3, 4], (neighbour (520 + i) (r - 1)).isSome = true ∧
        ∀ n ∈ (neighbour (520 + i) (r - 1)).toList, (s i r).accepts (n / 520) = true ∧ (bufAt (s i r) n ((r + 1) % 4) 31).length < 2)) ∧
    idxKind (547 % 520) ≠ .mt ∧ idxKind (548 % 520) = .mt ∧
    (let t := on { skid := [((4 * 1 + 2) * 32 + 31, [{}, {}])], outq := [(27, [(0, k)])] }
     2 ≤ (bufAt t 521 2 31).length ∧ neighbour 547 0 = some 521 ∧ t.outOf 547 = [(0, k)] ∧ t.room 547 0 31 = false ∧
       t.room 547 3 31 = true) ∧
    (let t (n : Nat) := on { imaged 27 [(64 + 31, 0x8000), (320 + 23, 0x5000)] with skid := [((4 * 27 + 2) * 32 + 31, List.replicate n {})] }
     ((t 9).dist 1).queuePlaces 27 2 31 = 8 ∧ (bufAt (t 9) 547 2 31).length < 2 + 8 ∧ 2 + 8 ≤ (bufAt (t 10) 547 2 31).length ∧
       ((t 9).dist 1).queuePlaces 27 2 23 = 0) := by decide +kernel

theorem witness_UnacceptableAndUnboundTokensFault :
    let s (k : Token) : State := { routed 27 5 k with parts := [(0, { bindto := 1 })] }
    let u (i : Nat) (k : Token) := on (tokens i 3 31 [k] (imaged i [(if i = 493 then 31 else 95, 0x5000)]))
    (∀ k ∈ [t31 1 0, t31 3 0, t31 7 0], bufAt (s k) 547 3 31 = { tok := k } :: [] ∧ (s k).routeOf 547 3 31 = 5 ∧
      (s k).isSealed 547 = false ∧ (s k).accepts 1 = true ∧ idxKind (547 % 520) = .pe ∧ k.code ≠ 1 ∧ k.kind ≠ 0 ∧ k.kind ≠ 2) ∧
    (∀ i ∈ [26 * 8 + 25, 26 * 13 + 25, 26 * 14 + 25, 26 * 17 + 25], (u i (t31 2 0)).routeOf (520 + i) 3 31 = 5 ∧
      idxKind i ∈ [Kind.ro, .sel, .mon, .dec]) ∧
    (let m (f : List (Nat × W32)) (k : Token) := on (tokens 25 3 31 [k] (imaged 25 (f ++ [(95, 0x5000)])))
     idxKind 25 = .mn ∧ (m [] (t31 4 0)).routeOf 545 3 31 = 5 ∧ (m [] (t31 4 0)).chanField 545 31 0 0 0 ≠ 31 ∧
       (m [] (t31 4 0)).chanField 545 31 0 1 1 ≠ 31 ∧ (m [] (t31 4 0)).chanField 545 31 0 2 2 ≠ 31 ∧
       (m [(0, 31)] (t31 0 0)).chanField 545 31 0 0 0 = 31 ∧ (m [(1, 31)] (t31 4 0)).chanField 545 31 0 1 1 = 31 ∧
       (m [(2, 31)] (t31 0 0)).chanField 545 31 0 2 2 = 31 ∧ (m [(2, 31)] (t31 0 0)).chanField 545 31 0 3 0 ≠ 1) ∧
    (∀ k ∈ [t31 0 0, t31 1 0, t31 2 0], (routed 28 5 k).routeOf 548 3 31 = 5 ∧ (routed 28 5 k).partialAt 548 3 31 = none ∧
      (routed 28 5 k).partialAt 548 4 (32 * 3 + 31) = none ∧ (routed 28 5 k).portField 548 3 0 0 = 0 ∧
      k.data.extractLsb' 28 4 ≠ 15#4 ∧ (routed 28 5 k).portField 548 3 1 0 ≠ 1) ∧
    (u 519 (t31 3 0)).chanField 1039 31 1 31 0 = 0x5000 ∧ (0x5000 : Nat).testBit 15 = false ∧ idxKind 519 = .port ∧
    3 ≤ (t31 3 0).kind.toNat ∧
    (u 493 (t31 0 0)).routeOf (520 + 493) 3 31 = 5 ∧ idxKind 493 = .seq ∧ (t31 0 0).kind ≠ 2 ∧ (t31 0 0).code ≠ 3 ∧
    (∀ k ∈ [t31 0 0, t31 2 0], (s k).regionAt 1 = some one ∧ (tgetD 0 (s k).parts).bindto ≠ 0 ∧ (s k).unbound 547 31 = true) ∧
    (on (imaged 27 [(64 + 31, 0x8000)])).unbound 547 31 = false := by decide +kernel

/-- RECONFIG to slot 3: not resident and not stored, stored, resident; by link 3, delivered, with no route; last and not. -/
theorem witness_ReconfigSwitchesPlanes :
    let k := t31 3 0x01000003
    let x (r : Nat) (b : Bool) (rest : District := {}) : District := tokens 27 3 31 [k] { rest with
      images := [(108, { fields := [(64 + 30, 0x8000), (64 + 31, 0x8000), (320 + 31, BitVec.ofNat 32 (4096 * r + 5 * 256))], resident := true }),
                 (111, { resident := b })] }
    let s (r : Nat) (b : Bool) (rest : District := {}) := on (x r b rest)
    k.code = 1 ∧ bufAt (s 1 true) 547 3 31 = { tok := k } :: [] ∧ (s 1 true).accepts 1 = true ∧ (s 1 true).isSealed 547 = false ∧
    (s 1 true).carried 547 31 = false ∧ (s 1 true).routeOf 547 3 31 = 1 ∧ (s 5 true).routeOf 547 3 31 = 5 ∧
    (s 0 true).routeOf 547 3 31 = 0 ∧ ((x 1 true).image 27 3).resident = true ∧ ((x 1 false).image 27 3).resident = false ∧
    (tget 111 (x 1 false).stored).isSome = false ∧ (tget 111 (x 1 false { stored := [(111, {})] }).stored).isSome = true ∧
    tget 27 (x 1 false).fetching = none ∧ neighbour 547 0 = some 521 ∧ (s 1 true).room 547 0 31 = true ∧
    (s 5 true).holdsReconfig 547 31 = false ∧ (x 5 true).awaited 27 0 = [30, 31] ∧ (x 5 true).owed = [] ∧
    (let took (l : List (Nat × Nat)) := (List.range 30).map (fun c => (c, 1)) ++ l
     let o (l : List (Nat × Nat)) := x 5 true { owed := [(27, [(0, 3)])], recon := [(27, took l)] }
     let after (l : List (Nat × Nat)) (c : Nat) := (tget c (tgetD 27 (o l).recon)).getD 0 + if c = 31 then 1 else 0
     (o []).inert 27 0 = List.range 30 ∧ (List.range 32).map (after []) = List.replicate 30 1 ++ [0, 1] ∧
       (List.range 32).map (after [(30, 1)]) = List.replicate 32 1 ∧ tget 27 (o []).treeHold = none ∧
       (tgetD 27 (o []).owed)[0]? = some (0, 3) ∧ (o []).awaited 27 0 = [30, 31]) ∧
    tget 27 (x 1 false { fetching := [(27, 3)] }).fetching = some 3 ∧ tget 27 (x 1 false).treeHold = none ∧
    (let y := on { images := [(108, { fields := [(256, 0x9F80)], resident := true }), (112, { fields := [(95, 0x5000)], resident := true })] }
     y.edgesOut 547 0 = [(1, 31)] ∧ ∀ p ∈ (y.dist 1).outputs 27 0, p.2 < 32) := by decide +kernel

/-- DONE at a SEQ with room and without; RESUME; SEAL with the incarnation and with another; a cut edge to district 2. -/
theorem witness_ControlTokensReachTheirUnits :
    let k := t31 3 0x03000007
    let s (q : List (BitVec 24)) := on (tokens 493 3 31 [k] (imaged 493 [(31, 0x5000)] { core := { doneQ := q } }))
    bufAt (s []) (520 * 1 + 493) 3 31 = { tok := k } :: [] ∧ (s []).routeOf (520 * 1 + 493) 3 31 = 5 ∧ k.kind = 3 ∧
    k.data.extractLsb' 24 8 = 3#8 ∧ 493 ∉ ((s []).dist 1).sealed ∧ ((s []).coreOf 1).doneQ.length < 16 ∧
    16 ≤ ((s (List.replicate 16 0)).coreOf 1).doneQ.length ∧
    (let h (n : BitVec 24) (i : Issuer) : HeldRead := { acc := { issuer := i }, fsn := n }
     let p := ((on { port := { resumeQ := [5, 6], heldReads := [h 5 (.pe 547), h 6 (.pe 547), h 5 (.seq 1)], accessQ := [{}] } }).dist 1).port
     p.resumeQ = 5 :: [6] ∧ p.heldReads.filter (fun h => decide (h.fsn = 5) && h.acc.issuer.dataClass) = [h 5 (.pe 547)] ∧
       p.accessQ.filter (!·.again) = [{}]) ∧
    (let f : List (Nat × W32) := [(128 + 31, 0x8000), (192 + 7, 0x4000)]
     let t (v : W32) := on (imaged 519 f { port := { seals := [(0, 0, { data := v })] } })
     ((t 0).dist 1).port.seals = (0, 0, { data := 0 }) :: [] ∧ (t 1).endsAtSeq 1 0 0 = false ∧
       (1 : W32).setWidth 16 ≠ ((t 1).distReg 1).incarnation ∧ (0 : W32).setWidth 16 = ((t 0).distReg 1).incarnation ∧
       (t 0).cutIn 1 0 0 = some 31 ∧ (t 0).chanField 1039 31 3 7 0 / 16 ^ 3 % 16 = 4) ∧
    (let m := t31 0 9
     let t : State := { districts := [(1, tokens 519 3 31 [m] (imaged 519 [(31, 0x5000), (64 + 31, 0x8000)])),
                                      (2, imaged 519 [(128, 0x8000), (192, 4)])], regions := [pair], core := 1, boot := { state := 3 } }
     bufAt t 1039 3 31 = { tok := m } :: [] ∧ t.routeOf 1039 3 31 = 5 ∧ t.regionAt 1 = some pair ∧ pair.level ≠ 0 ∧
       (t.chanField 1039 31 1 31 0).testBit 15 = true ∧ m.code ≠ 1 ∧ m.code ≠ 4 ∧ t.farPort pair 0 0 = some (2, 0) ∧
       t.outOf (520 * 2 + 519) = [] ∧ t.chanField 1559 0 3 0 0 % 16 = 4) := by decide +kernel

/-- PE 27 as a rotation head of two slots: admission on channel 1, operands on 2, loop on 3, one token on
each, from link 0; announcements leave by link 0 and the loop by link 1. -/
def headed (h : Head) (toks : List Token) : State :=
  on { imaged 27 [(67, 0x8000), (259, 0x9000), (320, 0x5550), (384, 1), (388, 1), (389, 2), (390, 3)] with
       pes := [(27, { head := h })]
       skid := toks.map fun t => ((4 * 27) * 32 + t.channel.toNat, [{ tok := t }]) }

/-- The same, with no room over link 0 on channel 0. -/
def blocked (h : Head) (toks : List Token) : State :=
  let t := headed h toks
  { t with districts := [(1, { t.dist 1 with skid := ((4 * 1 + 2) * 32, [{}, {}]) :: (t.dist 1).skid })] }

/-- A PE with nothing to fire, and one whose handler of channel 31 has its operand, with an empty pool and one of 1. -/
theorem witness_FiringsConsumeSpendAndEmit :
    let k := t31 0 9
    let s (p : Nat) (x : District) : State := { on x with regions := [{ one with pool := p }] }
    let x := tokens 27 3 31 [k] (imaged 27 [(64 + 31, 0x8000), (320 + 31, 0x5000)])
    idxKind (547 % 520) = .pe ∧ ((s 1 {}).ready 547).isEmpty = true ∧ (s 1 x).regionAt 1 = some { one with pool := 1 } ∧
    one.fires = true ∧ (s 1 x).isSealed 547 = false ∧ (peAt (s 1 x) 547).donePend = none ∧ (s 1 x).fleet.cpst ≠ 1 ∧
    ((s 1 x).ready 547).map (fun q => q.2.2.map (·.1)) = [[31]] ∧ [31].Nodup ∧
    ((s 1 x).ready 547).all (fun q => q.2.2.all fun o => decide (o.1 < 32 ∧ o.2.1 < 4)) = true ∧
    ((s 1 x).ready 547).all (fun q => q.2.1.leaves.toks.isEmpty && q.2.1.leaves.done.isNone) = true ∧
    (let y := tokens 27 3 31 [k] (imaged 27 [(5, 0x04000001), (64 + 31, 0x8000), (256, 0x1000), (320 + 31, 0x5000)])
     ((blocked { slots := [(0, { state := .parked, opv := true })] } []).ready 547).map (·.2.1.rot) = [true] ∧
     ((s 1 y).ready 547).map (fun q => (q.2.1.rot, q.2.1.leaves.toks.map (·.1), q.2.1.leaves.done, ((s 1 y).request 547 q.2.1).isNone)) =
       [(false, [1], none, true)]) := by (intros; repeat' apply And.intro) <;> decide +kernel

/-- A word of every operation of every stage; markers that end a row and that do not; digits well formed, out of range, out of
turn; a reduction stack with room and full; operands of each special kind; edges; a fatal condition. -/
theorem witness_StagesComputeTheirTables :
    let w (op dst sa sb m : W32) : W32 := op <<< 26 ||| dst <<< 20 ||| sa <<< 14 ||| sb <<< 8 ||| m
    let f (ws : List (Nat × W32)) (mrk : BitVec 2) (t : W32 := 0) (pe : Pe := {}) (c : Conds := 0) : Firing :=
      { im := { fields := ws }, h := 0, tch := 0, joins := [1, 2], t := t, j1 := 0, j2 := 0, ph := 0, mrk := mrk, rot := false
        pe := pe, conds := c }
    ((List.range 6).all fun n => (List.range 32).all fun op => swOp ((f [(n, w (BitVec.ofNat 32 op) 32 36 37 0xFF)] 0).word n) == op) = true ∧
    (let g := f [(1, w 1 0 37 0 0x38), (65, 0x0900)] 0
     vceFormat (g.entry 1) = 9 ∧ swSa (g.word 1) = 37 ∧ swSa ((f [(1, w 1 0 38 0 0)] 0).word 1) = 38 ∧ vceFormat ((f [(64, 0x0A00)] 0).entry 0) = 10) ∧
    (∀ m ∈ [1, 2, 3, 4, 8, 9, 10], swMod ((f [(1, w 4 0 0 0 (BitVec.ofNat 32 m))] 0).word 1) % 16 = m) ∧
    ((f [] 1).mrk = 1 ∨ (f [] 1).mrk = 2) ∧ ¬ ((f [] 0).mrk = 1 ∨ (f [] 0).mrk = 2) ∧
    ((0x020A : W32) &&& 0xFFFF00E0 = 0 ∧ ((0x020A : W32).setWidth 5).toInt = 10 ∧ (((0x020A : W32) >>> 8).setWidth 8).toInt = 2 ∧
      10 < ((0x020B : W32).setWidth 5).toInt ∧ ((0x0215 : W32).setWidth 5).toInt < -10 ∧ (0x0220 : W32) &&& 0xFFFF00E0 ≠ 0 ∧
      ((0x0216 : W32).setWidth 5).toInt = -10) ∧
    (let g (n : Nat) := f [(3, w 7 35 36 0 31)] 0 0 { redStack := #v[[], [], [], List.replicate n (0, 0)] }
     swDst ((g 0).word 3) = 35 ∧ (vget (g 31).pe.redStack 3).length < 32 ∧ 32 ≤ (vget (g 32).pe.redStack 3).length ∧
       swMod ((g 0).word 3) % 4 = 3 ∧ swMod ((f [(3, w 5 32 36 0 2)] 0).word 3) % 4 = 2 ∧ swDst ((f [(3, w 5 32 36 0 2)] 0).word 3) = 32) ∧
    (val32 0x7FA00000 = .nan true ∧ val32 0x7FC00000 = .nan false ∧ val32 0x7F800000 = .inf false ∧ val32 0xFF800000 = .inf true ∧
      val32 0x3F800000 = .fin false (2 ^ 23) (2 ^ 23) ∧ val32 0x80000000 = .fin true 0 (2 ^ 149) ∧ val32 0xBF800000 = .fin true (2 ^ 23) (2 ^ 23)) ∧
    ((0x007FFFFF : W32) &&& 0x7F800000 = 0 ∧ (0x00800000 : W32) &&& 0x7F800000 ≠ 0 ∧ (0x80800000 : W32).msb = true ∧
      (0x80000000 : W32) &&& 0x7FFFFFFF = 0 ∧ vget ({} : Pe).oneHot 0 = false ∧ vget ({ oneHot := Vector.replicate 8 true } : Pe).oneHot 0 = true) ∧
    (∀ m ∈ [1, 2, 4, 8], ((List.range 4).filter fun e => m.testBit e && (4 != 10 || decide (e < 2))).length = 1) ∧
    ((List.range 4).filter fun e => (3 : Nat).testBit e && (2 != 10 || decide (e < 2))) = [0, 1] ∧
    (let g := f [(5, w 1 0 0 0 1), (48, 16)] 2 0 {} 0x18
     g.conds &&& BitVec.ofNat 5 (g.im.field 0 48 0) ≠ 0 ∧ g.state = .running ∧ swOp (g.word 5) ≠ 0 ∧ g.mrk = 2) ∧
    ((31 : W32).toNat ≤ 32 ∧ (1 : W32).toNat < 2 ^ (32 - (31 : W32).toNat) ∧ 2 ^ (31 - (31 : W32).toNat) ≤ (1 : W32).toNat) ∧
    ((32 : W32).toNat ≤ 32 ∧ (0 : W32).toNat < 2 ^ (32 - (32 : W32).toNat)) := by decide +kernel

theorem witness_RotationHeadsVisitTheirSlots :
    let s := headed {} []
    let live : Slot := { state := .live }
    let loop (m : BitVec 2) : Token := { channel := 3, marker := m }
    let got (t : State) (ch : Nat) := (t.deliveredAt 547 ch Token.isOperand).map (·.1)
    (∀ c ∈ (s.headCfg 547).toList, c.admitCh = 1 ∧ c.opnd = 2 ∧ c.loopCh = 3 ∧ c.initReg < 32 ∧ c.lockstep = false ∧
      s.loopReturn 547 c 0 = none ∧
      ∀ m ∈ [0, 3], ((headed { slots := [(0, live)] } [loop m]).loopReturn 547 c 0).map (·.1) = some 0) ∧
    (s.headCfg 547).isSome = true ∧ s.regionAt 1 = some one ∧ one.fires = true ∧ (peAt s 547).head.mode = .running ∧
    (peAt s 547).head.ann = [] ∧ (peAt s 547).head.job = none ∧ (peAt s 547).head.slot 0 = {} ∧ got s 1 = none ∧
    (let o (p : BitVec 6) (v : Bool) := headed { slots := [(0, { live with opv := v })] } [{ channel := 2, phase := p }]
     got (o 0 true) 2 = some 0 ∧ ((peAt (o 0 true) 547).head.slot 0).opv = true ∧ ((peAt (o 0 false) 547).head.slot 0).opv = false ∧
       ((peAt (o 1 false) 547).head.slot 1).state = .empty ∧ ¬ (2 : BitVec 6).toNat < (peAt (o 2 false) 547).head.curs) ∧
    (∀ m ∈ [0, 1], got (headed {} [{ channel := 1, marker := m }]) 1 = some 0) ∧
    ((peAt (headed { slots := [(0, { state := .parked })] } []) 547).head.slot 0).state = .parked ∧
    ((peAt (headed { slots := [(0, { state := .draining })] } []) 547).head.slot 0).state = .draining ∧
    (let t := { s with districts := (520 / 520, { s.dist 1 with skid := [((4 * 1 + 2) * 32, [{}, {}])] }) :: [] }
     t.room 547 0 0 = false) ∧
    (let b := blocked { slots := [(0, live)] } [loop 3]
     let full (t : State) : State := { t with districts := [(1, { t.dist 1 with skid := ((4 * 28 + 3) * 32, [{}, {}]) :: (t.dist 1).skid })] }
     b.room 547 0 0 = false ∧ (peAt b 547).donePend = none ∧ b.accepts 1 = true ∧ b.fleet.cpst ≠ 1 ∧ 0 < one.pool ∧
       (∀ c ∈ (b.headCfg 547).toList, c.edge 2 = (0, 0) ∧ b.lineFree 547 c = true ∧ b.clear 547 (c.edge 3) = true ∧
         (full b).clear 547 (c.edge 3) = false ∧ let f := c.firing (peAt b 547) 0 live 0
         b.edgeRoom 547 { f with pe := (peAt b 547).clearRow c.h (f.word 3), conds := 0, state := .error 0 } = true) ∧
       ((blocked { slots := [(0, { state := .parked, opv := true })] } []).chosen 547).map (fun q => (q.2.1.rot, q.2.1.broken)) =
         some (true, false)) := by decide +kernel

/-- A record of two slots: as saved, with a bad magic, with three slots in a tag too long, and jobs of 1, 2, 64 and 65 slots. -/
theorem witness_RotationsSaveAndLoad :
    let j (l : Bool) (a : BitVec 37) (n : Nat) : RackJob := { load := l, addr := a, slots := n, core := 1 }
    let s (h : Head) (w : Nat) (tag : Nat := 0) : State := { headed h [] with
      districts := [(1, { (headed h []).dist 1 with tileMem := mputN 0x5FFC0 4 w (mputN (0x5FFC0 + 52) 4 tag []) })] }
    let good := s { mode := .saved, queue := [j true 0x5FFC0 2] } 0xA7C30102
    let word (t : State) (o n : Nat) := mgetN (0x5FFC0 + o) n (t.dist 1).tileMem
    let head (t : State) := (peAt t 547).head
    (head good).queue = j true 0x5FFC0 2 :: [] ∧ (head good).job = none ∧ good.planeField 1 27 6 0 0 = 1 ∧
    good.isSealed 547 = false ∧ (on {}).planeField 1 27 6 0 0 ≠ 1 ∧ (head good).mode = .saved ∧
    (head (s { queue := [j false 0x5FFC0 2] } 0)).mode = .running ∧ (j false 0x5FFC0 2).badBits = false ∧
    good.tileAddr 1 0x5FFC0 = some (1, 0, 0x5FFC0) ∧ good.tileFits 1 0 0x5FFC0 (32 + 12 * 2) = true ∧
    good.tileFits 1 0 0x5FFD0 (32 + 12 * 2) = false ∧ good.tileFits 1 0 0x5FFF0 32 = false ∧ good.tileAddr 1 0x7D00000 = none ∧
    word good 0 4 / 2 ^ 7 = 0xA7C30100 / 2 ^ 7 ∧ word good 0 4 % 128 = 2 ∧ word good 8 8 < 2 ^ 2 ∧ word good 16 8 < 2 ^ 2 ∧
    (∀ q, q < 2 → word good (32 + 8 * 2 + 4 * q) 4 < 2 ^ 24) ∧ word (s {} 0xA7C30041) 0 4 / 2 ^ 7 ≠ 0xA7C30100 / 2 ^ 7 ∧
    ¬ word (s {} 0xA7C30102 0x1000000) (32 + 8 * 2 + 4) 4 < 2 ^ 24 ∧ good.planeField 1 27 6 2 1 = 1 ∧
    (j true 0x5FFC0 2).remap = none ∧ good.recordWaits 1 0x5FFC0 (32 + 12 * 2) = false ∧
    (head (s { mode := .loading, job := some (j true 0 2), queue := [j true 0x5FFC0 2] } 0)).job.isSome = true ∧
    (on { sealed := [27] }).isSealed 547 = true ∧ (j false 0 0).count < 2 ∧
    (j true 0 1).slots < 2 ∧ (2 ≤ (j true 0 64).slots ∧ (j true 0 64).slots ≤ 64) ∧ 64 < (j true 0 65).slots ∧
    (let t := s { mode := .saving, job := some { j false 0x5FFC0 0 with count := 2 }, slots := [(0, { state := .live })] } 0
     (head t).job = some { j false 0x5FFC0 0 with count := 2 } ∧ (head t).mode = .saving ∧ (head t).curs ≤ 2 ∧ (head t).curs ≤ 64 ∧
       ∀ q ∈ (head t).slots, q.2.state ≠ .draining ∧ q.2.state ≠ .faulted) := by decide +kernel

/-- MT 28 (548) with a request of its SEQ and one at port 3; the checks of operation, range and CFGBASE each at its edge. -/
def tiled (t : Tile) (f : List (Nat × W32)) : State := on { imaged 28 f with tiles := [(28, t)] }

/-- One port of a tile. -/
def port (p : Fin 5) (x : TilePort) : Tile := { ports := (Vector.replicate 5 {}).set p x }

theorem witness_TileRequestsAreAccepted :
    let r (op : BitVec 4) (w : BitVec 2) (o : BitVec 19) : TileReq := { op := op, width := w, offset := o, origin := .seq 3 }
    let s (q : TileReq) : State := tiled { seqQ := [q] } []
    let ok := s (r 0 2 0x5FFF0)
    idxKind (548 % 520) = .mt ∧ ok.isSealed 548 = false ∧
    (∀ p : Fin 5, (tileAt ok 548).ports[p].waiters = [] ∧ (tileAt ok 548).ports[p].stream.since = none) ∧
    (tileAt ok 548).seqQ = r 0 2 0x5FFF0 :: [] ∧ (r 0 2 0x5FFF0).origin = .seq 3 ∧ (tileAt ok 548).ports[(4 : Fin 5)].comparator.length < 8 ∧
    (8 ≤ (tileAt (tiled (port 4 { comparator := List.replicate 8 {} }) []) 548).ports[(4 : Fin 5)].comparator.length) ∧
    (r 0 2 0x5FFF0).offset.toNat / 16 < ok.planeField 1 28 0 62 0x6000 ∧ (r 0 2 0x5FFF0).offset.toNat < 0x60000 ∧
    ¬ (r 0 2 0x60000).offset.toNat < 0x60000 ∧ (tiled {} [(62, 0x5FFF)]).planeField 1 28 0 62 0x6000 = 0x5FFF ∧
    (tileAt ok 548).ports[(4 : Fin 5)].replies = [] ∧
    (let w : W32 := 0x0105FFFC
     let t := on { imaged 28 [(36, 2), (95, 0x5000)] with skid := [((4 * 28 + 3) * 32 + 31, [{ tok := t31 1 w }])] }
     bufAt t 548 3 31 = { tok := t31 1 w } :: [] ∧ t.routeOf 548 3 31 = 5 ∧ t.partialAt 548 4 (32 * 3 + 31) = none ∧
       t.partialAt 548 3 31 = none ∧ w.extractLsb' 28 4 = (0 : BitVec 4) ∧ w.extractLsb' 24 2 = (1 : BitVec 2) ∧
       w.extractLsb' 19 4 = (0 : BitVec 4) ∧ t.portField 548 3 0 0 ≠ 0 ∧ t.portField 548 3 9 0 = 0 ∧
       (tiled {} []).portField 548 3 0 0 = 0 ∧ (0xF0000000 : W32).extractLsb' 28 4 = (15 : BitVec 4)) := by decide +kernel

/-- One request in the comparator, or waiting, of granule 0x5FFF, full and empty; replies that hold it; a time-out. -/
theorem witness_TileOperationsFollowTableK29 :
    let r (op : BitVec 4) (fe : BitVec 2) : TileReq :=
      { op := op, width := 1, feq := fe, offset := 0x5FFFC, origin := .seq 3, operands := [7], rep := true }
    let s (q : TilePort) (full : List Nat) : State := on { tiles := [(28, port 4 q)], full := full }
    let gran := granKey (tileOrd 28) 0x5FFF
    let cmp (q : TileReq) : TilePort := { comparator := [q], replies := [(q, none)] }
    let wait (q : TileReq) : TilePort := { waiters := [q], replies := [(q, none)] }
    idxKind (548 % 520) = .mt ∧ (s (cmp (r 0 1)) []).isSealed 548 = false ∧ (r 0 1).offset.toNat < 0x60000 ∧
    (r 1 2).operands.length = 1 ∧ (r 0 1).offset.toNat % 4 = 0 ∧ (r 0 1).error = 0 ∧
    (∀ p : Fin 5, (tileAt (s (cmp (r 0 1)) []) 548).ports[p].waiters = [] ∧ (tileAt (s (cmp (r 0 1)) []) 548).ports[p].stream.since = none ∧
      (tileAt (s (cmp (r 0 1)) []) 548).ports[p].comparator = if p = 4 then [r 0 1] else []) ∧
    gran ∉ ((s (cmp (r 0 1)) []).dist 1).full ∧ gran ∈ ((s (cmp (r 0 1)) [gran]).dist 1).full ∧
    ((r 1 2).op = 1 ∧ (r 1 2).feq = 2) ∧ (tileAt (s (cmp (r 0 1)) []) 548).ports[(4 : Fin 5)].replies = [(r 0 1, none)] ∧
    (∀ p : Fin 5, (tileAt (s (wait (r 0 1)) []) 548).ports[p].stream.since = none ∧
      (tileAt (s (wait (r 0 1)) []) 548).ports[p].waiters = if p = 4 then [r 0 1] else []) ∧ (r 0 1).feq ≠ 0 ∧
    (∀ p : Fin 5, (s (cmp (r 0 1)) []).streamWants 548 p.val = none) ∧
    (s (wait (r 0 1)) []).planeField 1 28 0 61 1000 ≠ 0 ∧ (on (imaged 28 [(61, 0)])).planeField 1 28 0 61 1000 = 0 := by
  decide +kernel

/-- Port 3 of MT 28 as a read stream at the last granule of its pattern and past its window, as a write stream, and with
commands; the PORT with a command. -/
theorem witness_TileStreamsMoveGranules :
    let f (dir : W32) (lo : W32) : List (Nat × W32) := [(36, 1), (37, dir), (38, lo), (88, 5)]
    let s (dir : W32) (q : StreamRun) (toks : List Token) : State :=
      on { imaged 28 (f dir 0) with tiles := [(28, port 3 { stream := q })]
                                    skid := if toks = [] then [] else [((4 * 28 + 3) * 32, toks.map fun t => { tok := t })] }
    let a : StreamRun := { active := true }
    let n : Nat := ((neighbour 548 3).getD 0)
    idxKind (548 % 520) = .mt ∧ (s 0 a []).isSealed 548 = false ∧ (s 0 a []).outOf 548 = [] ∧ n = 547 ∧
    (let t := on { imaged 28 (f 0 0) with tiles := [(28, port 3 { stream := a })], skid := [((4 * 27 + 1) * 32, [{}, {}])] }
     t.room 548 3 (t.streamChan 548 3).toNat = false ∧ (t.pattern 548 3).fe = 0 ∧ t.isWriteStream 548 3 = false ∧
       (tileAt t 548).ports[(3 : Fin 5)].stream.active = true ∧ (t.pattern 548 3).gran 0 = 0 ∧ t.portField 548 3 9 0 = 0 ∧
       t.portField 548 3 10 0x5FFF = 0x5FFF ∧ (0 : Nat) + 1 = ((t.pattern 548 3).cnt0 + 1) * ((t.pattern 548 3).cnt1 + 1)) ∧
    (let t := on { imaged 28 [(36, 1), (45, 1)] with tiles := [(28, port 3 { stream := a })] }
     ¬ (t.portField 548 3 9 0 : Int) ≤ (t.pattern 548 3).gran 0) ∧
    (s 1 {} []).isWriteStream 548 3 = true ∧ (s 1 { buf := [1, 2, 3] } []).isWriteStream 548 3 = true ∧
    (∀ m ∈ [0, 1, 2, 3], ((s 1 {} [{ data := 9, marker := m }]).streamInput 548 3).map (·.1) = some 0) ∧
    (let c : StreamCmd := {}
     let t (q : StreamRun) (c : StreamCmd) := on { tiles := [(28, port 3 { stream := q, score := [c] })] }
     (tileAt (t a c) 548).ports[(3 : Fin 5)].score = c :: [] ∧ (tileAt (t a c) 548).ports[(3 : Fin 5)].stream.active = true ∧
       (tileAt (t {} c) 548).ports[(3 : Fin 5)].stream.active = false ∧ ({ c with bar := true } : StreamCmd).bar = true) ∧
    idxKind (1039 % 520) = .port ∧ ((on { port := { score := [{}] } }).dist 1).port.score.drop 0 = {} :: [] ∧
    (let q : Port := { score := [{}, { bar := true }], closing := [(1, 0, 0)] }
     q.score.drop q.closing.length = { bar := true } :: [] ∧ q.closing ≠ [] ∧ q.stream.active = false) ∧
    (∀ o : Fin 5, (tileAt (s 0 a []) 548).ports[o].comparator = [] ∧ (o ≠ 3 → (tileAt (s 0 a []) 548).ports[o].stream.active = false)) := by decide +kernel

/-- An engine unit of district 1: its routes from link 0 deliver channels 0 to 2, and the tokens stand there. -/
def unitAt (i : Nat) (x : District) (f : List (Nat × W32) := []) (toks : List Token := []) : State :=
  on { x with images := [(4 * i, { fields := f ++ [(64, 0x555)], resident := true })]
              skid := toks.map fun t => ((4 * i) * 32 + t.channel.toNat, [{ tok := t }]) }

/-- A unit with a token that has no room to leave by link 3 on channel 0. -/
def stuck (i : Nat) (x : District) : State :=
  on { x with outq := [(i, [(3, {})])], skid := [((4 * (i - 1) + 1) * 32, [{}, {}])] }

/-- A matrix node with a control token taken. -/
def node (w : W32) (m : Mn := {}) : State := unitAt 25 { mns := [(0, { m with cur := some { tok := { kind := 4, data := w } } })] }

/-- No control token waits, a bad one (OP 0 and 8), SETZP from a SEQ; each operation in hand; row words whole and one short of
it; an error word; the shadow filling, empty and full; both pairs of formats; poison. -/
theorem witness_MatrixNodesExecuteControlTokens :
    let row (n : Nat) (mk : BitVec 2 := 0) : Mn := { rowbuf := List.replicate n { tok := { marker := mk, data := 5 } } }
    let mul (k a w : Nat) : W32 := BitVec.ofNat 32 (2 ^ 27 + (k - 1) * 2 ^ 21 + 3 * 2 ^ 15 + a * 2 ^ 8 + w * 16)
    let head (s : State) := (s.inputHead 545 0 0 fun t => t.kind == 4).map fun q => (q.1, q.2.1)
    let wait (d : W32) : State := unitAt 25 {} [] [{ kind := 4, data := d }]
    idxKind (545 % 520) = .mn ∧ (node 0).regionAt 1 = some one ∧ one.fires = true ∧ (node 0).isSealed 545 = false ∧
    (node 0).fleet.cpst ≠ 1 ∧ ([0, 0x40000000, 0x38000000, 0x08000000].all fun d => head (wait d) == some (0, 0) &&
      ((wait d).mn 545).cur == none && ((wait d).mn 545).mtokQ == []) = true ∧ (0x38000000 : W32) = 7#5 ++ 0#27 ∧
    (let s := unitAt 25 { mns := [(0, { mtokQ := [{ cmd := 0x38000000 }] })] }
     (s.mn 545).cur = none ∧ head s = none ∧ (s.mn 545).rowbuf = [] ∧ s.inputHead 545 1 1 Token.isData = none ∧
       (s.mn 545).mtokQ = { cmd := 0x38000000 } :: []) ∧ 0 < one.pool ∧ (wait 0).outOf 545 = [] ∧
    ((stuck 25 {}).mn 545).cur = none ∧ ((stuck 25 {}).drain 545).outOf 545 ≠ [] ∧
    (mul 64 8 8).extractLsb' 27 5 = (1 : BitVec 5) ∧ ((mul 64 8 8).extractLsb' 21 6).toNat + 1 = 64 ∧
    ((node (mul 64 8 8) (row 16)).mn 545).rowbuf.length = (64 + 3) / 4 ∧
    (∀ k ∈ ((node (mul 64 8 8) (row 16)).mn 545).rowbuf, k.tok.marker ≠ 3) ∧ ((mul 64 8 8).extractLsb' 8 4).toNat = 8 ∧
    ((mul 64 8 8).extractLsb' 4 4).toNat = 8 ∧ (row 16).actPoison = none ∧ (row 16).zpPoison = none ∧
    (∀ p ∈ [(1, 1), (7, 7)], (pairElems p.1 p.2 64).isSome = true ∨ (pairElems p.1 p.2 6).isSome = true) ∧
    (((row 1 3).rowbuf.find? fun k => k.tok.marker == 3).map fun k => k.tok.data) = some 5 ∧
    ({ row := some (List.replicate 64 0, 8) } : Mn).row = some (List.replicate 64 0, 8) ∧ (List.replicate 64 (0 : Byte)).length ≤ 64 ∧
    (node 0x18000000 { shState := .filling }).shadowHead 545 = none ∧ ((node 0x18000000 { shState := .full }).mn 545).shState ≠ .filling ∧
    (unitAt 25 {} [(3, 1)] [{ channel := 2 }]).shadowHead 545 ≠ none ∧
    (0x301F0000 : W32).extractLsb' 27 5 = (6 : BitVec 5) ∧ ((0x301F8000 : W32).extractLsb' 15 6).toNat = 63 ∧
    ((0x30000000 : W32).extractLsb' 15 6).toNat = 0 ∧ (node 0 {}).outOf 545 = [] := by decide +kernel

theorem witness_ShadowPlanesFillByTokenOrSteep :
    let s (m : Mn) (mk : BitVec 2) : State := unitAt 25 { mns := [(0, m)] } [(3, 1)] [{ channel := 2, marker := mk, data := 7 }]
    let got (t : State) := (t.inputHead 545 2 2 Token.isData).map fun q => (q.1, q.2.1)
    (∀ mk ∈ [0, 1, 2, 3], got (s {} mk) = some (2, 0) ∧ (s {} mk).chanField 545 2 0 3 0 = 1) ∧
    (let m : Mn := { shState := .filling, shByToken := true, shCount := 1023 }
     ((s m 0).mn 545).shState = .filling ∧ ((s m 0).mn 545).shCount + 1 = 1024 ∧ 1022 + 1 < 1024) ∧
    ((s {} 0).mn 545).shState = .empty ∧ ((s {} 0).mn 545).shCount = 0 ∧ ((s {} 0).mn 545).steepQ = [] ∧
    ((s { shState := .full } 0).mn 545).shState = .full ∧
    (unitAt 25 { mns := [(0, { steepQ := [{}] })] }).shadowHead 545 = none ∧
    ((unitAt 25 { mns := [(0, { steepQ := [{}] })] }).mn 545).steepQ = {} :: [] ∧
    ((unitAt 25 { mns := [(0, { shState := .filling, steepQ := [{}] })] }).mn 545).shByToken = false := by decide +kernel

/-- Reorder unit 8 (index 233): no tensor, one open, one whole; a shape of one and the identity of 1,024; a bad one. -/
theorem witness_ReorderElementsPermuteTensors :
    let e := 520 + 233
    let s (b : Ro) (toks : List Token := []) (x : District := {}) : State := unitAt 233 { x with ros := [(8, b)] } [] toks
    let whole : RoTensor := { entries := [{ data := 7 }] }
    let start : RoTensor := { shape := { cnt := #v[1, 0, 0] } }
    let count (q : RoShape) : Nat := (q.cnt[0].toNat + 1) * (q.cnt[1].toNat + 1) * (q.cnt[2].toNat + 1)
    let got (t : State) := (t.inputHead e 0 0 Token.isData).map fun q => (q.1, q.2.1)
    idxKind (e % 520) = .ro ∧ (s {}).regionAt 1 = some one ∧ one.fires = true ∧ ((stuck 233 {}).drain e).outOf e ≠ [] ∧
    (s {}).isSealed e = false ∧ (s {}).fleet.cpst ≠ 1 ∧
    (∀ m ∈ [0, 2, 3], got (s {} [{ marker := m }]) = some (0, 0)) ∧ ((s {}).ro e).tensors = [] ∧ ((s {}).ro e).queue = [] ∧
    ((s { tensors := [start] }).ro e).tensors = [start] ∧ start.err = none ∧ start.entries.length < count start.shape ∧
    ¬ whole.entries.length < count whole.shape ∧ ((s { tensors := [whole, start] }).ro e).tensors = [whole, start] ∧
    (s {}).roShape e = { cnt := (s {}).roShape e |>.cnt, str := (s {}).roShape e |>.str } ∧ (s {}).outOf e = [] ∧
    whole.sent + 1 = count whole.shape ∧ ({ start with err := some (1, 0) } : RoTensor).err = some (1, 0) ∧
    (let k : EngCmd := { cmd := 0x11, arg := 0x10000000000 ||| 0xFFC00 }
     ((s { queue := [k] }).ro e).queue = k :: [] ∧ k.cmd.extractLsb' 0 4 = (1 : BitVec 4) ∧ k.arg.extractLsb' 10 10 = (1023 : BitVec 10)) ∧
    ((2 : Word).extractLsb' 0 4 = (2 : BitVec 4)) ∧ (∀ x ∈ [whole], x.sent = 0) ∧ (∃ x ∈ [{ start with sent := 1 }], x.sent ≠ 0) ∧
    (s {}).room e ((s {}).inField e 0 0 1 0) ((s {}).inField e 0 0 2 0) = true ∧
    ((s {} [] { skid := [] }).ro e).shape = none := by decide +kernel

/-- The two hypotheses on a shape at one element: its one index is below the count, and every index is hit. -/
theorem witness_reorder_shape_of_one : ((1 : Nat) ≤ 1024) ∧ (∀ n, n < 1 → 0 % 1024 < 1) ∧
    ∀ j, j < 1 → ∃ n, n < 1 ∧ 0 % 1024 = j := ⟨by decide, by decide, fun j h => ⟨0, by decide, by omega⟩⟩

/-- Selection unit 12 (index 337): a key and a weight; a full set; the four commands; rank at the last place and past it; the
values 0, 1 and one past. -/
theorem witness_SelectionEnginesAnswerQueries :
    let e := 520 + 337
    let s (q : Sel) (f : List (Nat × W32) := []) (toks : List Token := []) : State := unitAt 337 { sels := [(12, q)] } f toks
    let got (t : State) (w : Nat) := (t.inputHead e w w Token.isData).map fun q => (q.1, q.2.1)
    let done : Sel := { keys := [(0x3F800000, false)], keyEnd := true, queue := [{ cmd := 1 }] }
    idxKind (e % 520) = .sel ∧ (s {}).regionAt 1 = some one ∧ one.fires = true ∧ (s {}).isSealed e = false ∧
    ((s { done with errored := true }).sel e).errored = true ∧ ((s done).sel e).errored = false ∧ (∀ m ∈ [0, 2, 3], got (s {} [] [{ marker := m }]) 0 = some (0, 0)) ∧
    got (s {} [(3, 1)] [{ channel := 1 }]) 1 = some (1, 0) ∧ (s {} [(3, 1)]).selField e 3 = 1 ∧ (s {}).selField e 3 = 0 ∧
    (s {}).selField e 2 = 0 ∧ (s {} [(2, 10)]).selField e 2 = 10 ∧ ((s {}).sel e).keyEnd = false ∧ ((s {}).sel e).absorb = false ∧
    ((s {}).sel e).keys.length < 4096 ∧ (List.replicate 4096 ((0 : W32), false)).length = 4096 ∧
    ((s done).sel e).queue = { cmd := 1 } :: [] ∧ ((s done).sel e).keyEnd = true ∧
    (s done).resultArea 1 ((s done).selField e 4) ((s done).selField e 5) 1 = some (1, 0) ∧
    (s done [(5, 0x5FFF)]).resultArea 1 0 0x5FFF 1 = some (1, 0) ∧ (s done).resultArea 1 0 0x6000 1 = none ∧
    (s done).resultArea 1 0 0x5FDF 33 = some (1, 0) ∧ (s done).areaWaking 1 0 0 1 = false ∧
    ((List.range done.keys.length).filter fun i => (nth i done.keys).2 = false) = [0] ∧
    ([0, 0x3F800000, 0x80000000].all fun v => match val32 v with
      | .fin neg num den => (neg == false || num == 0) && decide (num ≤ den)
      | _ => false) = true ∧
    (match val32 0x3F800001 with
      | .fin _ num den => decide (den < num)
      | _ => false) = true ∧ badWeight 0x3F800000 = false := by decide +kernel

theorem witness_MonitorCommandsTakeEffect :
    let e := 520 + 389
    let s (c : Word) : State := unitAt 389 { mons := [(14, { queue := [{ cmd := c, arg := 0xFF }] })] }
    idxKind (e % 520) = .mon ∧ (s 1).regionAt 1 = some one ∧ one.fires = true ∧ (s 1).isSealed e = false ∧ (s 1).fleet.cpst ≠ 1 ∧
    ([1, 2, 0x73, 0x74, 0x75, 0x76, 0xF6, 0x77].all fun c => ((s c).mon e).queue == { cmd := c, arg := 0xFF } :: []) = true ∧
    ((0xF6 : Word).getLsbD 7 = true ∧ (0x76 : Word).getLsbD 7 = false) ∧
    (s 0x77).resultArea 1 ((s 7).monField e 3) ((s 7).monField e 4) 3 = some (1, 0) ∧ (s 7).resultArea 1 0 0x5FFE 3 = none ∧
    (s 7).resultArea 1 0 0x5FFD 3 = some (1, 0) ∧ (s 7).areaWaking 1 0 0 3 = false := by decide +kernel

/-- The block of the example in 10: CALL, E4M3, 16 bytes raw, coded as a STORED block of 16 bytes; and its parts. -/
def stored16 (crc flags : Nat) : List Byte :=
  leBytes 2 0xD3C5 ++ [1, 0x20] ++ leBytes 4 16 ++ leBytes 4 16 ++ leBytes 8 0 ++ leBytes 4 flags ++ leBytes 4 crc ++ leBytes 4 0

def raw16 : List Byte := List.replicate 16 0x2A

theorem witness_DecompressionRunsReleaseWholeBlocks :
    let e := 520 + 441
    let k : Cap := cap 0x7D00000 0 0x13 0xFFFFFF
    let src : Descriptor := { cap := k, cnt := #v[47, 0, 0, 0], str := #v[1, 0, 0, 0] }
    let dst : Descriptor := { dir := 1, cap := k, cnt := #v[15, 0, 0, 0], str := #v[1, 0, 0, 0] }
    let cmd : EngCmd := { cmd := 0x211, src := some src, dst := some dst, core := 1 }
    let s (x : Dec) : State := unitAt 441 { decs := [(16, x)] }
    let j (b : List Byte) : DecJob := { cmd := cmd, buf := b, srcPos := 48 }
    let block (crc : Nat) (flags : Nat := 1) := stored16 crc flags ++ raw16
    let f (b : List Byte) (o n : Nat) := leNat ((b.drop o).take n)
    idxKind (e % 520) = .dec ∧ (s {}).regionAt 1 = some one ∧ one.fires = true ∧ (s {}).outOf e = [] ∧
    ((stuck 441 {}).drain e).outOf e ≠ [] ∧ (j []).ready.isNone = true ∧
    ((({ j [] with ready := some (.inl 0x43) } : DecJob).ready.bind fun r => r.getLeft?) = some 0x43) ∧
    ((({ j [] with ready := some (.inr (true, raw16)) } : DecJob).ready.bind fun r => r.getRight?) = some (true, raw16)) ∧
    ((List.replicate 48 (0 : Byte)).length = 32 + (16 + 15) / 16 * 16) ∧
    (let t (route : W32) : State := on { imaged 27 [(320, route)] with skid := [((4 * 27) * 32, [{ tok := { tag := decTag e (j []) } }])] }
     (t 0x5).decAbroad e (j []) true = true ∧ (t 0x5).decAbroad e (j []) false = false ∧ (t 0x1).decAbroad e (j []) false = true) ∧ ((s { queue := [cmd] }).dec e).job = none ∧
    ((s { queue := [cmd] }).dec e).queue = cmd :: [] ∧ ((s { job := some (j []) }).dec e).job = some (j []) ∧
    (j []).cmd.src = some src ∧ src.elements * src.size ≤ (j []).srcPos ∧
    (0 < (List.replicate 31 (0 : Byte)).length ∧ (List.replicate 31 (0 : Byte)).length < 32) ∧
    f (block 0) 0 2 = 0xD3C5 ∧ f (block 0) 2 1 = 1 ∧ f (block 0) 3 1 / 16 ∈ [2, 4] ∧ f (block 0) 4 4 = 16 ∧ f (block 0) 8 4 = 16 ∧
    f (block 0) 12 8 = 0 ∧ f (block 0) 20 4 ∈ [1, 3] ∧ f (block 0 3) 20 4 = 3 ∧ f (block 0) 28 4 = 0 ∧
    (block 0).length = 32 + (16 + 15) / 16 * 16 ∧ f (block (crc32c raw16)) 24 4 = crc32c raw16 ∧ crc32c raw16 ≠ 0 ∧
    (match parseBlock ((block (crc32c raw16)).take 32) with
      | .ok _ => true
      | .error _ => false) = true ∧
    (match parseBlock (List.replicate 32 0) with
      | .ok _ => false
      | .error _ => true) = true ∧
    cmd.dst = some dst ∧ 0 + raw16.length ≤ dst.elements * dst.size ∧ (cmd.cmd.getLsbD 12 = false ∧ (0x1011 : Word).getLsbD 12 = true) ∧
    (s {}).engineLogged 1 (.dec e) = false ∧
    (let t := s { job := some { j [] with raw := raw16, last := true } }
     t.decAbroad e (j []) true = false ∧ namesTiles dst.cap ∧ dst.fe = 0 ∧ dst.addr 0 = 0 ∧ t.tileAddr 1 0 = some (1, 0, 0) ∧
       t.tileFits 1 0 0 1 = true ∧ t.areaWaking 1 0 0 1 = false ∧ 0 % 16 + raw16.length ≤ 16 ∧
       ∀ i, i < raw16.length → dst.addr (0 + i) = dst.addr 0 + i) := by decide +kernel

/-- A copy of two bytes at its first and last element: from a place no tile has, from an empty granule, plain, and converting. -/
theorem witness_CopiesMoveElements :
    let k : Cap := cap 0x7D00000 0 0x13 0xFFFFFF
    let a (fmt : BitVec 4) (esz : BitVec 3) (fe : BitVec 2) (st : BitVec 40) : Descriptor :=
      { fmt := fmt, esz := esz, fe := fe, start := st, cap := k, cnt := #v[1, 0, 0, 0], str := #v[2 ^ esz.toNat, 0, 0, 0] }
    let c : EngCmd := { src := some (a 8 0 0 0), dst := some (a 8 0 0 32) }
    let s (p : Nat) : State := on { copier := { queue := [c], srcPos := p * 1, dstPos := p * 1 } }
    (let w (b : List Byte) (o : List Byte) : Copy := { queue := [c], inb := b, outb := o, srcPos := 2, dstPos := o.length }
     let t (x : Copy) := (on { copier := x }).dist 1
     (t (w [7, 8] [])).copier.inb = [7, 8] ∧ (a 8 0 0 0).size ≤ (w [7] []).inb.length ∧ (a 8 0 0 0).bytes ≤ (w [7] []).srcPos ∧
       (a 8 0 0 32).run 0 16 = [32, 33] ∧ ([] ++ [7]).length < ((a 8 0 0 32).run 0 16).length ∧
       ([] ++ [7]).length = ((a 8 0 0 32).run 1 16).length ∧ (a 8 0 2 32).fe = 2 ∧ ([7, 8].length ≠ (a 8 0 0 0).size) ∧
       ([7].length = (a 8 0 0 0).size) ∧ (a 8 0 0 0).run 0 16 = [0, 1] ∧ (a 8 0 0 0).size ≤ ((a 8 0 0 0).run 1 16).length ∧
       granKey 0 2 ∈ (({ full := [granKey 0 2] } : District)).full ∧ ∀ i, i < 2 → nth i ((a 8 0 0 32).run 0 16) = (a 8 0 0 32).byteAt 0 + i) ∧
    (s 1).regionAt 1 = some one ∧ one.fires = true ∧ seqIdx ∉ ((s 1).dist 1).sealed ∧ 520 ∉ ((s 1).dist 1).sealed ∧
    ((s 1).dist 1).copier = { queue := c :: [], srcPos := 1 * (a 8 0 0 0).size, dstPos := 1 * (a 8 0 0 32).size } ∧
    namesTiles k ∧ 1 < (a 8 0 0 0).elements ∧ 1 + 1 = (a 8 0 0 0).elements ∧ (a 8 0 0 0).elements = (a 8 0 0 32).elements ∧
    (s 1).tileAddr 1 ((a 8 0 0 0x7CFFFFF).addr 1).toNat = none ∧ (s 1).tileAddr 1 33 = some (1, 0, 33) ∧ (s 1).tileFits 1 0 33 1 = true ∧
    (s 1).areaWaking 1 0 2 1 = false ∧ granKey 0 0 ∉ ((s 1).dist 1).full ∧ (a 8 0 1 0).fe = 1 ∧ (a 8 0 0 0).size ∈ [1, 2, 4, 8, 16] ∧
    (s 0).engineLogged 1 (.copier 1) = false ∧ (a 0 2 0 0).addr 0 % (a 0 2 0 0).size = 0 ∧ (4 : BitVec 4).toNat ≤ 4 ∧
    ({ a 0 2 0 0 with cnt := #v[0, 0, 0, 0] } : Descriptor).elements = 0 + 1 := by decide +kernel

/-- A stream with an ADDR; its cursor at the first and the last index; the reserved and the widest fields; the plane slot that is
active in a started region and one that is not. -/
theorem witness_ConfigurationWordsBuildAPlane :
    let c : CfgStream := { words := [0], slot := some 3, home := some 1, cursor := some 519 }
    let s (c : CfgStream) (x : District := {}) : State := on { x with cfg := c }
    ((s c).dist 1).cfg.await = false ∧ ({} : CfgStream).words = [] ∧ c.words ≠ [] ∧ c.high = none ∧ ((s c).regionAt 1).isSome = true ∧
    elemOf 0 19 51 = some (520 + 519) ∧ (520 + 519) / 520 = 1 ∧ elemOf 15 100 0 = none ∧ (elemOf 0 0 0).any (fun e => e / 520 != 1) = true ∧
    c.slot = some 3 ∧ (2 : BitVec 2) ≠ 3 ∧ c.home = some 1 ∧ ({} : CfgStream).slot = none ∧ ({} : CfgStream).home = none ∧
    ({} : CfgStream).cursor = none ∧ c.cursor = some 519 ∧ 519 < 519 + (1 : BitVec 8).toNat ∧
    519 + (0 : BitVec 8).toNat ≤ 519 ∧ (idxKind 519).fieldWidth 0 31 = some 16 ∧ (idxKind 519).fieldWidth 0 32 = none ∧
    (idxKind 27).fieldWidth 6 11 = none ∧ (idxKind 28).fieldWidth 0 2 = some 2 ∧ fieldAssigned (520 * 1 + 28) 0 2 2 = true ∧
    fieldAssigned (520 * 1 + 28) 0 2 3 = false := by decide +kernel

theorem witness_commit :
    let s (x : District) : State := on x
    let c : CfgStream := { words := [0], slot := some 3, home := some 1 }
    (idxKind 27).fieldWidth 6 0 = some 1 ∧ (1 : W32).toNat < 2 ^ 1 ∧ 2 ^ 1 ≤ (2 : W32).toNat ∧ (idxKind 27).lastPage = some 6 ∧
    (7 : W32).toNat > 6 ∧ (4 : BitVec 6) ∉ [(1 : BitVec 6), 2, 3] ∧ ((s {}).dist 1).treeHold = [] ∧ ((s {}).dist 1).cfgHeld = [] ∧
    (s {}).imagesOk 1 3 (c.images {}) = true ∧ (s {}).slotBusy 1 3 = false ∧ (s {}).slotBusy 1 0 = true ∧ c.words.length < 49152 ∧
    ({ c with errors := [7], slot := none } : CfgStream).errors = 7 :: [] := by decide +kernel

theorem witness_too_many_words : 49152 ≤ (List.replicate 49152 (0 : W32)).length := Nat.le_of_eq List.length_replicate.symm

/-- Two resident regions with two numbers; limit rows that fit at the very inlet and flow, and not; a report that has come. -/
theorem witness_KilnFollowsItsSchedule :
    let row (t f : Nat) : BitVec 64 := BitVec.ofNat 64 (2 ^ 63 + f * 2 ^ 12 + t)
    let k : Kiln := { limtab := [(0, row 255 4095), (23, row 0 0)] }
    let fits (inlet flow : BitVec 16) (medium n : Nat) : Bool := let v := tgetD (8 * medium + n) k.limtab
      v.getLsbD 63 && decide (inlet.toInt ≤ 8 * (v.toNat % 2 ^ 8 : Nat) ∧ v.toNat / 2 ^ 12 % 2 ^ 12 ≤ flow.toNat)
    [one, { one with loadId := 2 }].Pairwise (fun a b => a.loadId ≠ b.loadId) ∧ fits 2040 4095 0 0 = true ∧ fits 2041 4095 0 0 = false ∧
    fits 2040 4094 0 0 = false ∧ fits 0 0 2 7 = true ∧ (∀ j, j < 7 → fits 0 0 2 j = false) ∧ (2 : BitVec 4).toNat < 3 ∧
    3 ≤ (3 : BitVec 4).toNat ∧ (∀ n, n < 8 → fits 2041 0 0 n = false) ∧
    ({ lastReport := some 5, stale := false } : Kiln).lastReport = some 5 ∧ ({} : Kiln).lastReport = none ∧ one.saved = false ∧
    (let s (t : BitVec 16) : State := { on {} with regs := [(1, { temp := t })] }
     let tcrit := ({ (on {}).kiln with limKey := 0, limNow := tgetD 0 (on {}).kiln.limtab }).limits.tcrit
     (s 0).regions = [one] ∧ (∀ d, d < 640 → decide (tcrit < ((s 0).distReg d).temp.toInt) = ((s 0).distReg d).crit) ∧
       tcrit < ((s 0x7FFF).distReg 1).temp.toInt ∧ ((s 0x7FFF).distReg 1).crit = false ∧ (s 0).nextPower ≤ (s 0).nextBoost) := by
  decide +kernel

/-- A hash command, a verification, a report, an extension and a key; empty flash, in which neither image is one. -/
theorem witness_ManagementRegistersAndBoot :
    let s : State := State.reset
    let up : State := { s with boot := { s.boot with state := 3 } }
    let b (o : Nat) : List Byte := BitVec.ofNat 8 o :: List.replicate 63 0
    (0x8000000000000000 : Word).getLsbD 63 = true ∧ s.boot.goready = false ∧ 24 ≤ 24 ∧ 23 < 24 ∧ 639 < 640 ∧ 0 < 639 ∧
    (s.distReg 639).retired = false ∧ (s.distReg 639).retiring = false ∧
    (({ s with regs := [(1, { retiring := true })] }).distReg 1).retiring = true ∧ (∀ r ∈ s.regions, 1 ∉ r.districts) ∧
    mgetN 0 4 s.flash ≠ 0x45574B47 ∧ mgetN (2 ^ 32) 4 s.flash ≠ 0x45574B47 ∧
    mgetN 0 4 (mputN 0 4 0x45574B47 []) = 0x45574B47 ∧ (∀ o ∈ [1, 2, 3, 4, 5], leNat (((b o).drop 0).take 1) = o) ∧
    s.boot.state = 1 ∧ up.boot.state ≠ 1 ∧ up.boot.state ≠ 4 ∧ up.boot.attSt ≠ 1 ∧
    ({ up with boot := { up.boot with attSt := 1 } }).boot.attSt = 1 ∧ ({ s with boot := { s.boot with state := 4 } }).boot.state = 4 ∧
    s.boot.cbusy = none ∧ leNat ((([3, 0, 0, 0] ++ leBytes 4 384 : List Byte).drop 4).take 4) = 384 ∧
    vget ({ cbusy := some (b 3) } : Boot).ideKeys 7 = 0 := by decide +kernel

/-- Registers at the ends of their ranges, a doorbell of each answer, a batch number that follows and one that does not,
entries valid, to be refused and to become valid. -/
theorem witness_HostWritesTakeEffect :
    let s : State := on {}
    let bell (p d : Nat) : BitVec 64 := BitVec.ofNat 64 (p * 2 ^ 58 + d)
    let lines (ctrl : Nat) : List Host.Cell := mputN (128 * 4095) 4 ctrl (mputN (128 * 4095 + 8) 4 1 (mputN (128 * 4095 + 16) 2 0xFFFF []))
    s.boot.state ≠ 1 ∧ State.reset.boot.state = 1 ∧ (∃ r ∈ s.regions, r.part.toNat = 0) ∧ (∀ r ∈ s.regions, r.part.toNat ≠ 63) ∧
    s.bindTarget 0 = none ∧ s.bindTarget (BitVec.ofNat 64 (26 * 2 ^ 39 + 31 * 2 ^ 32 + 0x8B06)) = some 520 ∧
    (bell 0 640).extractLsb' 10 48 = (0 : BitVec 48) ∧ 640 ≤ ((bell 0 640).extractLsb' 0 10).toNat ∧ ((bell 0 0).extractLsb' 0 10).toNat = 0 ∧
    ((bell 0 1).extractLsb' 0 10).toNat = 1 ∧ (bell 0 1).extractLsb' 58 6 = one.part ∧ s.regionAt 1 = some one ∧
    (∀ k ∈ (s.coreOf 1).pending, k.cause ≠ 0x15 ∨ k.sub ≠ 2) ∧ (∀ r ∈ s.regions, 1 ∈ r.districts → r.part ≠ 63) ∧
    (let t : State := { s with regions := [{ one with saved := true, status := .saved }] }
     t.regionAt 1 = none ∧ (∀ r ∈ t.regions, r.saved = true ∧ r.part = 0 ∧ 1 ∈ r.districts) ∧ (1, (0 : BitVec 6)) ∉ t.hostif.bellHeld) ∧
    (1 : BitVec 64) = BitVec.ofNat 64 (mgetN (0x80000 + 256 * 1023) 8 s.sched) + 1 ∧
    (2 : BitVec 64) ≠ BitVec.ofNat 64 (mgetN (0x80000 + 256 * 1023) 8 s.sched) + 1 ∧
    (mgetN (128 * 4095) 4 (lines (2 ^ 31))).testBit 31 = true ∧ (mgetN (128 * 4095) 4 (lines 0)).testBit 31 = false ∧
    (let t : State := { s with sched := lines 0 }
     ({ t with sched := mputN (128 * 4095) 6 0 t.sched }).depCheck 4095 = some one) ∧
    ({ s with sched := mputN (128 * 4095) 6 0 s.sched }).depCheck 4095 = none ∧
    (s.hostif.bind = none ∧ s.hostif.unload = none ∧ ({ bind := some 1, unload := some 1 } : HostRegs).bind = some 1 ∧ (1 : BitVec 64) ≠ 2) ∧
    (4 ≠ 8 ∧ 0x6004 % 8 ≠ 0 ∧ 63 < 64 ∧ 639 < 640 ∧ 0x17FFF < 0x18000 ∧ (0, 0x6008) ≠ (0, 0x6000)) ∧
    63 % 64 + 1 ≤ 64 ∧ (2 ^ 40 - 1) + 1 ≤ 2 ^ 40 ∧ 9 % 8 ≠ 0 ∧ 0x9000 ≤ 0x9000 := by decide +kernel

theorem witness_CountersCaptureAndTracesObserve :
    let s : State := on {}
    let covers (v : BitVec 64) (d : Nat) : Bool := decide (d < 640 ∧ (v.extractLsb' 32 10).toNat ≤ d ∧
      d ≤ (v.extractLsb' 16 10).toNat) && !(s.distReg d).retired
    let v : BitVec 64 := BitVec.ofNat 64 (1 * 2 ^ 32 + 1 * 2 ^ 16)
    let rec4 : List Host.Cell := mputN 0 4 26 (mputN 8 4 1 [])
    s.boot.state ≠ 1 ∧ (0x8000000000000003 : BitVec 64).getLsbD 63 = true ∧ s.fleet.ctrq = none ∧
    (0x8000000000000003 : BitVec 64).extractLsb' 0 2 = 3#2 ∧ (0x8000000000000002 : BitVec 64).extractLsb' 0 2 ≠ 3#2 ∧
    (let t : State := { s with host := rec4 }
     mgetN 4 4 t.host = 0 ∧ mgetN 12 4 t.host = 0 ∧ mgetN 8 4 t.host ≠ 0 ∧ mgetN 0 4 t.host / 2 ^ 8 % 256 = 0 ∧
       elemOf 0 0 26 = some 520 ∧ idxKind (520 % 520) = .pe ∧ t.regionAt (520 / 520) ≠ none) ∧
    s.fleet.perfsel = [] ∧ ({ s with fleet := { perfsel := [(1000, v)] } }).fleet.perfsel = [(1000, v)] ∧
    covers v 1 = true ∧ covers v 0 = false ∧ covers v 2 = false ∧ s.fleet.trcsamp = 0 ∧
    ({ s with fleet := { trcctl := 0x11, trcsamp := 1 } }).fleet.trcctl.getLsbD 0 = true ∧
    (s.districts.filter fun q => q.2.core.running).length ≤ 2 ^ 4 := by decide +kernel

/-- A husk of an element, of a SEQ and of the region; a soft one; a sealed element; one edge that leaves the husk. -/
theorem witness_HusksSealWhatTheyReach :
    let g : Edge := { src := 547, dst := 549, ch := 5, plane := 1, sout := 0 }
    let x : District := { active := [(32 * 29 + 5, 1)], images := [(109, { fields := [(256, 0x9280)], resident := true })] }
    let r : Region := { one with edges := [g], leaves := [{ id := 7, node := 0, elems := [547] }], entry := some 3, trigger := some (2, 0) }
    let s (h : List Husk) (x : District := {}) : State := { on x with regions := [r], husks := h }
    let h (e : Nat) (b : Bool) : Husk := { code := 3, elem := e, region := b }
    (s []).husks = [] ∧ (s [h 547 false]).husks = h 547 false :: [] ∧ (s []).regionAt (547 / 520) = some r ∧
    (s []).regionOf r.loadId = some r ∧ r.status = .running ∧ idxKind (547 % 520) ≠ .seq ∧ idxKind (1013 % 520) = .seq ∧
    (s []).isSealed 547 = false ∧ (s [] { sealed := [27] }).isSealed 547 = true ∧ r.component 0 547 = [547] ∧
    (s [] x).edgesFrom r [547] = [g] ∧ g.lvc = none ∧ (s [] x).edgeLegs g = [(1, 5)] ∧
    ((s []).dist 1).sealed.contains 520 = false ∧ r.entry.isSome = true ∧ r.trigger = some (2, 0) := by decide +kernel

/-- A load of 64 zero bytes is refused, whether the link fails its read or not. -/
theorem witness_LoadOfZerosIsRefused : ((on {}).plan (parseLoadCmd
    (leBytes 8 0 ++ leBytes 8 64 ++ leBytes 8 64 ++ [0, 0] ++ leBytes 2 1 ++ List.replicate 36 0))).toBool = false := by
  unfold State.plan State.placement State.readFile
  generalize Config.linkFails (on {}).tick = v
  cases v <;> decide +kernel

/-- Command words good and bad, an unload of an idle region, a trigger record at its limits, a bank's first record. That a load
succeeds rests on what Birgil answers, which the model leaves open (log 80): no state shows it. -/
theorem witness_LoadsUnloadsAndTriggers :
    let s : State := on {}
    let idle : State := { s with regions := [{ one with status := .idle }] }
    let b (len dist : Nat) : List Byte := leBytes 8 0 ++ leBytes 8 len ++ leBytes 8 64 ++ [0, 0] ++ leBytes 2 dist ++ List.replicate 36 0
    let f (b : List Byte) (o n : Nat) : Nat := leNat ((b.drop o).take n)
    s.boot.state = 3 ∧ s.hostif.loadBusy = false ∧ 64 % 64 = 0 ∧ 1 % 64 ≠ 0 ∧ s.hostif.loadcmd = none ∧
    f (b 64 640) 26 2 = 640 ∧ f (b 64 639) 26 2 = 639 ∧ f (b 63 1) 8 8 < 64 ∧ f (b 63 1) 25 1 = 0 ∧ f (b 63 1) 30 34 = 0 ∧
    (match s.plan (parseLoadCmd (b 63 1)) with
      | .error _ => true
      | .ok _ => false) = true ∧
    idle.regionOf 1 = some { one with status := .idle } ∧ (2 ^ 32 : Nat) ≤ (0x100000000 : BitVec 64).toNat ∧ s.regionOf 2 = none ∧
    s.regionOf 1 = some one ∧ one.status ≠ .idle ∧ s.hostif.unload = none ∧ ({ unload := some 1 } : HostRegs).unload = some 1 ∧
    (let w : BitVec 512 := BitVec.ofNat 512 (4095 + 6 * 2 ^ 16 + 60 * 2 ^ 64)
     let g (o n : Nat) : Nat := (w.extractLsb' (8 * o) (8 * n)).toNat
     g 0 2 < 4096 ∧ g 2 1 ≤ 6 ∧ g 3 1 = 0 ∧ g 56 8 = 0 ∧ ∀ i, i < g 2 1 → g (8 + 8 * i) 2 % 4 = 0 ∧ g (8 + 8 * i) 2 ≤ 60 ∧ g (10 + 8 * i) 2 = 0) ∧
    ({ cfg := 0x8000 } : Bank).cfg.getLsbD 15 = true ∧ 256 ≤ (({ tail := 255 } : Bank).tail - ({ progress := 0xFFFFFFFF } : Bank).progress).toNat ∧
    (let lines (n : Nat) : List Host.Cell := mputN 0 4 (2 ^ 31) (mputN 4 2 5 (mputN 6 2 n (mputN 8 4 1 [])))
     let t (n : Nat) (x : State) : State := { x with sched := lines n, banks := [(0, { cfg := 0x8000, fifo := [(0, List.replicate 64 0, false)], tail := 1 })] }
     let k := tgetD 0 (t 1 s).banks
     k.taken ≠ k.tail ∧ k.fifo = [(k.taken, List.replicate 64 0, false)] ∧ s.hostif.rr = 0 ∧ s.gang.part = none ∧
       (mgetN 0 4 (t 1 s).sched).testBit 31 = true ∧ mgetN 0 4 (t 1 s).sched / 2 ^ 16 % 64 = k.cfg.toNat / 2 ^ 8 % 64 ∧
       mgetN 6 2 (t 1 s).sched = 1 ∧ 1 < mgetN 6 2 (t 2 s).sched ∧ (∀ r ∈ idle.regions, ¬ (r.entry = some 0 ∧ r.status ≠ .idle)) ∧
       (∃ r ∈ [{ one with entry := some 0 }], r.entry = some 0 ∧ r.status ≠ .idle) ∧ mgetN 19 1 (t 1 s).sched < 255) := by
  decide +kernel

/-- No entry names a region where the scheduler's memory holds nothing. -/
theorem witness_no_entry_names_a_region : ∀ e, e < 4096 →
    ((mgetN (128 * e) 4 (on {}).sched).testBit 31 && BitVec.ofNat 32 (mgetN (128 * e + 8) 4 (on {}).sched) == 1) = false := by
  intro e _
  simp [on, mgetN, mgets, mget, leNat, tget]

/-- A state of one district with nothing in its caches meets `uncached`. -/
theorem uncached_of (s : State) (x : District) (h : s.districts = [(1, x)]) (ht : x.port.tlb = []) (hc : x.core.tlb = [])
    (hl : s.paging.l2 = []) : uncached s := by
  refine ⟨fun d => ?_, fun die => by simp [hl, tgetD, tget]; rfl⟩
  simp only [State.coreOf, State.dist, h, tgetD, tget]
  split
  · exact ⟨ht, hc⟩
  · exact ⟨rfl, rfl⟩

/-- A state of one district whose PORT has logged and held nothing meets `unlogged`. -/
theorem unlogged_of (s : State) (x : District) (h : s.districts = [(1, x)]) (hs : x.port.sideLog = []) (hr : x.port.heldReads = []) :
    unlogged s := by
  intro d
  simp only [State.dist, h, tgetD, tget]
  split
  · exact ⟨hs, hr⟩
  · exact ⟨rfl, rfl⟩

/-- Object 5 of partition 0: one page of 64 KB whose entry is e, and a fault on it. -/
def paged (e : Nat) (p : Paging := {}) (x : District := {}) : State :=
  { on x with
    parts := [(0, { otcfg := 0x60000001000 })], paging := p
    hbm := mputN 0x1050 8 0x2000 (mputN 0x1058 8 0x10000FF8000 (mputN 0x2000 8 e [])) }

/-- A page entry: frame, and the bits below. -/
def pte (frame low : Nat) : Nat := frame * 2 ^ 28 + low

theorem witness_paged : (∀ e p x, x.port.tlb = [] → x.core.tlb = [] → p.l2 = [] → uncached (paged e p x)) ∧
    ∀ e p x, x.port.sideLog = [] → x.port.heldReads = [] → unlogged (paged e p x) :=
  ⟨fun _ _ x h1 h2 h3 => uncached_of _ x rfl h1 h2 h3, fun _ _ x h1 h2 => unlogged_of _ x rfl h1 h2⟩

/-- The first and last instant of a slice; a region to launch, to save, to restore, and two that a gang switch exchanges. -/
theorem witness_LaunchesAndContextSwitches :
    let g : Gang := { n := 2, ent := [(0, 24000), (1, 0x100005DC0)], due := some 24000, part := some 0, index := 0 }
    let r : Region := { one with gangHalt := true }
    let q : Region := { one with loadId := 2, part := 1, saved := true, status := .saved }
    let idle : Region := { one with status := .idle, started := false }
    let s (l : List Region) (k : List (Nat × BitVec 32) := []) : State := { on {} with regions := l, caskOwner := k, cask := [(2, {})] }
    let w (l : List Region) : State := { s l with
      sched := mputN 4 2 1 (mputN 8 4 1 (mputN 16 2 0xFFFF [])), hostif := { waiting := [{ entry := 0 }] } }
    let two : State := { s [r, q] [(2, 2)] with gang := g }
    g.slice 0 = some (0, 24000) ∧ g.slice 23999 = some (0, 24000) ∧ g.slice 24000 = some (1, 48000) ∧
    (w [idle]).hostif.waiting = { entry := 0, trigger := none } :: [] ∧ (w [idle]).regionOf (BitVec.ofNat 32 (mgetN 8 4 (w [idle]).sched)) = some idle ∧
    idle.districts.Nodup ∧ idle.districts ≠ [] ∧ (∀ x ∈ [idle], x = idle ∨ x.loadId ≠ idle.loadId) ∧ idle.saved = false ∧
    (w [idle]).gang.part = none ∧ (∀ d ∈ idle.districts, ((w [idle]).distReg d).retiring = false ∧ ((w [idle]).distReg d).retired = false ∧
      (w [idle]).nextIncarnation idle = 1 ∧ ((w [idle]).dist d).port = {}) ∧ idle.recommit = false ∧ idle.nodes = [{ dist := 1 }] ∧
    (let a (n : BitVec 16) : Access := { inc := n }
     (∃ x ∈ [a 1], x.inc = 1) ∧ (1 : BitVec 16) ∈ ({ late := [1] } : Port).late ++ [] ∧ (∀ x ∈ [a 0], x.inc ≠ 1)) ∧
    (let m : MashPart := { dist := 1, istore := mput 0 1 [] }
     let z := { idle with recommit := true, mash := [m] }
     z.recommit = true ∧ m ∈ z.mash ∧ m.dist = 1 ∧ ∀ m' ∈ z.mash, m' = m) ∧
    (let z := { idle with data := [((250 * 0 + 249) * 2 ^ 19 + 0x5FFFF, [7])], caps := [(15, none, 9)] }
     0 < z.districts.length ∧ 249 < 250 ∧ 0x5FFFF + [7].length ≤ 0x60000 ∧ 250 * 0 + 249 < 2 ^ 18 ∧ z.caps = [(15, none, 9)]) ∧
    (w [one]).regionOf 1 = some one ∧ one.status ≠ .idle ∧ (w []).regionOf (BitVec.ofNat 32 (mgetN 8 4 (w []).sched)) = none ∧
    idle.caps = [] ∧ idle.data = [] ∧
    (s [r]).regionOf 1 = some r ∧ r.status = .running ∧ r.gangHalt = true ∧ (∀ d ∈ r.districts, ((s [r]).coreOf d).mayHalt = true) ∧
    (∀ d ∈ r.districts, tget (2 * d) (s [r]).caskOwner = none) ∧ (s [r]).husks = [] ∧ (s [r]).gang.due = none ∧ one.gangHalt = false ∧
    (s [q] [(2, 2)]).slotOwned 2 1 = some 2 ∧ tget 2 (s [q]).cask = some {} ∧ (s [q]).hostif.bellHeld = [] ∧
    two.gang.due = some 24000 ∧ two.gang.applied.slice 24000 = some (1, 48000) ∧ two.gang.applied.partOf 1 = 1 ∧
    ({} : District).port.sideLog = [] ∧ ({} : District).port.heldReads = [] ∧ ({} : District).skid = [] ∧
    two.gangOuts 24000 = [r] ∧ r.loadId ≠ q.loadId ∧ two.gang.part = some r.part ∧ tget 3 two.caskOwner = none ∧
    (let full := { two with caskOwner := [(2, 2), (3, 9)] }
     tget 2 full.caskOwner ≠ none ∧ tget 3 full.caskOwner ≠ none) := by (intros; repeat' apply And.intro) <;> decide +kernel

/-- A page absent and wanted, mapped, on the host; a pool of one frame and none; a fault told and not; a logged write; a
migration idle, running, and whose entry has changed. -/
theorem witness_PagerMapsInvalidatesAndMigrates :
    let f : PageFault := { fsn := 7, part := 0, obj := 5, page := 0, dist := 1, since := 5 }
    let s (e : Nat) (p : Paging := {}) := paged e { p with faults := [f] }
    let o : Obj := ⟨0x10000, 0xFF, false, 0x2000⟩
    let absent : Nat := 0
    let host : Nat := pte 9 (2 ^ 26 + 2 ^ 23)
    let entry (t : State) := mgetN (0x2000 + 8 * 0) 8 t.hbm
    (s absent).boot.state ≠ 1 ∧ (s absent).objectOf 0 5 = some o ∧ (s absent).objectOf 0 6 = none ∧
    (s absent).paging.faults.find? (fun g => g.fsn == 7) = some f ∧ (∀ g ∈ (s absent).paging.faults, g.fsn ≠ 8) ∧
    (s absent).paging.fpcfg.toNat / 2 ^ 40 ≤ (s absent).paging.fpcount.toNat ∧
    (0 : BitVec 24).toNat < (0x10000000000 : BitVec 64).toNat / 2 ^ 40 ∧
    ((entry (s absent)).testBit 23 = false ∧ entry (s absent) / 2 ^ 26 % 4 = 0 ∧ entry (s absent) / 2 ^ 28 = 0) ∧
    (entry (s (2 ^ 26))).testBit 23 = false ∧ entry (s (2 ^ 26)) / 2 ^ 26 % 4 ≠ 0 ∧ (entry (s (2 ^ 23))).testBit 23 = true ∧
    0 < ({ fpcount := 1 } : Paging).fpcount.toNat ∧ (s absent).paging.fpcount = 0 ∧ (s absent).reclaimList false 0 5 0 = [] ∧
    f.notified = false ∧ f.software = false ∧ f.resolved = false ∧
    (let g := { f with fsn := 8, notified := true, software := true, resolved := true }
     let t := paged (2 ^ 23) { faults := [f, g] }
     let all := t.paging.faults.filter fun g => g.part.toNat == 0 && g.obj.toNat == 5 && g.page.toNat == 0
     all.any (·.notified) = true ∧ all.any (·.software) = true ∧ all.any (·.resolved) = true ∧
       ((s absent).paging.faults.any fun g => g.notified || g.software || g.resolved) = false) ∧
    (s absent).faultSaved f = false ∧ (s absent).faultHeld f = [] ∧
    (let b : Access := { obj := 5, issuer := .seq 1 }
     let p : Port := { heldReads := [{ acc := b, fsn := 7 }] }
     (paged absent { faults := [f] } { port := p }).faultHeld f = [b] ∧
       ({ s absent with cask := [(2, { port := p })], caskOwner := [(2, 1)] } : State).faultSaved f = true) ∧
    (let x : TlbEntry := { part := 0, obj := 5, page := 0, count := 1 }
     x ∈ (paged host {} { port := { tlb := [x] } }).districts.flatMap (fun q => q.2.port.tlb) ∧ 0 < x.count) ∧ (s absent).paging.tlbinv = none ∧
    ({ tlbinv := some 3 } : Paging).tlbinv = some 3 ∧
    (let w : Access := { obj := 5, offset := 0xFFF8, size := 8, write := some (List.replicate 8 1), issuer := .seq 1, rights := 0xFF }
     let t := paged (pte 1 (2 ^ 23 + 2 ^ 22)) { faults := [f] } { port := { sideLog := [{ acc := w, fsn := some f.fsn }] } }
     (t.dist 1).port.sideLog = [{ acc := w, fsn := some f.fsn }] ∧ t.regionAt 1 = some one ∧ one.part = f.part ∧
       w.write = some (List.replicate 8 1) ∧ (List.replicate 8 (1 : Byte)).length = w.size ∧ w.offset.toNat / o.pageSize = f.page.toNat ∧
       w.offset.toNat + w.size ≤ o.limit ∧ w.rights &&& ~~~o.ceil = 0 ∧ (entry t).testBit 22 = true ∧ pteBad o (entry t) = false) ∧
    (let m : Migration := { src := 0, page := 5 * 2 ^ 34, state := 1, entry := BitVec.ofNat 64 host, frame := 2 }
     let t (e : Nat) := paged e { mig := m }
     (t host).paging.mig.state = 1 ∧ (t host).objectOf 0 (m.page.toNat / 2 ^ 34 % 2 ^ 24) = some o ∧ 0 < o.pages ∧ ¬ 1 < o.pages ∧
       (entry (t host)).testBit 23 = true ∧ entry (t host) / 2 ^ 26 % 4 = 1 ∧ (entry (t host)).testBit 21 = false ∧
       (entry (t host)).testBit 20 = false ∧ 2 ^ 24 - 1 < 2 ^ 24 ∧ 0x2000 + 8 ≤ 2 * 65536 ∧ entry (t host) = m.entry.toNat ∧
       entry (t 0) ≠ m.entry.toNat ∧ ({} : Migration).state ≠ 1) := by decide +kernel

/-- An access to no object, past the limit, to each kind of entry, a stream, and the parts of a request at the PORT. -/
theorem witness_PortsTranslateAndMoveData :
    let a : Access := { obj := 5, offset := 0xFFF8, size := 8, issuer := .seq 1, rights := 0x03 }
    let w : Access := { a with write := some (List.replicate 8 1) }
    let s (e : Nat) (b : Access := a) := paged e {} { port := { accessQ := [b] } }
    let o : Obj := ⟨0x10000, 0xFF, false, 0x2000⟩
    let entry (t : State) := mgetN (0x2000 + 8 * (0xFFF8 / o.pageSize)) 8 t.hbm
    let hbm := pte 1 (2 ^ 23)
    (s hbm).regionAt 1 = some one ∧ ((s hbm).dist 1).port.accessQ = a :: [] ∧ (s hbm w).core = 1 ∧ 0 < a.size ∧
    (s hbm).objectOf 0 6 = none ∧ (s hbm).objectOf one.part.toNat a.obj.toNat = some o ∧ o.limit < 0xFFF9 + 8 ∧ 0xFFF8 + 8 ≤ o.limit ∧
    a.rights &&& ~~~o.ceil = 0 ∧ entry (s hbm) = hbm ∧ (entry (s 0)).testBit 23 = false ∧ a.write = none ∧
    w.write = some (List.replicate 8 1) ∧ (List.replicate 8 (1 : Byte)).length = w.size ∧
    entry (s (pte 1 (2 ^ 23 + 2 ^ 27 + 2 ^ 26))) / 2 ^ 26 % 4 = 3 ∧ entry (s (pte 1 (2 ^ 23 + 2 ^ 26))) / 2 ^ 26 % 4 = 1 ∧
    a.rights &&& o.ceil &&& 0x40 = 0 ∧ entry (s (pte 196607 (2 ^ 23 + 2 ^ 27))) / 2 ^ 26 % 4 = 2 ∧
    (entry (s (pte 1 (2 ^ 23 + 2 ^ 19)))).testBit 19 = true ∧ (hbm.testBit 23 = true ∧ hbm / 2 ^ 24 % 16 < 3 ∧ hbm.testBit 19 = false) ∧
    (let q : Descriptor := { start := 0xFFFC, esz := 2, cap := cap 0x10000 0 0x13 5 }
     let x (d : BitVec 2) (toks : List Token) : District := { imaged 519 [(0, 5), (192, 4)] with
       port := { stream := { active := true, desc := some { q with dir := d }, owner := some (1, 0, 0) } }
       skid := if toks = [] then [] else [((4 * 519) * 32, toks.map fun t => { tok := t })] }
     let t := paged hbm {} (x 0 [])
     t.isSealed 1039 = false ∧ (t.dist 1).port.stream.ended = false ∧ q.addr 0 = 0xFFFC ∧ 0xFFFC % 16 + q.size ≤ 16 ∧ q.size ≤ 4 ∧
       t.outOf 1039 = [] ∧ t.chanField 1039 0 3 0 0 / 16 ^ 0 % 16 = 4 ∧ 0 + 1 = q.elements ∧
       (t.dist 1).port.closing = [] ∧ (t.dist 1).port.accessQ = [] ∧ q.byteAt 0 = 0xFFFC ∧ q.run 0 16 = [0xFFFC, 0xFFFD, 0xFFFE, 0xFFFF] ∧
       (let h := { q with esz := 0, cnt := #v[3, 0, 0, 0], str := #v[1, 0, 0, 0] }
        h.run 0 16 = [0xFFFC, 0xFFFD, 0xFFFE, 0xFFFF] ∧ [7].length < (h.run 0 16).length ∧ [7, 8, 9, 7].length = (h.run 0 16).length ∧
          0 + 1 ≠ h.elements ∧ 3 + 1 = h.elements) ∧
       ((paged hbm {} (x 1 [{ data := 9 }])).deliveredAt 1039 0 Token.isData).map (·.1) = some 0) ∧
    (let route : W32 := 0xFF880000 ||| 0x40000
     let t (parts : List (Nat × Partial)) (k : Token) := paged hbm {} (tokens 519 3 31 [k] (imaged 519 [(31, 0x5000)]
       { port := { partials := parts } }))
     let k (d : W32) := t31 1 d
     bufAt (t [] (k route)) 1039 3 31 = { tok := k route } :: [] ∧ (t [] (k route)).isSealed 1039 = false ∧
       (t [] (k route)).routeOf 1039 3 31 = 5 ∧ ((t [] (k route)).chanField 1039 31 1 31 0).testBit 15 = false ∧
       route.extractLsb' 28 4 = 15#4 ∧ route.getLsbD 18 = true ∧
       (let p : Partial := { route := some 0xFF880000, disp := some 4, cap := cap 0x10000 0 0x3 5 }
        tget (32 * 3 + 31) ((t [(127, p)] (k 0)).dist 1).port.partials = some p ∧ (p.route.getD 0).toNat / 2 ^ 19 % 16 ≠ 0 ∧
          (p.route.getD 0).toNat % 2 ^ 18 = 0 ∧ capCause p.cap 4 2 1 = none ∧ capCause p.cap 0xFFFF 2 1 ≠ none ∧
          (0x11000000 : W32).extractLsb' 28 4 = 1#4 ∧ (0x11000000 : W32).extractLsb' 24 2 = 1#2 ∧ (0 : W32).extractLsb' 24 2 ≠ 3#2 ∧
          capCause p.cap 4 4 2 = none ∧ ({ p with disp := none } : Partial).disp = none ∧ p.request = none ∧
          256 ≤ (List.replicate 256 (0 : Nat)).length ∧ ¬ 256 ≤ (List.replicate 255 (0 : Nat)).length)) ∧
    (let r : Access := { issuer := .pe 547 }
     let t := paged hbm {} (imaged 519 [(192, 4)] { port := { replyQ := [(0, r, [9], 0)] } })
     (t.dist 1).port.replyQ = (0, r, [9], 0) :: [] ∧ (0 : BitVec 16) = (t.distReg 1).incarnation ∧ (1 : BitVec 16) ≠ (t.distReg 1).incarnation ∧ ((t.dist 1).pes.all fun q => q.2.donePend.isNone) = true ∧
       ({ late := [1] } : Port).late = 1 :: [] ∧ (t.dist 1).port.late = [] ∧ (t.dist 1).port.replyQ.all (fun q => q.1 == 0) = true) := by
  (intros; repeat' apply And.intro) <;> decide +kernel

/-- An event at the head of the agenda, a core, and no agenda; a core that nothing holds and one that an interrupt does; a word,
an illegal word, the end of the store. -/
theorem witness_AStepRunsTheDecodedInstruction :
    let at_ (pc : Word) (w : Nat) (c : Core := {}) : State := on { core := { c with running := true, pc := pc }, istore := mputN 0x3FFFC 4 w [] }
    let ev : State := { at_ 0 0 with agenda := [.event .sysfault, .core 1] }
    (at_ 0 0).timebase + 1 < min (at_ 0 0).nextBoost (min (at_ 0 0).nextPower (at_ 0 0).nextHot) ∧
    (at_ 0 0).nextPower < (at_ 0 0).nextBoost ∧ (at_ 0 0).nextPower ≤ (at_ 0 0).nextHot ∧
    ({ at_ 0 0 with timebase := 4000, nextPower := 5000 } : State).nextBoost ≤ 5000 ∧ (at_ 0 0).nextBoost ≤ (at_ 0 0).nextHot ∧
    (let v : State := { at_ 0 0 with timebase := 63999, nextPower := 65000, nextBoost := 68000, nextHot := 64000 }
     min v.nextBoost (min v.nextPower v.nextHot) ≤ v.timebase + 1 ∧ ¬ v.nextBoost ≤ v.nextHot ∧ ¬ v.nextPower ≤ v.nextHot) ∧ (at_ 0 0 { past := true }).cr.past = true ∧
    ev.agenda = .event .sysfault :: [.core 1] ∧ (at_ 0 0).agenda = [] ∧ (at_ 0x3FFFC 1).cr.running = true ∧
    (at_ 0x3FFFC 1).before = none ∧ (at_ 0 0 { trapping := some { cause := 1 } }).before ≠ none ∧ (at_ 0 0).cr.trapping = none ∧
    (at_ 0 0).cr.pending = [] ∧ (at_ 0 0).cr.reissue = [] ∧ (at_ 0 0).cr.held = false ∧ one.gangHalt = false ∧
    mgets 0x3FFFC (min 8 (0x40000 - 0x3FFFC)) ((at_ 0x3FFFC 0x02B2A401).dist 1).istore = [0x01, 0xA4, 0xB2, 0x02] ∧
    decode [0x01, 0xA4, 0xB2, 0x02] = .ok (.aluAdd 11 5 9, []) ∧ decode [0, 0, 0, 0] = .error (.unassignedOpcode 0) ∧
    decode [0x00, 0x00, 0x51, 0x0C] = .error .short ∧ (at_ 0 0).holds (.aluAdd 11 5 9) = false ∧
    (at_ 0 0 { ops := [{ word := 0x30B300E2, status := .sent }] }).holds (.aluAdd 11 11 9) = true := by
  (intros; repeat' apply And.intro) <;> first | decide +kernel | rfl

theorem witness_CoreTurnsKeepTheInvariants : State.reset.agenda = [] ∧ State.reset.memoriesWf = true ∧ State.reset.pcsOk = true ∧
    (on { core := { running := true, pc := 0x3FFFC } }).pcsOk = true := by decide +kernel

/-! ### Further witnesses, for clauses not met above -/

/-- Words of format A and M, of neither, whose stepped fields fit at the last count and do not; a func value that is not
assigned; the condition bit at 7 and at 8. -/
theorem witness_rep_of_any_word :
    let s (w : Nat) (r : Word) := on { core := { pc := 0x3FFF8, remain := r, running := true }, istore := mputN 0x3FFFC 4 w [] }
    let words (i : Instr) := [(s (nth 0 (encode i)).toNat 0).storeWord 1 0x3FFFC]
    (s 0x02B2A401 0).cr.pc.toNat + 8 ≤ 0x40000 ∧ (s 0 64).cr.remain.toNat ≤ 63 + 1 ∧
    fld 0x02B2A401 31 25 = 1#7 ∧ fld 0x305300E2 31 25 = 0x18#7 ∧ fld 0x70182080 31 25 = 0x38#7 ∧ (1 : BitVec 6) ≠ 0 ∧
    (match decodeWords 0x02B2A401 none with
      | .ok i => i == .aluAdd 11 5 9
      | .error _ => false) = true ∧ (Instr.aluAdd 11 5 9).wf = true ∧
    ((11 : Int) + 20 * (1 : BitVec 6).toInt < 32 ∧ ¬ (11 : Int) + 21 * (1 : BitVec 6).toInt < 32) ∧
    (0 ≤ (5 : Int) + 5 * (0x3F : BitVec 6).toInt ∧ ¬ 0 ≤ (5 : Int) + 6 * (0x3F : BitVec 6).toInt) ∧
    (match decodeWords 0x020003FF none with
      | .ok _ => false
      | .error _ => true) = true ∧
    words (.cmpEq 7 31 0) = [nth 0 (encode (.cmpEq 7 31 0))] ∧ words (.cndAnd 7 7 0) = [nth 0 (encode (.cndAnd 7 7 0))] ∧
    ((0 : Int) ≤ 7 + 0 * (1 : BitVec 6).toInt ∧ (7 : Int) + 0 * (1 : BitVec 6).toInt < 8) ∧
    ¬ (7 : Int) + 1 * (1 : BitVec 6).toInt < 8 := by decide +kernel

/-- One failing check each of an update and of a capability's load and store: bounds at the last word, alignment, no tile. -/
theorem witness_updates_and_capabilities_checked :
    capCause (cap 64 0 3 5) 0 4 7 = some 0x05 ∧ capCause (cap 64 0 7 5) 61 4 7 = some 0x06 ∧
    capCause (cap 64 0 7 5) 60 4 7 = none ∧ capCause (cap 64 0 6 5) 58 4 6 = none ∧ 58 % 4 ≠ 0 ∧ 57 % 2 ≠ 0 ∧
    ¬ namesTiles (cap 64 0 7 5) ∧ capCause (cap 64 0 1 5) 48 16 1 = none ∧ capCause (cap 64 0 2 5) 40 16 2 = none ∧
    capCause (cap 64 0 1 5) 49 16 1 = some 0x06 ∧ 48 % 16 = 0 ∧ 40 % 16 ≠ 0 ∧ (run {}).cr.rdK 0 = 0 ∧
    ((({} : Core).wrK 0 (cap 64 0 0x82 5)).rdK 0).getLsbD 31 = true ∧ capCause tiles 0x7D00000 16 1 ≠ none ∧
    ((({} : Core).wrK 1 tiles).rdK 1 = tiles) := by decide +kernel

/-- A load that ends by an error: a reply token, an answer of the PORT, and an answer in the inbox; the counter falls. -/
theorem witness_error_replies :
    let i : Instr := .memLdW 5 6 0 2 2
    let o : MemOp := { id := 3, word := nth 0 (encode i), status := .sent }
    let c (b : List Completion) : Core := { ops := [o], ldc := 1, inbox := b }
    let tok : Token := { kind := 2, channel := 31, data := 9, marker := 3, tag := some (1, 3) }
    let s : State := on { core := c [{ op := some 3, esub := 9 }], skid := [(4 * 493 * 32 + 31, [{ tok := tok }])]
                          images := [(4 * 493, { fields := [(7, 0x5000)], resident := true })] }
    let p : State := on { core := c [], port := { replyQ := [(0, { issuer := .seq 1, op := 3 }, [], 7)] } }
    (s.dist 1).buf 493 0 31 = [{ tok := tok }] ∧ (s.dist 1).route 493 0 31 = 5 ∧ s.accepts 1 = true ∧ 493 ∉ (s.dist 1).sealed ∧
    ((after (.seqReply 1 0 31) s).coreOf 1).ldc = 0 ∧ ((after (.seqReply 1 4 0) s).coreOf 1).ldc = 0 ∧
    ((after (.seqReply 1 5 0) p).coreOf 1).ldc = 0 ∧ ((after (.seqReply 1 5 0) p).coreOf 1).rdG 5 = 0 := by decide +kernel

/-- An earlier request of the same element to the granule, and to another; operations on half words and words of floats. -/
theorem witness_earlier_requests_and_floats :
    let p (o : Nat) : Pe := { sent := [(4, some (548, o))] }
    let s (o : Nat) : State := on { pes := [(27, p o)] }
    let r (op : BitVec 4) (w : BitVec 2) : TileReq := { op := op, width := w, offset := 0x5FFFE, origin := .seq 3, operands := [7] }
    (s 0x5FFF).requestBehind (some (1024 + 547, 5)) (some (548, 0x5FFF)) = true ∧
    (s 0x5FFE).requestBehind (some (1024 + 547, 5)) (some (548, 0x5FFF)) = false ∧
    (s 0x5FFF).requestBehind (some (1024 + 547, 4)) (some (548, 0x5FFF)) = false ∧
    (∀ op ∈ [0, 1, 7], (r op 0).error = 0 ∧ (r op 0).offset.toNat % 2 = 0 ∧ (r op 0).offset.toNat < 0x60000) ∧
    0x7F800000 < (0x7F800001 &&& 0x7FFFFFFF : W32).toNat ∧ ¬ 0x7F800000 < (0xFF800000 &&& 0x7FFFFFFF : W32).toNat ∧
    ((0x3F800000 &&& 0x7FFFFFFF : W32).toNat < (0xC0000000 &&& 0x7FFFFFFF : W32).toNat) := by decide +kernel

/-- Control words with no reserved bit set and with one, of every operation; pairs of formats with elements and without; from
a token and from a SEQ. -/
theorem witness_control_words_fit :
    ([((0x0FEF8880 : W32), (0xFFFFFFF0 : W32)), (0x101FC080, 0xF81FF0F0), (0x18000000, 0xF8000000), (0x201F8000, 0xF81FB000),
        (0x281F8000, 0xF81FB000), (0x301F8000, 0xF81FF000), (0x38000000, 0xF8000000)].all fun p => p.1 &&& ~~~p.2 == 0) = true ∧
    (0x0FEF8881 : W32) &&& ~~~0xFFFFFFF0 ≠ 0 ∧ (0x18000001 : W32) &&& ~~~0xF8000000 ≠ 0 ∧
    pairElems 8 8 64 ≠ none ∧ pairElems 8 1 64 = none ∧ ({ row := some ([0, 0], 8) } : Mn).row = some ([0, 0], 8) ∧
    pairElems 8 8 2 ≠ none ∧ one.pool ≠ 0 ∧
    (let wait (d : W32) : State := unitAt 25 {} [] [{ kind := 4, data := d }]
     (wait 0x18000000).outOf 545 = [] ∧ ((wait 0x18000000).mn 545).mtokQ = [] ∧
       ({ one with pool := 0 } : Region).pool = 0) ∧
    (∀ n ∈ [1, 2, 3, 4, 5, 6, 7], ((BitVec.ofNat 64 (n * 2 ^ 27)).setWidth 32 : W32).extractLsb' 27 5 = BitVec.ofNat 5 n) ∧
    (let s := unitAt 25 { mns := [(0, { mtokQ := [{ cmd := 0x18000000 }] })] }
     (s.mn 545).mtokQ = { cmd := 0x18000000 } :: [] ∧ s.outOf 545 = [] ∧ (s.inputHead 545 0 0 fun t => t.kind == 4).isNone = true) := by
  decide +kernel

/-- A tensor whose last token has not left the element, and one whose last token has. -/
theorem witness_tensors_over :
    let e := 520 + 233
    let x : RoTensor := { entries := [{ data := 7 }], sent := 1, formed := true }
    let s (out : List (Nat × Token)) : State :=
      unitAt 233 { ros := [(8, { tensors := [x] })], outq := if out = [] then [] else [(233, out)] } [] [{}]
    ((s []).ro e).tensors = [x] ∧ x.formed = true ∧ ((s []).ro e).queue = [] ∧ ¬ x.entries.length < 1 ∧ x.shape.dbl = false ∧
    (s []).outOf e = [] ∧ (s [(3, {})]).outOf e ≠ [] ∧ ((s []).inputHead e 0 0 Token.isData).isSome = true ∧
    (∀ y ∈ ([{ entries := [{ data := 7 }] }] : List RoTensor), y.formed = false) := by decide +kernel

/-- An entry with an instance and without; a region asked to halt that may, and one not asked; nothing that waits. -/
theorem witness_launches_and_halts :
    let r : Region := { one with haltAsked := true }
    let s (l : List Region) : State := { on {} with regions := l }
    (s [{ one with entry := some 0 }]).hasInstance 0 = true ∧ (s [{ one with entry := some 0 }]).hasInstance 1 = false ∧
    (s [{ one with entry := some 0, status := .idle }]).hasInstance 0 = false ∧ (s [r]).regionOf 1 = some r ∧ r.gangHalt = false ∧
    r.status = .running ∧ r.haltAsked = true ∧ one.haltAsked = false ∧ (∀ d ∈ r.districts, ((s [r]).coreOf d).mayHalt = true) ∧
    (s [r]).hostif.waiting = [] ∧ ((2 : W32).setWidth 64 &&& 0x3FFFC : Word) = 0 := by decide +kernel

/-- A page request that is well formed at the object's last word, and each way to be ill formed; the sequence number of an
earlier store; a full queue, and a DONE that waits beside it. -/
theorem witness_page_requests_and_waiting_dones :
    let formed (route : Nat) (o n : Nat) : Bool :=
      route / 2 ^ 28 == 15 && route / 2 ^ 19 % 16 != 0 && route % 2 ^ 19 == 2 ^ 18 && o % n == 0
    formed 0xFF8C0000 0xFFFC 4 = true ∧ capCause (cap 0x10000 0 3 5) 0xFFFC 4 1 = none ∧ formed 0xFF8C0000 0xFFFE 4 = false ∧
    formed 0xFF880000 0xFFFC 4 = false ∧ formed 0xEF8C0000 0 4 = false ∧ formed 0xFF840000 0 4 = false ∧
    (let b : Access := { issuer := .pe 547, op := 4, write := some [7] }
     b ∈ ((on { port := { accessQ := [b] } }).dist 1).port.accessQ ∧ b.op < 5 ∧ b.write ≠ none) ∧
    (let k := t31 3 0x03000007
     let s (a b : Nat) : State := on { imaged 493 [(23, 0x5000), (31, 0x5000)] with
       skid := [((4 * 493 + 2) * 32 + 31, [{ tok := k, arr := b }]), ((4 * 493 + 3) * 32 + 31, [{ tok := k, arr := a }])]
       core := { doneQ := List.replicate 15 0, doneWait := [(7, 3)] } }
     bufAt (s 5 6) 1013 3 31 = { tok := k, arr := 5 } :: [] ∧ bufAt (s 5 6) 1013 2 31 = { tok := k, arr := 6 } :: [] ∧
     (s 5 6).routeOf 1013 2 31 = 5 ∧ (s 5 6).routeOf 1013 3 31 = 5 ∧ k.code = 3 ∧ 5 ≤ 7 ∧ 5 ≤ 6 ∧ 4 < 5 ∧ 7 < 8 ∧
     ((s 5 6).coreOf 1).doneWait = [(7, 3)] ∧ ((s 5 6).coreOf 1).doneQ.length < 16) := by
  decide +kernel

/-- A granule of a descriptor image that is the last, of a good image and of a bad one, and one that is not. -/
theorem witness_descriptor_replies :
    let o (r : List W32) (a : Word) (k : Cap) : MemOp :=
      { id := 3, word := nth 0 (encode (.strmDld 2 4)), status := .sent, dld := some 2, reply := r, addr := a, cap := k }
    let ws : List W32 := [0x1000, 0, 0x4821, 0, 3, 16, 0, 0, 0, 0, 0, 0, 0, 0, 0, 0]
    let s (r : List W32) (a : Word) (k : Cap) : State := on { core := { ops := [o r a k], ldc := 1, inbox := [{ op := some 3, words := [0, 0, 0, 0] }] } }
    (s (ws.take 12) 0 tiles).cr.inbox = { op := some 3, counter := .ldc, words := [0, 0, 0, 0] } :: [] ∧
    (Instr.strmDld 2 4).wf = true ∧ (ws.take 12).length = 12 ∧ (ws.take 8).length < 12 ∧
    (let t := after (.seqReply 1 4 0) (s (ws.take 12) 0 tiles)
     (t.cr.rdD 2).isSome = true ∧ t.cr.pending = [] ∧ t.cr.ldc = 0) ∧
    (let t := after (.seqReply 1 4 0) (s (1 :: 0x100 :: (ws.take 12).drop 2) 0 tiles)
     (t.cr.rdD 2).isNone = true ∧ t.cr.pending.map (·.cause) = [0x10]) ∧
    (s (ws.take 8) 0x5FFC0 tiles).tileAddr 1 (0x5FFC0 + 4 * 12) = some (1, 0, 0x5FFF0) ∧ capObj tiles = tileSpace ∧
    capObj object ≠ tileSpace ∧ (1 : Nat) ≠ mgmtCore := by decide +kernel

/-- Districts in a region and in none, past the last, numbers of no register. -/
theorem witness_district_registers :
    let s := mgmt {}
    s.regionAt 639 = none ∧ ({ s with regions := [{ one with districts := [639] }] }).regionAt 639 = some { one with districts := [639] } ∧
    (639 : Nat) < 640 ∧ 640 ≤ 640 % 1024 ∧ (0x0B : BitVec 8) ∉ [0x00#8, 0x01, 0x02, 0x08, 0x09, 0x0A] ∧
    ((0x0B : BitVec 8) ≠ 0x08 ∧ (0x0B : BitVec 8) ≠ 0x0A) ∧ 639 % 1024 < 640 ∧ 639 ≠ s.core ∧ 640 ≤ 1023 := by decide +kernel

/-- An image in an object. -/
theorem witness_dld_of_an_object :
    let s := run ((({} : Core).wrK 0 object).wrG 4 0x40)
    capCause (s.cr.rdK 0) 0x40 64 1 = none ∧ 0x40 % 16 = 0 ∧ ¬ namesTiles (s.cr.rdK 0) := by decide +kernel

/-! ### Single steps, with results taken from the spec's examples or worked from its rules -/

/-- 07 Table K-55: low / −1 is low, and by 0 all ones; a sum wraps. -/
theorem test_alu_corners :
    let s := run (two 5 (BitVec.intMin 64) 6 (-1))
    (after (.aluDivs 7 5 6) s).cr.rdG 7 = BitVec.intMin 64 ∧ (after (.aluDivu 7 5 0) s).cr.rdG 7 = -1 ∧
    (after (.aluRems 7 5 0) s).cr.rdG 7 = BitVec.intMin 64 ∧ (after (.aluAdd 5 5 6) s).cr.rdG 5 = 0x7FFFFFFFFFFFFFFF := by decide +kernel

/-- The example of 07 Table K-62: POS = 4, WM1 = 7. -/
theorem test_bit_fields :
    let s := run (two 5 0xABCD 6 0x0704)
    (after (.bitExtu 7 5 6) s).cr.rdG 7 = 0xBC ∧ (after (.bitExts 7 5 6) s).cr.rdG 7 = 0xFFFFFFFFFFFFFFBC := by decide +kernel

/-- 07 R158, R159: a taken call links to g31; jalr with its target in the link register. -/
theorem test_call_and_jump :
    (after (.call 0 1 (-1)) (run { pc := 8 })).cr.pc = 4 ∧ (after (.call 0 1 (-1)) (run { pc := 8 })).cr.rdG 31 = 12 ∧
    (after (.jmpJalr 5 5) (run (two 5 0x100 6 0))).cr.pc = 0x100 ∧ (after (.jmpJalr 5 5) (run (two 5 0x100 6 0))).cr.rdG 5 = 4 := by
  decide +kernel

/-- The window of 07's capability example: base, length, rights, and the test that clears c3. -/
theorem test_cap_window :
    let s := run (two 5 0x02C00040 6 256)
    let t := after (.capAnd 1 1 3) (after (.capLen 1 1 6) (after (.capBase 1 0 5) (s.setCr (s.cr.wrK 0 (capMake 0x0FA00000 0 0x3F 0xFFFFFF)))))
    capBase (t.cr.rdK 1) = 0x02C00040 ∧ capLimit (t.cr.rdK 1) = 0x02C00140 ∧ capRights (t.cr.rdK 1) = 3 ∧
    (after (.capTest 3 1 7 1) (t.setCr (t.cr.wrG 7 0x100))).cr.rdC 3 = false := by decide +kernel

/-- 07 Table K-67: after the interrupt repeat 2 runs alu.or g18, g10, g0, and REMAIN falls to 1. -/
theorem test_rep_resumes :
    let t := after (.rep 3 1 1 0) (on { core := { two 10 7 11 8 with pc := 0x100, remain := 2, running := true }
                                        istore := mputN 0x104 4 0x03040011 [] })
    t.cr.rdG 18 = 7 ∧ t.cr.rdG 16 = 0 ∧ t.cr.pc = 0x100 ∧ t.cr.remain = 1 := by decide +kernel

/-- 07 R155, R156: 1 + 2 in FP32; the largest over 0 is infinity with Z; flags read and clear. -/
theorem test_fpu :
    let s := run (two 5 0x3F800000 6 0x40000000)
    (after (.fpuAdd 7 5 6 0) s).cr.rdG 7 = 0x40400000 ∧ (after (.fpuDiv 7 5 0 0) s).cr.rdG 7 = 0x7F800000 ∧
    (after (.fpuCvto 7 6 10 0 0) s).cr.rdG 7 = 2 := by decide +kernel

/-- 08 R195: an illegal word at 0x100 traps to 0 with its own address saved. -/
theorem test_illegal_traps :
    let t := after (.illegalWord 0) (run { pc := 0x100 })
    t.cr.pc = 0 ∧ t.cr.trappc = 0x100 ∧ t.cr.trapcause = 0x100FF0001 ∧ mgetN 4 4 (t.dist 1).tileMem = 0x100 := by decide +kernel

/-- 08, the worked store at CFGBASE: an error RESERVED is cause 0x07 sub 3 with one entry of the store, from 0x030C. UNIT stands
as 08 Table K-92 has it (log 86). -/
theorem test_error_reply_frame :
    let op : MemOp := { id := 1, pc := 0x304, word := 0x30740280, addr := 0x50000, data0 := 0x1234, cap := tiles, status := .errored, esub := 3 }
    let t := after (.trapEntry 1) (run { pc := 0x30C, trapq := 0x40000, ops := [op] })
    t.cr.trapcause = 0x103FF0007 ∧ t.cr.trappc = 0x30C ∧ t.cr.frameCount = 1 ∧
    mgetN 0x40048 4 (t.dist 1).tileMem = 0x80030002 := by decide +kernel

/-- 03 Table K-24: 300 is the digits 1, 3, −4. -/
theorem test_ds16_digits : dsDigits 9 300 = [-4, 3, 1] := by decide +kernel

/-- 10 Table K-119: the products, and what DRAIN leaves. -/
theorem test_mn_int8 :
    let w (l : List (Nat × Nat)) : Memory := mputs 0 (((List.range 128).map fun i => BitVec.ofNat 8 ((l.lookup i).getD 0x80))) []
    let m : Mn := { active := w [(0, 0x81), (1, 0x7F), (66, 0x82), (67, 0x7E)], za := Vector.replicate 8 0x80, zw := Vector.replicate 8 0x80
                    cur := some { tok := { kind := 4, data := 0x08608880 } }, rowbuf := [{ tok := { data := 0x8C807E82 } }] }
    let t := after (.mnMul 545) (on { mns := [(0, m)] })
    tget 0 (t.mn 545).acc = some 4 ∧ tget 1 (t.mn 545).acc = some 0xFFFFFFE8 := by decide +kernel

/-- The example of 10 R247: six keys, q = 0.5, with the mask; bit 2 alone. -/
theorem test_sel_quantile :
    let q : Sel := { keys := [(0x3FC00000, false), (0x80000000, false), (0, false), (0x7FC00000, true), (0xC0000000, false), (0x3FC00000, false)]
                     keyEnd := true, queue := [{ cmd := 0x12, arg := 0x3F000000 }] }
    let t := after (.selQuant 857) (on { sels := [(12, q)] })
    mgetN 0 4 (t.dist 1).tileMem = 0 ∧ mgetN 4 4 (t.dist 1).tileMem = 2 ∧ mgetN 8 4 (t.dist 1).tileMem = 5 ∧
    mgetN 12 4 (t.dist 1).tileMem = 1 ∧ mgetN 16 4 (t.dist 1).tileMem = 4 := by decide +kernel

/-- 10 R251: the CRC of "123456789". -/
theorem test_crc32c : crc32c [0x31, 0x32, 0x33, 0x34, 0x35, 0x36, 0x37, 0x38, 0x39] = 0xE3069283 := by decide +kernel

/-- The worked block of 10: what its six coded bytes rebuild. -/
theorem test_dec_block :
    let raw : List Byte := [0x81, 0xD6, 0x93, 0x02, 0x81, 0x26, 0x12, 0x1F, 0x00, 0x90]
    let hdr : List Byte := leBytes 2 0xD3C5 ++ [1, 0x46] ++ leBytes 4 10 ++ leBytes 4 8 ++
      [0x22, 0x43, 0x00, 0x04, 0x34, 0x00, 0x00, 0x40] ++ leBytes 4 2 ++ leBytes 4 (crc32c raw) ++ leBytes 4 0
    (match parseBlock hdr with
      | .ok b => match b.raw ([0x81, 0xD6, 0xCB, 0x07, 0xB6, 0x47, 0xD0, 0x28] ++ List.replicate 8 0) with
        | .ok bs => bs == raw && b.last
        | .error _ => false
      | .error _ => false) = true := by decide +kernel

/-- 10 R242: the 4 × 8 tile turned into column order. -/
theorem test_ro_order :
    let q : RoShape := { cnt := #v[3, 7, 0], str := #v[8, 1, 0] }
    (List.range 9).map q.idx = [0, 8, 16, 24, 1, 9, 17, 25, 2] := by decide +kernel

/-- 04 R93, Table K-29: amo.cas writes its second operand where the first matches. -/
theorem test_cas :
    let r : TileReq := { op := 11, width := 1, operands := [5, 9], origin := .seq 3 }
    let s (v : Nat) : State := on { tileMem := mputN (tileKey (tileOrd 28) 0) 4 v [], tiles := [(28, port 4 { comparator := [r], replies := [(r, none)] })] }
    mgetN (tileKey (tileOrd 28) 0) 4 ((after (.requestApply 548 0) (s 5)).dist 1).tileMem = 9 ∧
    mgetN (tileKey (tileOrd 28) 0) 4 ((after (.requestApply 548 0) (s 6)).dist 1).tileMem = 6 := by decide +kernel

/-- 17 R337: eight bytes of HBM answered to the SEQ in two words, low first. -/
theorem test_port_read :
    let a : Access := { obj := 5, offset := 0xFFF8, size := 8, issuer := .seq 1, rights := 0x03 }
    let s := paged (pte 1 (2 ^ 23)) {} { port := { accessQ := [a] } }
    let t := after (.portAccess 1 0) { s with hbm := mputN 0x1FFF8 8 0x1122334455667788 s.hbm }
    (t.dist 1).port.replyQ.map (fun q => (q.2.2.1, q.2.2.2)) = [([0x55667788, 0x11223344], 0)] := by decide +kernel

/-- The step runs the word at PC (06 R120): alu.add g11, g5, g9 as the last word of the store. -/
theorem test_step_runs_word :
    (match step (on { core := { two 5 2 9 3 with pc := 0x3FFFC, running := true }, istore := mputN 0x3FFFC 4 0x02B2A401 [] }) with
      | .next t => t.cr.rdG 11 == 5 && t.cr.pc == 0x3FFFC && t.cr.past
      | _ => false) = true := by decide +kernel

end Sys2Proof.Tests
end

section
/-! SUPPORT. The obligations of 07: what the alu, immediate, compare, condition-bit, bit, branch and jump instructions do
(R150 to R154, R157 to R159), and which of their words are refused. -/

namespace Sys2Proof.Laws.ControlArithmetic

open Sys2Proof.Machine Sys2Proof.Spec

/-! ### From how an instruction completes to what it writes -/

theorem runsTo_finishG {s : State} {i : Instr} {d : BitVec 5} {v w : Word} (hi : exec i s = .next (finishG s d v))
    (hv : v = w) : runsTo s i fun t => writesG s t d w 1 :=
  ⟨_, hi, hv ▸ writesG_finishG s d v⟩

theorem runsTo_finishG_of {s : State} {i : Instr} {d : BitVec 5} {v : Word} {P : Word → Prop}
    (hi : exec i s = .next (finishG s d v)) (hv : P v) : runsTo s i fun t => ∃ v, P v ∧ writesG s t d v 1 :=
  ⟨_, hi, v, hv, writesG_finishG s d v⟩

theorem runsTo_two {s : State} {i : Instr} {d : BitVec 5} {v w : Word}
    (hi : exec i s = .next (s.setCr ((s.cr.wrG d v).advance 2))) (hv : v = w) : runsTo s i fun t => writesG s t d w 2 :=
  ⟨_, hi, hv ▸ writesG_two s d v⟩

theorem runsTo_finishC {s : State} {i : Instr} {c : BitVec 3} {v w : Bool} (hi : exec i s = .next (finishC s c v))
    (hv : v = w) : runsTo s i fun t => writesC s t c w :=
  ⟨_, hi, hv ▸ writesC_finishC s c v⟩

theorem runsTo_finishRel {s : State} {i : Instr} {c : BitVec 3} {r : Bool × Conds} {v : Bool} {f : Conds}
    (hi : exec i s = .next (finishRel s c r)) (hv : r.1 = v) (hf : r.2 = f) : runsTo s i fun t => writesC s t c v f :=
  ⟨_, hi, hv ▸ hf ▸ writesC_finishRel s c r⟩

/-! ### Words that are refused (06 R124) -/

theorem decodeWords_badWord_of_one {w : W32} (v : Option W32) (ha : isAssigned (fld w 31 25) = true)
    (ht : isTwoWord (fld w 31 25) = false) (hd : decodeOne w = none) : decodeWords w v = .error (.badWord w) := by
  simp [decodeWords, ha, ht, hd]

theorem decodeWords_badWord_of_two {w v : W32} (ha : isAssigned (fld w 31 25) = true)
    (ht : isTwoWord (fld w 31 25) = true) (hd : decodeTwo w v = none) :
    decodeWords w (some v) = .error (.badWord w) := by
  simp [decodeWords, ha, ht, hd]

theorem decodeWords_short {w : W32} (ha : isAssigned (fld w 31 25) = true) (ht : isTwoWord (fld w 31 25) = true) :
    decodeWords w none = .error .short := by
  simp [decodeWords, ha, ht]

theorem onlyFuncs_of_decodeOne {op : BitVec 7} {hi lo : Nat} {l : List Nat} (ha : isAssigned op = true)
    (ht : isTwoWord op = false)
    (hd : ∀ w : W32, fld w 31 25 = op → (fld w hi lo).toNat ∉ l → decodeOne w = none) : onlyFuncs op hi lo l :=
  fun w v hop hf _ => decodeWords_badWord_of_one v (hop ▸ ha) (hop ▸ ht) (hd w hop hf)

theorem onlyFuncs_of_decodeTwo {op : BitVec 7} {hi lo : Nat} {l : List Nat} (ha : isAssigned op = true)
    (ht : isTwoWord op = true)
    (hd : ∀ w v : W32, fld w 31 25 = op → (fld w hi lo).toNat ∉ l → decodeTwo w v = none) : onlyFuncs op hi lo l := by
  rintro w (_ | v) rfl hf hs
  · exact absurd (decodeWords_short ha ht) hs
  · exact decodeWords_badWord_of_two ha ht (hd w v rfl hf)

theorem decodeAlu_eq_none {w : W32}
    (h : (fld w 9 0).toNat ∉ [1, 2, 3, 4, 5, 6, 7, 8, 9, 0x10, 0x11, 0x12, 0x13, 0x20, 0x21, 0x22, 0x23]) :
    decodeAlu w = none := by
  unfold decodeAlu
  split <;> simp_all

theorem decodeCmp_eq_none {w : W32} (h : (fld w 9 0).toNat ∉ [1, 2, 3, 4, 5, 6, 0x10, 0x11, 0x12, 0x13]) :
    decodeCmp w = none := by
  unfold decodeCmp
  split <;> simp_all

theorem decodeBit_eq_none {w : W32}
    (h : (fld w 9 0).toNat ∉ [1, 2, 3, 4, 5, 0x10, 0x11, 0x12, 0x13, 0x20, 0x21, 0x22]) : decodeBit w = none := by
  unfold decodeBit
  split <;> simp_all

theorem func_div_eight (w : W32) : (fld w 9 3).toNat = (fld w 9 0).toNat / 8 := by
  simp only [fld, BitVec.extractLsb, BitVec.extractLsb'_toNat, Nat.shiftRight_eq_div_pow, Nat.reduceSub, Nat.reduceAdd,
    Nat.reducePow]
  omega

/-- The eight func values of cnd.sel are told from the others by their bits [9:3]. -/
theorem decodeCnd_eq_none {w : W32}
    (h : (fld w 9 0).toNat ∉ [1, 2, 3, 4, 8, 9, 0x10, 0x11, 0x12, 0x13, 0x14, 0x15, 0x16, 0x17]) : decodeCnd w = none := by
  have hsel : ¬ fld w 9 3 = 0x2#7 := by
    intro e
    have h2 : (fld w 9 0).toNat / 8 = 2 := by rw [← func_div_eight, e]; rfl
    simp only [List.mem_cons, List.not_mem_nil, or_false] at h
    omega
  unfold decodeCnd
  split <;> simp_all

theorem decodeTwo_li_eq_none {w : W32} (v : W32) (hop : fld w 31 25 = 0x06) (h : (fld w 19 15).toNat ∉ [1, 2, 3]) :
    decodeTwo w v = none := by
  unfold decodeTwo
  rw [hop]
  split
  · split
    · split <;> simp_all
    · rfl
  all_goals simp_all

theorem decodeOne_shift_eq_none {w : W32} (hop : fld w 31 25 ∈ [0x0C#7, 0x0D#7, 0x0E#7]) (h : fld w 14 6 ≠ 0#9) :
    decodeOne w = none := by
  simp only [List.mem_cons, List.not_mem_nil, or_false] at hop
  rcases hop with e | e | e <;> simp [decodeOne, e, h]

theorem decodeWords_shift_badWord {w : W32} (v : Option W32) (hop : fld w 31 25 ∈ [0x0C#7, 0x0D#7, 0x0E#7])
    (h : fld w 14 6 ≠ 0#9) : decodeWords w v = .error (.badWord w) := by
  have hone : ∀ op ∈ [0x0C#7, 0x0D#7, 0x0E#7], isAssigned op = true ∧ isTwoWord op = false := by decide
  obtain ⟨ha, ht⟩ := hone _ hop
  exact decodeWords_badWord_of_one v ha ht (decodeOne_shift_eq_none hop h)

/-! ### The values of Table K-55 in integers -/

theorem sub_eq_ofInt (x y : Word) : x - y = BitVec.ofInt 64 (x.toNat - y.toNat) := by
  simp [BitVec.sub_eq_add_neg, Int.sub_eq_add_neg, BitVec.ofInt_add, BitVec.ofInt_neg]

theorem mulHighSigned_eq (x y : Word) : mulHighSigned x y = BitVec.ofInt 64 (x.toInt * y.toInt / 2 ^ 64) := by
  apply BitVec.eq_of_toNat_eq
  simp only [mulHighSigned, BitVec.extractLsb'_toNat, BitVec.toNat_ofInt, Nat.shiftRight_eq_div_pow, Nat.reducePow,
    Int.reducePow]
  generalize x.toInt * y.toInt = p
  omega

theorem mulHighUnsigned_eq (x y : Word) : mulHighUnsigned x y = BitVec.ofNat 64 (x.toNat * y.toNat / 2 ^ 64) := by
  apply BitVec.eq_of_toNat_eq
  simp only [mulHighUnsigned, BitVec.extractLsb'_toNat, BitVec.toNat_ofNat, Nat.shiftRight_eq_div_pow, Nat.reducePow]
  generalize x.toNat * y.toNat = p
  omega

/-- The one quotient that does not fit, -2^63 by -1, wraps to the dividend. -/
theorem divSigned_eq (x y : Word) : divSigned x y = if y = 0 then BitVec.allOnes 64
    else if x = BitVec.intMin 64 ∧ y = -1 then BitVec.intMin 64 else BitVec.ofInt 64 (x.toInt.tdiv y.toInt) := by
  unfold divSigned
  by_cases h : x = BitVec.intMin 64 ∧ y = -1
  · obtain ⟨rfl, rfl⟩ := h; decide
  · rw [if_neg h]

theorem remSigned_eq (x y : Word) : remSigned x y = if y = 0 then x
    else if x = BitVec.intMin 64 ∧ y = -1 then 0 else BitVec.ofInt 64 (x.toInt.tmod y.toInt) := by
  unfold remSigned
  by_cases h : x = BitVec.intMin 64 ∧ y = -1
  · obtain ⟨rfl, rfl⟩ := h; decide
  · rw [if_neg h]

theorem ite_slt (x y u v : Word) : (if x.slt y then u else v) = if x.toInt < y.toInt then u else v := by
  simp [BitVec.slt]

theorem ite_ult (x y u v : Word) : (if x.ult y then u else v) = if x.toNat < y.toNat then u else v := by
  simp [BitVec.ult]

/-- Settles O4: each alu instruction completes by `finishG`, with a value that its lemma gives in integers. -/
theorem aluWritesTableK55 : Obligations.AluWritesTableK55 := by
  refine ⟨fun s d a b => ?_,
    onlyFuncs_of_decodeOne rfl rfl fun w hop hf => by simp [decodeOne, hop, decodeAlu_eq_none hf]⟩
  exact
    ⟨runsTo_finishG rfl (BitVec.add_def ..), runsTo_finishG rfl (sub_eq_ofInt ..),
     runsTo_finishG rfl (BitVec.mul_def ..), runsTo_finishG rfl (mulHighSigned_eq ..),
     runsTo_finishG rfl (mulHighUnsigned_eq ..), runsTo_finishG rfl (divSigned_eq ..), runsTo_finishG rfl rfl,
     runsTo_finishG rfl (remSigned_eq ..), runsTo_finishG rfl rfl, runsTo_finishG rfl rfl, runsTo_finishG rfl rfl,
     runsTo_finishG rfl rfl, runsTo_finishG rfl rfl, runsTo_finishG rfl (ite_slt ..), runsTo_finishG rfl (ite_slt ..),
     runsTo_finishG rfl (ite_ult ..), runsTo_finishG rfl (ite_ult ..)⟩

/-! ### The values of the immediate forms (07 R151, R152) -/

theorem add_immSx_eq (x : Word) (i : BitVec 15) : x + immSx i = BitVec.ofInt 64 (x.toNat + i.toInt) := by
  simp [BitVec.ofInt_add, immSx, BitVec.signExtend]

theorem immZx_eq (i : BitVec 15) : immZx i = BitVec.ofNat 64 i.toNat := by simp [immZx]

theorem shiftLeft_eq_ofNat (x : Word) (n : Nat) : x <<< n = BitVec.ofNat 64 (x.toNat * 2 ^ n) := by
  apply BitVec.eq_of_toNat_eq
  simp [Nat.shiftLeft_eq]

theorem ushiftRight_eq_ofNat (x : Word) (n : Nat) : x >>> n = BitVec.ofNat 64 (x.toNat / 2 ^ n) := by
  apply BitVec.eq_of_toNat_eq
  rw [BitVec.toNat_ushiftRight, Nat.shiftRight_eq_div_pow, BitVec.toNat_ofNat,
    Nat.mod_eq_of_lt (Nat.lt_of_le_of_lt (Nat.div_le_self ..) x.isLt)]

theorem sshiftRight_eq_ofInt (x : Word) (n : Nat) : x.sshiftRight n = BitVec.ofInt 64 (x.toInt / 2 ^ n) := by
  simp [BitVec.sshiftRight, Int.shiftRight_eq_div_pow]

theorem high_append_low_eq (w : W32) (x : Word) :
    w ++ x.setWidth 32 = BitVec.ofNat 64 (w.toNat * 2 ^ 32 + x.toNat % 2 ^ 32) := by
  apply BitVec.eq_of_toNat_eq
  rw [BitVec.toNat_append, BitVec.toNat_setWidth, Nat.shiftLeft_eq, Nat.mul_comm,
    ← Nat.two_pow_add_eq_or_of_lt (by omega), BitVec.toNat_ofNat]
  omega

/-- Settles O5: the immediate forms complete by `finishG` and li by its two-word counterpart. -/
theorem immediatesWriteTheirResults : Obligations.ImmediatesWriteTheirResults := by
  refine ⟨fun s d a i n w => ?_,
    onlyFuncs_of_decodeTwo rfl rfl fun w v hop hf => decodeTwo_li_eq_none v hop hf,
    fun w v hop h => decodeWords_shift_badWord v hop h⟩
  exact
    ⟨runsTo_finishG rfl (add_immSx_eq ..), runsTo_finishG rfl (by rw [immZx_eq]), runsTo_finishG rfl (by rw [immZx_eq]),
     runsTo_finishG rfl (by rw [immZx_eq]), runsTo_finishG rfl (shiftLeft_eq_ofNat ..),
     runsTo_finishG rfl (ushiftRight_eq_ofNat ..), runsTo_finishG rfl (sshiftRight_eq_ofInt ..), runsTo_two rfl rfl,
     runsTo_two rfl (BitVec.ofNat_toNat ..).symm, runsTo_two rfl (high_append_low_eq ..)⟩

/-! ### Relations between FP32 values (07 R153) -/

theorem val_lt_asymm {p q : Val} (h : p.lt q = true) : q.lt p = false := by
  cases p <;> cases q <;> simp_all [Val.lt]
  omega

theorem fpRel_eqv (quiet : Bool) (x y : W32) : (fpRel Val.eqv quiet x y).1 =
    (!(val32 x).isNaN && !(val32 y).isNaN && !(val32 x).lt (val32 y) && !(val32 y).lt (val32 x)) := by
  cases hp : (val32 x).isNaN <;> cases hq : (val32 y).isNaN <;> simp [fpRel, Val.eqv, hp, hq]

theorem fpRel_rel (rel : Val → Val → Bool) (quiet : Bool) (x y : W32) : (fpRel rel quiet x y).1 =
    (!(val32 x).isNaN && !(val32 y).isNaN && rel (val32 x) (val32 y)) := by
  simp [fpRel]

/-- Of two values that are not NaN, less or equal is not greater. -/
theorem fpRel_le (quiet : Bool) (x y : W32) : (fpRel (fun p q => p.lt q || p.eqv q) quiet x y).1 =
    (!(val32 x).isNaN && !(val32 y).isNaN && !(val32 y).lt (val32 x)) := by
  rw [fpRel_rel]
  cases hp : (val32 x).isNaN <;> cases hq : (val32 y).isNaN <;> simp [Val.eqv, hp, hq]
  cases h : (val32 x).lt (val32 y)
  · simp
  · simp [val_lt_asymm h]

theorem fpUnordered_eq (x y : W32) : (fpUnordered x y).1 = !(!(val32 x).isNaN && !(val32 y).isNaN) := by
  simp [fpUnordered]

theorem isSNaN_iff (p : Val) : p.isSNaN = true ↔ p = .nan true := by cases p <;> simp [Val.isSNaN]

theorem isNaN_of_isSNaN {p : Val} (h : p.isSNaN = true) : p.isNaN = true := by rw [(isSNaN_iff p).1 h]; rfl

theorem condIf_signalling (p q : Val) :
    condIf (p.isSNaN || q.isSNaN) condV = if p = .nan true ∨ q = .nan true then condV else 0 := by
  simp only [condIf, Bool.or_eq_true, isSNaN_iff]

theorem fpRel_quiet (rel : Val → Val → Bool) (x y : W32) : (fpRel rel true x y).2 =
    if val32 x = .nan true ∨ val32 y = .nan true then condV else 0 := by
  rw [← condIf_signalling]; simp [fpRel]

theorem fpUnordered_conds (x y : W32) : (fpUnordered x y).2 =
    if val32 x = .nan true ∨ val32 y = .nan true then condV else 0 := condIf_signalling ..

theorem fpRel_loud (rel : Val → Val → Bool) (x y : W32) : (fpRel rel false x y).2 =
    if !(val32 x).isNaN && !(val32 y).isNaN then 0 else condV := by
  have hp := @isNaN_of_isSNaN (val32 x)
  have hq := @isNaN_of_isSNaN (val32 y)
  cases h1 : (val32 x).isNaN <;> cases h2 : (val32 y).isNaN <;> simp_all [fpRel, condIf]

theorem beq_eq_decide_toNat (x y : Word) : (x == y) = decide (x.toNat = y.toNat) := by
  rw [Bool.eq_iff_iff]; simp [BitVec.toNat_inj]

theorem bne_eq_decide_ne (x y : Word) : (x != y) = decide (x ≠ y) := by
  rw [Bool.eq_iff_iff]; simp

theorem bne_eq_decide_toNat (x y : Word) : (x != y) = decide (x.toNat ≠ y.toNat) := by
  rw [Bool.eq_iff_iff]; simp [BitVec.toNat_inj]

/-- Settles O6: the relations of cmp and the effects of cnd, one per instruction. -/
theorem comparesWriteOneConditionBit : Obligations.ComparesWriteOneConditionBit := by
  refine ⟨fun s c a b => ?_, fun s c a b d f g => ?_,
    onlyFuncs_of_decodeOne rfl rfl fun w hop hf => by simp [decodeOne, hop, decodeCmp_eq_none hf],
    onlyFuncs_of_decodeOne rfl rfl fun w hop hf => by simp [decodeOne, hop, decodeCnd_eq_none hf]⟩
  · exact
      ⟨runsTo_finishC rfl (beq_eq_decide_toNat ..), runsTo_finishC rfl (bne_eq_decide_toNat ..),
       runsTo_finishC rfl rfl, runsTo_finishC rfl rfl, runsTo_finishC rfl rfl, runsTo_finishC rfl rfl,
       runsTo_finishRel rfl (fpRel_eqv ..) (fpRel_quiet ..), runsTo_finishRel rfl (fpRel_rel ..) (fpRel_loud ..),
       runsTo_finishRel rfl (fpRel_le ..) (fpRel_loud ..),
       runsTo_finishRel rfl (fpUnordered_eq ..) (fpUnordered_conds ..)⟩
  · exact
      ⟨runsTo_finishC rfl rfl, runsTo_finishC rfl rfl, runsTo_finishC rfl rfl, runsTo_finishC rfl rfl,
       runsTo_finishC rfl (bne_eq_decide_ne ..), runsTo_finishG rfl rfl, runsTo_finishG rfl rfl⟩

/-! ### Shifts and rotations, bit by bit (07 R157) -/

theorem getLsbD_shl (x : Word) (n i : Nat) :
    (x <<< n).getLsbD i = (decide (i < 64) && decide (n ≤ i) && x.getLsbD (i - n)) := by
  rw [BitVec.getLsbD_shiftLeft, ← decide_not, decide_eq_decide.2 Nat.not_lt]

theorem getLsbD_shr (x : Word) (n i : Nat) : (x >>> n).getLsbD i = x.getLsbD (i + n) := by
  rw [BitVec.getLsbD_ushiftRight, Nat.add_comm]

theorem getLsbD_sar (x : Word) (n : Nat) {i : Nat} (hi : i < 64) :
    (x.sshiftRight n).getLsbD i = x.getLsbD (min (i + n) 63) := by
  rw [BitVec.getLsbD_sshiftRight, BitVec.msb_eq_getLsbD_last]
  by_cases h : n + i < 64
  · simp [h, hi, show min (i + n) 63 = n + i by omega]
  · simp [h, hi, show min (i + n) 63 = 63 by omega]

theorem getLsbD_rotateLeft_mod (x : Word) {n i : Nat} (hn : n < 64) (hi : i < 64) :
    (x.rotateLeft n).getLsbD ((i + n) % 64) = x.getLsbD i := by
  rw [BitVec.getLsbD_rotateLeft, Nat.mod_eq_of_lt hn]
  by_cases h : i + n < 64
  · simp [Nat.mod_eq_of_lt h, h, show ¬ i + n < n by omega]
  · have hm : (i + n) % 64 = i + n - 64 := by omega
    simp [hm, show i + n - 64 < n by omega, show 64 - n + (i + n - 64) = i by omega]

theorem getLsbD_rotateRight_mod (x : Word) {n i : Nat} (hn : n < 64) (hi : i < 64) :
    (x.rotateRight n).getLsbD i = x.getLsbD ((i + n) % 64) := by
  rw [BitVec.getLsbD_rotateRight, Nat.mod_eq_of_lt hn]
  by_cases h : i + n < 64
  · rw [Nat.mod_eq_of_lt h]
    simp [show i < 64 - n by omega, Nat.add_comm]
  · have hm : (i + n) % 64 = i - (64 - n) := by omega
    simp [hm, hi, show ¬ i < 64 - n by omega]

/-! ### Counts (07 R157) -/

theorem toNat_ofNat_of_le {n : Nat} (h : n ≤ 64) : (BitVec.ofNat 64 n).toNat = n := by
  rw [BitVec.toNat_ofNat, Nat.mod_eq_of_lt (by omega)]

theorem countLeading_bounds (x : Word) : countLeading x ≤ 64 ∧ x.toNat < 2 ^ (64 - countLeading x) ∧
    (countLeading x < 64 → 2 ^ (63 - countLeading x) ≤ x.toNat) := by
  unfold countLeading
  split
  · next h => subst h; simp
  · next h =>
    have h0 : x.toNat ≠ 0 := fun e => h (BitVec.eq_of_toNat_eq e)
    have hl : x.toNat.log2 < 64 := (Nat.log2_lt h0).2 x.isLt
    refine ⟨by omega, ?_, fun _ => ?_⟩
    · rw [show 64 - (63 - x.toNat.log2) = x.toNat.log2 + 1 by omega]; exact Nat.lt_log2_self
    · rw [show 63 - (63 - x.toNat.log2) = x.toNat.log2 by omega]; exact Nat.log2_self_le h0

/-- Counting from bit `i` stops at the first bit that is set, or at bit `i + n`. -/
theorem trailGo_spec (x : Word) (n i : Nat) :
    i ≤ trailGo x n i ∧ trailGo x n i ≤ i + n ∧ (∀ j, i ≤ j → j < trailGo x n i → x.getLsbD j = false) ∧
      (trailGo x n i < i + n → x.getLsbD (trailGo x n i) = true) := by
  induction n generalizing i with
  | zero =>
    exact ⟨Nat.le_refl _, Nat.le_refl _, fun j h1 h2 => absurd h2 (Nat.not_lt.2 h1),
      fun h => absurd h (Nat.lt_irrefl _)⟩
  | succ n ih =>
    obtain ⟨hlo, hhi, hzero, hone⟩ := ih (i + 1)
    unfold trailGo
    split
    · next h => exact ⟨Nat.le_refl _, by omega, fun j h1 h2 => absurd h2 (Nat.not_lt.2 h1), fun _ => h⟩
    · next h =>
      refine ⟨by omega, by omega, fun j h1 h2 => ?_, fun h2 => hone (by omega)⟩
      rcases Nat.eq_or_lt_of_le h1 with rfl | hj
      · simpa using h
      · exact hzero j hj h2

theorem countTrailing_bounds (x : Word) : countTrailing x ≤ 64 ∧ (∀ i, i < countTrailing x → x.getLsbD i = false) ∧
    (countTrailing x < 64 → x.getLsbD (countTrailing x) = true) := by
  obtain ⟨_, hhi, hzero, hone⟩ := trailGo_spec x 64 0
  exact ⟨hhi, fun i => hzero i (Nat.zero_le i), hone⟩

theorem onesGo_eq (x : Word) (n : Nat) : onesGo x n = ((List.range n).filter x.getLsbD).length := by
  induction n with
  | zero => rfl
  | succ n ih => cases h : x.getLsbD n <;> simp [onesGo, List.range_succ, ih, h, Nat.add_comm]

theorem countOnes_le (x : Word) : countOnes x ≤ 64 := by
  rw [countOnes, onesGo_eq]
  exact Nat.le_trans (List.length_filter_le ..) (Nat.le_of_eq List.length_range)

/-! ### Bytes (07 R157) -/

theorem length_leBytes (n v : Nat) : (leBytes n v).length = n := by
  induction n generalizing v with
  | zero => rfl
  | succ n ih => simp [leBytes, ih]

theorem getElem_leBytes (n v i : Nat) (h : i < (leBytes n v).length) :
    (leBytes n v)[i] = BitVec.ofNat 8 (v / 2 ^ (8 * i)) := by
  induction n generalizing v i with
  | zero => exact absurd h (Nat.not_lt_zero _)
  | succ n ih =>
    cases i with
    | zero => simp [leBytes]
    | succ i => simp [leBytes, ih, Nat.div_div_eq_div_mul, Nat.mul_add, Nat.pow_add, Nat.mul_comm (2 ^ (8 * i))]

theorem testBit_leNat (bs : List Byte) {i j : Nat} (hi : i < bs.length) (hj : j < 8) :
    (leNat bs).testBit (8 * i + j) = bs[i].getLsbD j := by
  induction bs generalizing i with
  | nil => exact absurd hi (Nat.not_lt_zero _)
  | cons b bs ih =>
    have hb : leNat (b :: bs) = 2 ^ 8 * leNat bs + b.toNat := Nat.add_comm ..
    rw [hb, Nat.testBit_two_pow_mul_add _ b.isLt]
    cases i with
    | zero => simp [hj, BitVec.getLsbD]
    | succ i =>
      simp [← ih (i := i) (by simpa using hi), show ¬ 8 * (i + 1) + j < 8 by omega,
        show 8 * (i + 1) + j - 8 = 8 * i + j by omega]

theorem extractLsb'_byteSwap (x : Word) {i : Nat} (hi : i < 8) :
    (byteSwap x).extractLsb' (8 * i) 8 = x.extractLsb' (56 - 8 * i) 8 := by
  apply BitVec.eq_of_getLsbD_eq
  intro j hj
  have hl : i < (leBytes 8 x.toNat).reverse.length := by simpa [length_leBytes] using hi
  have hp : j + 8 * (8 - 1 - i) = 56 - 8 * i + j := by omega
  rw [BitVec.getLsbD_extractLsb', BitVec.getLsbD_extractLsb', byteSwap, BitVec.getLsbD_ofNat, testBit_leNat _ hl hj,
    List.getElem_reverse, getElem_leBytes, BitVec.getLsbD_ofNat, length_leBytes, Nat.testBit_div_two_pow, hp]
  simp [hj, show 8 * i + j < 64 by omega, BitVec.getLsbD]

/-! ### Fields (07 R157) -/

/-- The top bit of the field that POS and WM1 name. -/
def fieldTop (y : Word) : Nat := y.toNat % 64 + y.toNat / 2 ^ 8 % 64

theorem fieldPos_add_fieldWidth (y : Word) : fieldPos y + fieldWidth y = fieldTop y + 1 := rfl

theorem testBit_extractField (x y : Word) (i : Nat) :
    (extractField x y).testBit i = (decide (fieldPos y + i ≤ fieldTop y) && x.getLsbD (fieldPos y + i)) := by
  have h : i < fieldWidth y ↔ fieldPos y + i ≤ fieldTop y := by have := fieldPos_add_fieldWidth y; omega
  rw [extractField, Nat.testBit_mod_two_pow, Nat.testBit_div_two_pow, Nat.add_comm]
  simp [h, BitVec.getLsbD]

theorem getLsbD_extractField (x y : Word) (i : Nat) : (BitVec.ofNat 64 (extractField x y)).getLsbD i =
    (decide (fieldPos y + i ≤ fieldTop y) && x.getLsbD (fieldPos y + i)) := by
  rw [BitVec.getLsbD_ofNat, testBit_extractField]
  by_cases h : i < 64
  · simp [h]
  · simp [h, BitVec.getLsbD_of_ge x (fieldPos y + i) (by omega)]

theorem extractSigned_eq_signExtend (x y : Word) :
    extractSigned x y = (BitVec.ofNat (fieldWidth y) (extractField x y)).signExtend 64 := by
  have hlt : extractField x y < 2 ^ fieldWidth y := Nat.mod_lt _ (Nat.two_pow_pos _)
  have hw : fieldWidth y - 1 < fieldWidth y := by simp [fieldWidth]
  simp only [extractSigned, BitVec.signExtend, BitVec.toInt_eq_msb_cond, BitVec.msb_eq_getLsbD_last,
    BitVec.getLsbD_ofNat, hw, BitVec.toNat_ofNat, Nat.mod_eq_of_lt hlt, decide_true, Bool.true_and]
  split <;> simp

theorem getLsbD_extractSigned (x y : Word) {i : Nat} (hi : i < 64) :
    (extractSigned x y).getLsbD i = x.getLsbD (min (fieldPos y + i) (fieldTop y)) := by
  have hw : fieldWidth y - 1 < fieldWidth y := by simp [fieldWidth]
  have htop : fieldPos y + (fieldWidth y - 1) = fieldTop y := rfl
  rw [extractSigned_eq_signExtend, BitVec.getLsbD_signExtend, BitVec.msb_eq_getLsbD_last, BitVec.getLsbD_ofNat,
    BitVec.getLsbD_ofNat, testBit_extractField, testBit_extractField, htop]
  by_cases h : i < fieldWidth y
  · have hle : fieldPos y + i ≤ fieldTop y := by omega
    simp [hi, h, hle]
  · have hle : fieldTop y ≤ fieldPos y + i := by omega
    simp [hi, h, hw, hle]

theorem getLsbD_insertField (d x y : Word) {i : Nat} (hi : i < 64) : (insertField d x y).getLsbD i =
    if fieldPos y ≤ i ∧ i ≤ fieldTop y then x.getLsbD (i - fieldPos y) else d.getLsbD i := by
  have hin : fieldPos y ≤ i → (i - fieldPos y < fieldWidth y ↔ i ≤ fieldTop y) := by
    have := fieldPos_add_fieldWidth y; omega
  simp only [insertField, BitVec.getLsbD_or, BitVec.getLsbD_and, BitVec.getLsbD_not, BitVec.getLsbD_ofNat, hi,
    Nat.testBit_mul_two_pow, Nat.testBit_two_pow_sub_one, Nat.testBit_mod_two_pow]
  by_cases h1 : fieldPos y ≤ i
  · by_cases h2 : i ≤ fieldTop y
    · simp [h1, h2, hin, BitVec.getLsbD]
    · simp [h1, h2, hin]
  · simp [h1]

/-- Settles O8: each bit instruction completes by `finishG`, with a value of which its lemma says the bits or the count. -/
theorem bitFieldsWriteTableK62 : Obligations.BitFieldsWriteTableK62 := by
  refine ⟨fun s d a b => ?_,
    onlyFuncs_of_decodeOne rfl rfl fun w hop hf => by simp [decodeOne, hop, decodeBit_eq_none hf]⟩
  intro x n pos top gives
  have hn : n < 64 := Nat.mod_lt _ (by decide)
  refine ⟨?shl, ?shr, ?sar, ?rol, ?ror, ?clz, ?ctz, ?popc, ?bswap, ?extu, ?exts, ?ins⟩
  case shl => exact runsTo_finishG_of rfl (getLsbD_shl x n)
  case shr => exact runsTo_finishG_of rfl (getLsbD_shr x n)
  case sar => exact runsTo_finishG_of rfl fun i => getLsbD_sar x n
  case rol => exact runsTo_finishG_of rfl fun i => getLsbD_rotateLeft_mod x hn
  case ror => exact runsTo_finishG_of rfl fun i => getLsbD_rotateRight_mod x hn
  case clz =>
    refine runsTo_finishG_of rfl ?_
    rw [toNat_ofNat_of_le (countLeading_bounds x).1]
    exact countLeading_bounds x
  case ctz =>
    refine runsTo_finishG_of rfl ?_
    rw [toNat_ofNat_of_le (countTrailing_bounds x).1]
    exact countTrailing_bounds x
  case popc => exact runsTo_finishG_of rfl ((toNat_ofNat_of_le (countOnes_le x)).trans (onesGo_eq x 64))
  case bswap => exact runsTo_finishG_of rfl fun i => extractLsb'_byteSwap x
  case extu => exact runsTo_finishG_of rfl (getLsbD_extractField x _)
  case exts => exact runsTo_finishG_of rfl fun i => getLsbD_extractSigned x _
  case ins => exact runsTo_finishG_of rfl fun i => getLsbD_insertField _ x _

/-! ### Branches, calls and jumps (07 R158, R159) -/

theorem movesPc_setCr (s : State) (pc : Word) : movesPc s (s.setCr { s.cr with pc := pc }) pc :=
  ⟨onlyCore_setCr s _, by rw [cr_setCr]⟩

theorem linksAndJumps_setCr (s : State) (d : BitVec 5) (pc : Word) :
    linksAndJumps s (s.setCr { s.cr.wrG d (s.cr.pc + 4) with pc := pc }) d pc := by
  refine ⟨onlyCore_setCr s _, fun i => ?_, ?_⟩
  · rw [cr_setCr]; exact rdG_wrG _ _ _ _
  · rw [cr_setCr]; unfold Core.wrG; split <;> rfl

section
variable {s : State} {c : BitVec 3} {sense : BitVec 1}

theorem exec_br_taken (o : BitVec 21) (h : s.cr.rdC c = (sense == 1)) :
    exec (.br c sense o) s = .next (branchTo s (branchTarget s.cr.pc o) false) := by
  have ht : taken s c sense = true := beq_iff_eq.2 h
  show execBr c sense o s = _
  rw [execBr, if_pos ht]

theorem exec_call_taken (o : BitVec 21) (h : s.cr.rdC c = (sense == 1)) :
    exec (.call c sense o) s = .next (branchTo s (branchTarget s.cr.pc o) true) := by
  have ht : taken s c sense = true := beq_iff_eq.2 h
  show execCall c sense o s = _
  rw [execCall, if_pos ht]

theorem exec_br_untaken (o : BitVec 21) (h : s.cr.rdC c ≠ (sense == 1)) :
    exec (.br c sense o) s = .next (finish s s.cr) := by
  have ht : ¬ taken s c sense = true := mt beq_iff_eq.1 h
  show execBr c sense o s = _
  rw [execBr, if_neg ht]

theorem exec_call_untaken (o : BitVec 21) (h : s.cr.rdC c ≠ (sense == 1)) :
    exec (.call c sense o) s = .next (finish s s.cr) := by
  have ht : ¬ taken s c sense = true := mt beq_iff_eq.1 h
  show execCall c sense o s = _
  rw [execCall, if_neg ht]

end

theorem branchTo_inside {t : Int} (s : State) (link : Bool) (h : 0 ≤ t ∧ t < 0x40000) : branchTo s t link =
    s.setCr { (if link then s.cr.wrG 31 (s.cr.pc + 4) else s.cr) with pc := BitVec.ofInt 64 t } := by
  obtain ⟨_, e⟩ | ⟨hn, _⟩ := branchTo_cases s t link
  · exact e
  · exact absurd h hn

theorem branchTo_outside {t : Int} (s : State) (link : Bool) (h : t < 0 ∨ 0x40000 ≤ t) :
    branchTo s t link = syncTrap s causeFetchRange := by
  obtain ⟨hin, _⟩ | ⟨_, e⟩ := branchTo_cases s t link
  · have hlt : t < 0x40000 := hin.2
    omega
  · exact e

theorem jumpable_iff (n : Word) : jumpable n = true ↔ n.toNat % 4 = 0 ∧ n.toNat < 0x40000 := by
  have h : n.extractLsb 1 0 = 0#2 ↔ n.toNat % 4 = 0 := by
    rw [← BitVec.toNat_inj]; simp [BitVec.extractLsb]
  rw [jumpable, Bool.and_eq_true, decide_eq_true_eq]
  exact and_congr (beq_iff_eq.trans h) Iff.rfl

theorem jumpTo_inside {n : Word} (s : State) (h : n.toNat % 4 = 0 ∧ n.toNat < 0x40000) :
    jumpTo s n none = s.setCr { s.cr with pc := n } := by
  obtain ⟨_, e⟩ | ⟨hn, _⟩ := jumpTo_cases s n none
  · exact e
  · simp [(jumpable_iff n).2 h] at hn

theorem jumpTo_link_inside {n : Word} (s : State) (d : BitVec 5) (h : n.toNat % 4 = 0 ∧ n.toNat < 0x40000) :
    jumpTo s n (some d) = s.setCr { s.cr.wrG d (s.cr.pc + 4) with pc := n } := by
  obtain ⟨_, e⟩ | ⟨hn, _⟩ := jumpTo_cases s n (some d)
  · exact e
  · simp [(jumpable_iff n).2 h] at hn

theorem jumpTo_outside {n : Word} (s : State) (link : Option (BitVec 5))
    (h : ¬ (n.toNat % 4 = 0 ∧ n.toNat < 0x40000)) : jumpTo s n link = syncTrap s causeFetchRange := by
  obtain ⟨hj, _⟩ | ⟨_, e⟩ := jumpTo_cases s n link
  · exact absurd ((jumpable_iff n).1 hj) h
  · exact e

theorem runsTo_jump {s : State} {i : Instr} {n : Word} (hi : exec i s = .next (jumpTo s n none))
    (h : n.toNat % 4 = 0 ∧ n.toNat < 0x40000) : runsTo s i fun u => movesPc s u n :=
  ⟨_, hi, jumpTo_inside s h ▸ movesPc_setCr s n⟩

theorem runsTo_jump_link {s : State} {i : Instr} {n : Word} {d : BitVec 5} (hi : exec i s = .next (jumpTo s n (some d)))
    (h : n.toNat % 4 = 0 ∧ n.toNat < 0x40000) : runsTo s i fun u => linksAndJumps s u d n :=
  ⟨_, hi, jumpTo_link_inside s d h ▸ linksAndJumps_setCr s d n⟩

theorem traps_jump {s : State} {i : Instr} {n : Word} {link : Option (BitVec 5)}
    (hi : exec i s = .next (jumpTo s n link)) (h : ¬ (n.toNat % 4 = 0 ∧ n.toNat < 0x40000)) :
    traps s i causeFetchRange :=
  hi.trans (congrArg _ (jumpTo_outside s link h))

/-- Settles O9: br and call by whether they are taken and where their target lies, the jumps by where theirs lies. -/
theorem branchesCallsAndJumpsGoToTheirTarget : Obligations.BranchesCallsAndJumpsGoToTheirTarget := by
  refine ⟨fun s c sense o => ⟨fun hc => ?_, fun hc h0 h1 => ?_, fun hc ht => ?_⟩, fun s d a => ⟨fun h => ?_, fun h => ?_,
    fun h => runsTo_jump rfl h, fun h => traps_jump rfl h⟩⟩
  · exact ⟨⟨_, exec_br_untaken o hc, movesOn_finish s⟩, ⟨_, exec_call_untaken o hc, movesOn_finish s⟩⟩
  · exact ⟨⟨_, exec_br_taken o hc, branchTo_inside s false ⟨h0, h1⟩ ▸ movesPc_setCr s _⟩,
      ⟨_, exec_call_taken o hc, branchTo_inside s true ⟨h0, h1⟩ ▸ linksAndJumps_setCr s 31 _⟩⟩
  · exact ⟨(exec_br_taken o hc).trans (congrArg _ (branchTo_outside s false ht)),
      (exec_call_taken o hc).trans (congrArg _ (branchTo_outside s true ht))⟩
  · exact ⟨runsTo_jump rfl h, runsTo_jump_link rfl h⟩
  · exact ⟨traps_jump rfl h, traps_jump rfl h⟩

end Sys2Proof.Laws.ControlArithmetic
end

section
/-! SUPPORT. The obligations of 08, memory: which check of a load, a store, an update, cap.ld or cap.st fails first, and the
trap it takes (R173, R177; 07 Table K-69, R164). -/

namespace Sys2Proof.Laws.MemoryChecks

open Sys2Proof.Machine Sys2Proof.Spec

/-! ### The terms of the statements and those of the machine -/

theorem capchk_eq_capCause (k : Cap) (o n : Nat) (need : BitVec 8) : capchk k o n need = capCause k o n need := by
  have hform : (!capWellFormed k) = true ↔ ¬ (k.extractLsb' 112 16 = 0 ∧
      (k.extractLsb' 32 40).toNat ≤ (k.extractLsb' 72 40).toNat ∧ k.extractLsb' 0 24 ≠ 0) := by
    rw [Bool.not_eq_true', ← Bool.not_eq_true, capWellFormed, Bool.and_eq_true, Bool.and_eq_true, beq_iff_eq,
      decide_eq_true_eq, bne_iff_ne, and_assoc]
    rfl
  have hrights : (capRights k &&& need != need) = true ↔ k.extractLsb' 24 8 &&& need ≠ need := bne_iff_ne
  simp only [capchk, capCause, hform, hrights, ite_not]
  rfl

theorem not_inOwnDistrict_iff (s : State) (o : Nat) : ¬ inOwnDistrict s o ↔ s.ownTile s.core o = false := by
  rw [← Bool.not_eq_true, State.ownTile, Bool.or_eq_true, decide_eq_true_eq, inOwnDistrict]
  refine not_congr (or_congr Iff.rfl ?_)
  cases s.regionAt s.core with
  | none => simp
  | some r => exact ⟨fun ⟨_, hr, h⟩ => decide_eq_true (Option.some.inj hr ▸ h), fun h => ⟨r, rfl, of_decide_eq_true h⟩⟩

/-! ### The first check that fails (R173) -/

/-- The store of a capability that lacks the K right (07 R164). -/
def storesUnkept (m : MemForm) (v : Word) : Prop := m.cap = true ∧ m.cls = .stc ∧ v.getLsbD 31 = false

section
variable {s : State} {c : Nat} {m : MemForm} {k : Cap} {o : Nat} {v : Word}

theorem memCheck_of_capCause {cause : BitVec 8} (h : capCause k o m.n m.rights = some cause) :
    memCheck s c m k o v = some (cause, 0) := by
  simp [memCheck, capchk_eq_capCause, h]

theorem memCheck_unkept (hc : capCause k o m.n m.rights = none) (hk : storesUnkept m v) :
    memCheck s c m k o v = some (causeCapRights, 0) := by
  rw [memCheck, capchk_eq_capCause, hc]
  exact if_pos hk

theorem memCheck_misaligned (hc : capCause k o m.n m.rights = none) (hk : ¬ storesUnkept m v) (ho : o % m.n ≠ 0) :
    memCheck s c m k o v = some (if m.cap = true then (causeCapBounds, 0) else (causeMemForm, 1)) := by
  rw [memCheck, capchk_eq_capCause, hc]
  exact (if_neg hk).trans (if_pos ho)

theorem memCheck_tiles (hc : capCause k o m.n m.rights = none) (hk : ¬ storesUnkept m v) (ho : o % m.n = 0)
    (ht : namesTiles k) : memCheck s c m k o v =
      if m.n = 8 then some (causeMemForm, 2)
      else if ¬ m.remote = true ∧ ¬ m.amo = true ∧ s.ownTile c o = false then some (causeMemForm, 4) else none := by
  rw [memCheck, capchk_eq_capCause, hc]
  exact (if_neg hk).trans ((if_neg (not_not_intro ho)).trans (if_pos ht))

theorem memCheck_page (hc : capCause k o m.n m.rights = none) (hk : ¬ storesUnkept m v) (ho : o % m.n = 0)
    (ht : ¬ namesTiles k) : memCheck s c m k o v =
      if m.remote = true ∨ m.amo = true then some (causeMemForm, 5)
      else if m.feq ≠ 0 then some (causeMemForm, 3) else none := by
  rw [memCheck, capchk_eq_capCause, hc]
  exact (if_neg hk).trans ((if_neg (not_not_intro ho)).trans (if_neg ht))

end

/-! ### A check that fails traps, and nothing is issued -/

/-- DATA0 that a memory instruction captures: g[gd], or of cap.st the low half of k[kd] (08 Table K-95). -/
def data0 (x : Core) (m : MemForm) (d : BitVec 5) : Word :=
  if m.cap then (if m.cls = .stc then (x.rdK (d.setWidth 4)).setWidth 64 else 0) else x.rdG d

theorem traps_of_memCheck {s : State} {i : Instr} {m : MemForm} {d a : BitVec 5} {k : BitVec 4} {cause sub : BitVec 8}
    (he : exec i s = .next (memExec i s)) (hm : memInstr i = some ⟨m, d, a, k⟩)
    (h : memCheck s s.core m (s.cr.rdK k) (s.cr.rdG a).toNat (data0 s.cr m d) = some (cause, sub)) :
    traps s i cause sub (s.cr.rdG a) := by
  have hx : memExec i s = syncTrap s cause sub (s.cr.rdG a) := by
    unfold data0 at h
    simp only [memExec, hm, h]
  rw [traps, he, hx]

theorem exec_of_onFabric {s : State} {i : Instr} (hs : onDistrict s) (he : exec i s = .next (onFabric s (memExec i s))) :
    exec i s = .next (memExec i s) :=
  he.trans (congrArg _ (onFabric_district hs _))

/-! ### Loads and stores: mem and rmem (R173) -/

/-- The checks of a load or store of `n` bytes trap in the order of R173. -/
def checksInOrder (s : State) (i : Instr) (a : BitVec 5) (k : BitVec 4) (f : BitVec 2) (n : Nat) (need : BitVec 8)
    (remote : Bool) : Prop :=
  let off := s.cr.rdG a
  let cap := s.cr.rdK k
  (∀ cause, capCause cap off.toNat n need = some cause → traps s i cause 0 off) ∧
  (capCause cap off.toNat n need = none →
    (off.toNat % n ≠ 0 → traps s i causeMemForm 1 off) ∧
    (off.toNat % n = 0 →
      (namesTiles cap → (n = 8 → traps s i causeMemForm 2 off) ∧
        (n ≠ 8 → remote = false → ¬ inOwnDistrict s off.toNat → traps s i causeMemForm 4 off)) ∧
      (¬ namesTiles cap → (remote = true → traps s i causeMemForm 5 off) ∧
        (remote = false → f ≠ 0 → traps s i causeMemForm 3 off))))

section
variable {s : State} {i : Instr} {d a : BitVec 5} {k : BitVec 4} {f : BitVec 2} {o : BitVec 4} {n : Nat}

theorem checksInOrder_of_form {m : MemForm} (he : exec i s = .next (memExec i s))
    (hm : memInstr i = some ⟨m, d, a, k⟩) (hcap : m.cap = false) (hamo : m.amo = false) :
    checksInOrder s i a k m.feq m.n m.rights m.remote := by
  unfold checksInOrder
  intro off cap
  have hk : ∀ v, ¬ storesUnkept m v := fun v h => by simp [h.1] at hcap
  refine ⟨fun cause hc => traps_of_memCheck he hm (memCheck_of_capCause hc), fun hc => ⟨fun ho => ?misaligned, fun ho =>
    ⟨fun ht => ⟨fun hn => ?eight, fun hn hr hd => ?far⟩, fun ht => ⟨fun hr => ?remote, fun hr hf => ?fe⟩⟩⟩⟩
  case misaligned =>
    exact traps_of_memCheck he hm (by rw [memCheck_misaligned hc (hk _) ho, if_neg (by simp [hcap])])
  case eight =>
    exact traps_of_memCheck he hm (by rw [memCheck_tiles hc (hk _) ho ht, if_pos hn])
  case far =>
    have hfar := (not_inOwnDistrict_iff s _).1 hd
    have hin : ¬ m.remote = true ∧ ¬ m.amo = true := ⟨by simp [hr], by simp [hamo]⟩
    exact traps_of_memCheck he hm (by rw [memCheck_tiles hc (hk _) ho ht, if_neg hn, if_pos ⟨hin.1, hin.2, hfar⟩])
  case remote =>
    exact traps_of_memCheck he hm (by rw [memCheck_page hc (hk _) ho ht, if_pos (.inl hr)])
  case fe =>
    exact traps_of_memCheck he hm (by rw [memCheck_page hc (hk _) ho ht, if_neg (by simp [hr, hamo]), if_pos hf])

theorem load_checksInOrder {sx remote : Bool} (he : exec i s = .next (memExec i s))
    (hm : memInstr i = some ⟨loadForm n sx remote f o, d, a, k⟩) :
    checksInOrder s i a k f n (rightR ||| (if f = 0 then 0 else rightT) ||| (if f = 2 then rightW else 0)) remote :=
  checksInOrder_of_form he hm rfl rfl

theorem store_checksInOrder {remote : Bool} (he : exec i s = .next (memExec i s))
    (hm : memInstr i = some ⟨storeForm n remote f o, d, a, k⟩) :
    checksInOrder s i a k f n (rightW ||| (if f = 0 then 0 else rightT)) remote :=
  checksInOrder_of_form he hm rfl rfl

/-! ### Updates: amo (R177) -/

/-- The checks of an update of `n` bytes trap in order. -/
def updateChecksInOrder (s : State) (i : Instr) (a : BitVec 5) (k : BitVec 4) (n : Nat) (need : BitVec 8) : Prop :=
  let off := s.cr.rdG a
  let cap := s.cr.rdK k
  (∀ cause, capCause cap off.toNat n need = some cause → traps s i cause 0 off) ∧
  (capCause cap off.toNat n need = none →
    (off.toNat % n ≠ 0 → traps s i causeMemForm 1 off) ∧
    (off.toNat % n = 0 → ¬ namesTiles cap → traps s i causeMemForm 5 off))

theorem amo_checksInOrder {op : BitVec 4} {ret : Bool} (he : exec i s = .next (memExec i s))
    (hm : memInstr i = some ⟨amoForm op n ret f o, d, a, k⟩) :
    updateChecksInOrder s i a k n (if ret then 7 else 6) := by
  unfold updateChecksInOrder
  intro off cap
  have hneed : (if ret then 7 else 6) = (amoForm op n ret f o).rights := by cases ret <;> rfl
  have hk : ∀ v, ¬ storesUnkept (amoForm op n ret f o) v := fun _ h => Bool.noConfusion h.1
  rw [hneed]
  exact ⟨fun cause hc => traps_of_memCheck he hm (memCheck_of_capCause hc), fun hc =>
    ⟨fun ho => traps_of_memCheck he hm (memCheck_misaligned hc (hk _) ho),
      fun ho ht => traps_of_memCheck he hm ((memCheck_page hc (hk _) ho ht).trans (if_pos (.inr rfl)))⟩⟩

/-! ### Capabilities in memory: cap.ld and cap.st (07 Table K-69, R164) -/

/-- The checks of a load or store of a capability trap in order; `kept` says that what is stored has its K right. -/
def capChecksInOrder (s : State) (i : Instr) (a : BitVec 5) (k : BitVec 4) (need : BitVec 8) (kept : Prop) : Prop :=
  let off := s.cr.rdG a
  let cap := s.cr.rdK k
  (∀ cause, capCause cap off.toNat 16 need = some cause → traps s i cause 0 off) ∧
  (capCause cap off.toNat 16 need = none →
    (¬ kept → traps s i causeCapRights 0 off) ∧
    (kept → off.toNat % 16 ≠ 0 → traps s i causeCapBounds 0 off) ∧
    (kept → off.toNat % 16 = 0 → namesTiles cap → ¬ inOwnDistrict s off.toNat → traps s i causeMemForm 4 off))

theorem capChecksInOrder_of_form {m : MemForm} {kept : Prop} (he : exec i s = .next (memExec i s))
    (hm : memInstr i = some ⟨m, d, a, k⟩) (hcap : m.cap = true) (hn : m.n = 16) (hremote : m.remote = false)
    (hamo : m.amo = false) (hkept : storesUnkept m (data0 s.cr m d) ↔ ¬ kept) :
    capChecksInOrder s i a k m.rights kept := by
  unfold capChecksInOrder
  intro off cap
  rw [← hn]
  refine ⟨fun cause hc => traps_of_memCheck he hm (memCheck_of_capCause hc), fun hc => ⟨fun hk => ?unkept,
    fun hk ho => ?misaligned, fun hk ho ht hd => ?far⟩⟩
  case unkept => exact traps_of_memCheck he hm (memCheck_unkept hc (hkept.2 hk))
  case misaligned =>
    exact traps_of_memCheck he hm (by rw [memCheck_misaligned hc (mt hkept.1 (not_not_intro hk)) ho, if_pos hcap])
  case far =>
    have hk' := mt hkept.1 (not_not_intro hk)
    have hfar := (not_inOwnDistrict_iff s _).1 hd
    have hin : ¬ m.remote = true ∧ ¬ m.amo = true := ⟨by simp [hremote], by simp [hamo]⟩
    exact traps_of_memCheck he hm
      (by rw [memCheck_tiles hc hk' ho ht, if_neg (by simp [hn]), if_pos ⟨hin.1, hin.2, hfar⟩])

end

theorem capLd_checksInOrder (s : State) (kd k : BitVec 4) (a : BitVec 5) :
    capChecksInOrder s (.capLd kd k a) a k 1 True :=
  capChecksInOrder_of_form (m := { loadForm 16 false false 0 0 with cap := true }) (d := kd.setWidth 5) rfl rfl rfl rfl rfl
    rfl (by simp [storesUnkept, loadForm])

/-- DATA0 of cap.st is the low half of k[kd], with the K right in bit 31. -/
theorem capSt_checksInOrder (s : State) (kd k : BitVec 4) (a : BitVec 5) :
    capChecksInOrder s (.capSt kd k a) a k 2 ((s.cr.rdK kd).getLsbD 31 = true) := by
  refine capChecksInOrder_of_form (m := { storeForm 16 false 0 0 with cap := true }) (d := kd.setWidth 5) rfl rfl rfl rfl
    rfl rfl ?_
  simp [storesUnkept, data0, storeForm]

/-- Settles O21: each form by the order in which `memCheck` meets its checks. -/
theorem memoryChecksTrapInOrder : Obligations.MemoryChecksTrapInOrder := by
  intro s d a k f o off cap ld st checks
  refine ⟨?ldH, ?ldHs, ?ldW, ?ldWs, ?ldD, ?ldQ, ?stH, ?stW, ?stD, ?stQ, ?rmem, ?amo, ?caps⟩
  case ldH | ldHs | ldW | ldWs | ldD | ldQ => exact load_checksInOrder rfl rfl
  case stH | stW | stD | stQ => exact store_checksInOrder rfl rfl
  case rmem =>
    intro hs
    have load {i : Instr} {n : Nat} {sx : Bool} (he : exec i s = .next (onFabric s (memExec i s)))
        (hm : memInstr i = some ⟨loadForm n sx true f o, d, a, k⟩) : checks i n ld true :=
      load_checksInOrder (exec_of_onFabric hs he) hm
    have store {i : Instr} {n : Nat} (he : exec i s = .next (onFabric s (memExec i s)))
        (hm : memInstr i = some ⟨storeForm n true f o, d, a, k⟩) : checks i n st true :=
      store_checksInOrder (exec_of_onFabric hs he) hm
    exact ⟨load rfl rfl, load rfl rfl, load rfl rfl, load rfl rfl, load rfl rfl, load rfl rfl,
      store rfl rfl, store rfl rfl, store rfl rfl, store rfl rfl⟩
  case amo =>
    intro update
    have returning {i : Instr} {op : BitVec 4} {n : Nat} (he : exec i s = .next (memExec i s))
        (hm : memInstr i = some ⟨amoForm op n true f o, d, a, k⟩) : update i n 7 := amo_checksInOrder he hm
    have posted {i : Instr} {op : BitVec 4} {n : Nat} (he : exec i s = .next (memExec i s))
        (hm : memInstr i = some ⟨amoForm op n false f o, d, a, k⟩) : update i n 6 := amo_checksInOrder he hm
    simp only [List.forall_mem_cons]
    exact ⟨⟨returning rfl rfl, returning rfl rfl, returning rfl rfl, returning rfl rfl, returning rfl rfl,
        returning rfl rfl, returning rfl rfl, returning rfl rfl, returning rfl rfl, returning rfl rfl,
        List.forall_mem_nil _⟩, returning rfl rfl,
      ⟨posted rfl rfl, posted rfl rfl, posted rfl rfl, posted rfl rfl, posted rfl rfl, posted rfl rfl, posted rfl rfl,
        List.forall_mem_nil _⟩, posted rfl rfl⟩
  case caps =>
    intro kd moves
    exact ⟨capLd_checksInOrder s kd k a, capSt_checksInOrder s kd k a⟩

end Sys2Proof.Laws.MemoryChecks
end

section
/-! SUPPORT. The obligation of 17, containment: what a husk's error tokens do to the region that they leave (R341, R342; 20
R367). -/

namespace Sys2Proof.Laws.Containment

open Sys2Proof.Machine Sys2Proof.Spec

/-! ### A reorder element whose only edge leaves its husk -/

/-- An edge of plane 1 on channel 0, from the reorder element at row 8 of district 1 to the matrix node above it. -/
def outEdge : Edge := { src := 753, dst := 727, plane := 1 }

/-- A running region of district 1 alone that has not fired in the current interval. -/
def quietRegion : Region := { loadId := 1, districts := [1], edges := [outEdge], status := .running, started := true }

/-- A fault of the reorder element on plane 0, on which it has no edge: its husk is the element alone. -/
def roFault : Husk := { code := 3, elem := 753 }

/-- The matrix node has plane 1 active on channel 0, so that the edge carries the error token out of the husk; every buffer
is empty, so that there is room for it. -/
def roState : State :=
  { districts := [(1, { active := [(32 * 207, 1)] })], regions := [quietRegion], husks := [roFault] }

/-- The seal marks the region as fired, because the error token leaves a reorder element at once (20 R367). -/
theorem seal_of_roFault_fires_region :
    ((sealHusk { roState with husks := [] } roFault).regionOf quietRegion.loadId).map (·.firedNow) = some true := by
  decide +kernel

/-- Refutes O54: where an edge out of the husk starts at a reorder element whose link has room, the error token's departure
makes the region fire. The seal then sets `firedNow` beside `failed`, and the clause that the region is otherwise as before
does not hold. -/
theorem not_husksSealWhatTheyReach : ¬ Obligations.HusksSealWhatTheyReach := by
  unfold Obligations.HusksSealWhatTheyReach
  rintro ⟨-, hseals⟩
  obtain ⟨-, hunsealed, -⟩ := (hseals roState).2 none roFault [] quietRegion (.inl ⟨rfl, rfl⟩) rfl rfl (.inl rfl)
  obtain ⟨t, hrun, -, -, -, -, -, -, -, -, -, -, hregion⟩ := hunsealed rfl (by decide) (by decide)
  have ht : sealHusk { roState with husks := [] } roFault = t := Host.Outcome.next.inj hrun
  have hfired := seal_of_roFault_fires_region
  rw [ht, hregion] at hfired
  exact absurd (Option.some.inj hfired) (by decide)

end Sys2Proof.Laws.Containment
end
